-- ==== Sys2Proof/Word.lean ====
section
/-! DEFINITION. The word types of the model and the plainest facts about them. -/

namespace Sys2Proof

/-- One byte of a store. -/
abbrev Byte := BitVec 8

/-- A 32-bit word: a Facet register, an accumulator word, a Vertex object's value. -/
abbrev Word := BitVec 32

/-- A 64-bit word: a signature register, a byte mask. -/
abbrev Dword := BitVec 64

end Sys2Proof
end

