-- ==== Sys2Proof/Syntax.lean ====
section
/-! DEFINITION. The commands and events of the SV3280: one constructor of `Instr` per row of
spec/opcode_table.json, with what each carries. A command that a row's text says is posted through a
window names its handle `h` (R213); an operation of a Facet names the site `f` that runs it (R8). Every
command is applied at the Gnomon time `State.now`, its stamp. -/

namespace Sys2Proof

/-- The four engines of a hub (R219). -/
inductive Engine where
  | control | plane | solver | crypto
  deriving DecidableEq, Repr

/-- A post window (R203): a core window of a hub, which that hub's application cores reach, or a host window reached through a hub's front end. -/
inductive WinRef where
  | core (hub : Fin 2) (n : Nat)
  | host (hub : Fin 2) (n : Nat)
  deriving DecidableEq, Repr

/-- What a `REGISTER_WRITE` writes: a dictionary entry held by the unit that owns it, the post offset or
another offset of a core window as a core reaches it (R205, R254), or a core's `kxpid` CSR from the privilege that accesses it (R254; cores 0 to 7 are those of Hub W, 8 to 15 of Hub E: 0 M,
1 HS, 2 S, 3 VS, 4 VU, 5 U), by a CSR instruction that writes it or only reads it. -/
inductive WriteTarget where
  | entry (hub : Fin 2) (index sub : Nat)
  | window (core : Fin 16) (n offset : Nat)
  | kxpid (core : Fin 16) (priv : Nat) (write : Bool)
  deriving DecidableEq, Repr

/-- Where an Axbel request came from (R452): a hub's I3C target, or a UDP datagram to a port of the hub, with its source address and port; what
a datagram carries are its bytes as R457 lays them out. -/
inductive AxSource where
  | i3c
  | udp (addr port dport : Nat)
  deriving DecidableEq, Repr

/-- The common command codes of R454 with the data that each carries from the controller. -/
inductive Ccc where
  | enec (events : Byte) | disec (events : Byte)
  | entdaa (address : Byte) | setdasa (static address : Byte) | rstdaa
  | getpid | getbcr | getdcr | getstatus
  | setmrl (len ibi : Nat) | getmrl | setmwl (len : Nat) | getmwl | getmxds
  | enthdr0 | rstact (action : Byte)
  | unsupported (code : Byte)
  deriving DecidableEq, Repr

/-- What the peer of a link presented at training (R322, R340): its seat, its serial and, from the guest,
its identifier. -/
structure PeerId where
  seat   : Nat
  serial : Nat
  gid    : Nat
  deriving DecidableEq, Repr

/-- How the training of a link ended (R323, R435): it stays down, or it comes up and the test of its flit check gave the right result or a
wrong one. -/
inductive LinkTraining where
  | failed
  | trained
  | wrongTest
  deriving DecidableEq, Repr

/-- The fields of a line slot that the guest die sends (R325): seat, sector and generation as carried, the
tag, the line index, and for a write its data. -/
structure GuestLine where
  sseat   : Nat
  sector  : Nat
  gen     : Nat
  tag     : Nat
  line    : Nat
  data    : List Byte
  poison  : Bool
  deriving DecidableEq, Repr

/-- A line request that arrives: one that a unit of this device issued, named by its tag in the table of
outstanding requests, or one from the guest die with its fields as carried. -/
inductive LineRef where
  | issued (tag : Nat)
  | guest (g : GuestLine)
  deriving DecidableEq, Repr

/-- The header of a short transaction as carried (R325, R326). -/
structure ShortHdr where
  sseat  : Nat
  sector : Nat
  gen    : Nat
  deriving DecidableEq, Repr

/-- A response that arrives (R326): to a request of this device, by its tag, or from the guest die with its header as carried. -/
inductive RespRef where
  | issued (tag : Nat)
  | guest (m : ShortHdr)
  deriving DecidableEq, Repr

/-- A byte mask that arrives (R326), with its header as carried: from a die of this device, or on the guest's port. -/
inductive MaskRef where
  | inner (m : ShortHdr)
  | guest (m : ShortHdr)
  deriving DecidableEq, Repr

/-- The scopes of a restart (R422). -/
inductive Scope where
  | prism (d : Fin 4) | half (h : Fin 2) | device
  deriving DecidableEq, Repr

/-- The stores that are scrubbed (R308). -/
inductive Store where
  | dram (n : Fin 4) | localStore (f : Nat) | hubSram (hub : Fin 2)
  deriving DecidableEq, Repr

/-- What a code finds when a line is read (R302, R303). -/
inductive EccResult where
  | clean | corrected | uncorrectable
  deriving DecidableEq, Repr

/-- A long packet on a receive port (R348): virtual channel, data type, its bytes, whether the header
could be corrected and whether the payload CRC holds. -/
structure LongPacket where
  vc    : Nat
  dt    : Nat
  bytes : List Byte
  hdrOk : Bool
  crcOk : Bool
  deriving DecidableEq, Repr

/-- A CAN frame (R481): flags byte, SDT, VCID, identifier, acceptance field, data, and which receive FIFO
and whether its acceptance filters admit it. -/
structure CanFrame where
  flags : Nat
  sdt   : Nat
  vcid  : Nat
  ident : Nat
  af    : Nat
  data  : List Byte
  fifo  : Nat
  admitted : Bool
  deriving DecidableEq, Repr

/-- One read-back of an AVS rail (R515): voltage in mV, current in 0.1 A, and the regulator's fault bit. -/
structure RailReading where
  mv    : Nat
  ma    : Nat
  fault : Bool
  deriving DecidableEq, Repr

/-- The supply rails of R512. -/
inductive Rail where
  | avs (r : Fin 8) | vpp (hub : Fin 2) | vdd (hub : Fin 2) | vddq (hub : Fin 2) | guest | vio (n : Fin 3)
  deriving DecidableEq, Repr

/-- One conversion of one sensor (R523): the hot spot, which of its sensors, and the reading in 1/16 C. -/
structure TempReading where
  spot   : Nat
  second : Bool
  r      : Int
  deriving DecidableEq, Repr

/-- What an application core does at a physical address (R278). -/
inductive CoreOp where
  | load (len : Nat) | store (data : List Byte)
  deriving DecidableEq, Repr

/-- The commands and events of the block, one per row of spec/opcode_table.json. -/
inductive Instr where
  /-- `SEQUENCER_INSTRUCTION`, R40: The Facet sequencer executes a base RV32IMC or Zicsr instruction; an encoding outside the supported sets raises FX_ILLEGAL. -/
  | sequencerInstruction (f : Nat)
  /-- `FXSTAT_READ`, R55: A CSR read of fxstat returns the saturation and NaN counts and clears them. -/
  | fxstatRead (f : Nat) (rd : BitVec 5)
  /-- `FXTIME_READ`, R55: A CSR read of fxtime returns the low Gnomon word and latches the high word into fxtimeh. -/
  | fxtimeRead (f : Nat) (rd : BitVec 5)
  /-- `ECALL`, R44: ecall with a7 = 0 ends the step's program; the device then waits for all outstanding operations; any other a7 raises FX_ILLEGAL. -/
  | ecall (f : Nat)
  /-- `STEP_COMPLETE`, R44: Once every issued operation, put and message of an ended step is complete, the step is reported complete and its carry write starts. -/
  | stepComplete (f : Nat)
  /-- `CARRY_WRITE_COMPLETE`, R148: The carry write of a completed step becomes globally complete in the buffer that is not committed. -/
  | carryWriteComplete (f : Nat)
  /-- `LX_DLD`, R58: Loads a 32-byte tensor descriptor from local store into a descriptor register, checked under R53. -/
  | lxDld (f : Nat) (rd rs1 : BitVec 5)
  /-- `LX_DST`, R58: Stores a descriptor register to local store. -/
  | lxDst (f : Nat) (rs1 rs2 : BitVec 5)
  /-- `LX_DBASE`, R58: Adds a signed offset to a descriptor's base and checks the descriptor again. -/
  | lxDbase (f : Nat) (rd rs1 : BitVec 5)
  /-- `LX_WLD`, R58: Loads a K x N weight tile, with its scale and outlier references, into the idle half of the Lattice cells. -/
  | lxWld (f : Nat) (rs1 : BitVec 5)
  /-- `LX_MM`, R59: Runs a tap-shifted matrix product of an input map with the loaded tile into the covered accumulator rows, in integer or float mode. -/
  | lxMm (f : Nat) (rd rs1 rs2 : BitVec 5)
  /-- `LX_DG`, R108: Runs a diagonal-mode depthwise convolution pass, one channel per Lattice row, into the accumulator. -/
  | lxDg (f : Nat) (rd rs1 rs2 : BitVec 5)
  /-- `LX_CVT`, R96: Converts the covered accumulator rows to a stored tensor through dequantisation, outlier addition, bias, activation and requantisation. -/
  | lxCvt (f : Nat) (rd rs1 rs2 : BitVec 5)
  /-- `LX_ACZ`, R58: Zeroes a range of accumulator rows and their held outlier contributions. -/
  | lxAcz (f : Nat) (rs1 rs2 : BitVec 5)
  /-- `WN_MAX`, R115: Maximum pooling over windows of the real inputs. -/
  | wnMax (f : Nat) (rd rs1 rs2 : BitVec 5)
  /-- `WN_AVG`, R116: Average pooling with the divisor that div selects and one rounding. -/
  | wnAvg (f : Nat) (rd rs1 rs2 : BitVec 5)
  /-- `VX_ADD`, R97: Element-wise addition in the vector unit. -/
  | vxAdd (f : Nat) (rd rs1 rs2 : BitVec 5)
  /-- `VX_SUB`, R97: Element-wise subtraction in the vector unit. -/
  | vxSub (f : Nat) (rd rs1 rs2 : BitVec 5)
  /-- `VX_MUL`, R97: Element-wise multiplication in the vector unit. -/
  | vxMul (f : Nat) (rd rs1 rs2 : BitVec 5)
  /-- `VX_MAX`, R97: Element-wise maximum in the vector unit. -/
  | vxMax (f : Nat) (rd rs1 rs2 : BitVec 5)
  /-- `VX_MIN`, R97: Element-wise minimum in the vector unit. -/
  | vxMin (f : Nat) (rd rs1 rs2 : BitVec 5)
  /-- `VX_CVT`, R100: Converts a tensor to the destination format, choosing block scales when the destination carries a scale reference. -/
  | vxCvt (f : Nat) (rd rs1 : BitVec 5)
  /-- `VX_RELU`, R97: Element-wise ReLU. -/
  | vxRelu (f : Nat) (rd rs1 : BitVec 5)
  /-- `VX_EXP2`, R98: Element-wise 2^A, correctly rounded to FP32. -/
  | vxExp2 (f : Nat) (rd rs1 : BitVec 5)
  /-- `VX_RCP`, R98: Element-wise reciprocal, correctly rounded to FP32. -/
  | vxRcp (f : Nat) (rd rs1 : BitVec 5)
  /-- `VX_RSQ`, R98: Element-wise reciprocal square root, correctly rounded to FP32. -/
  | vxRsq (f : Nat) (rd rs1 : BitVec 5)
  /-- `VX_ADDS`, R97: Adds a scalar register value to each element. -/
  | vxAdds (f : Nat) (rd rs1 rs2 : BitVec 5)
  /-- `VX_MULS`, R97: Multiplies each element by a scalar register value. -/
  | vxMuls (f : Nat) (rd rs1 rs2 : BitVec 5)
  /-- `VX_RSUM`, R97: Sums along dim0 in ascending order, with one rounding per addition. -/
  | vxRsum (f : Nat) (rd rs1 : BitVec 5)
  /-- `VX_RMAX`, R97: Takes the maximum along dim0. -/
  | vxRmax (f : Nat) (rd rs1 : BitVec 5)
  /-- `VX_ALD`, R63: Copies the covered accumulator words, bits unchanged, to a tensor. -/
  | vxAld (f : Nat) (rd rs1 : BitVec 5)
  /-- `VX_AACC`, R63: Adds a tensor into the covered accumulator words. -/
  | vxAacc (f : Nat) (rd rs1 : BitVec 5)
  /-- `DM_GET`, R66: The mover reads a far tensor, and its scales, from sector memory into a local tensor. -/
  | dmGet (f : Nat) (ch : BitVec 4) (rd rs1 : BitVec 5)
  /-- `DM_PUT`, R67: The mover writes a local tensor to sector memory on a channel. -/
  | dmPut (f : Nat) (ch : BitVec 4) (rd rs1 : BitVec 5)
  /-- `DM_WAIT`, R65: Stalls until every earlier put on the named channels is globally complete. -/
  | dmWait (f : Nat) (rs1 : BitVec 5)
  /-- `DM_KV`, R135: The page walker gathers or scatters tokens between a KV pool plane and a local tensor through the step's view. -/
  | dmKv (f : Nat) (ch : BitVec 4) (rd rs1 : BitVec 5)
  /-- `MS_SEND`, R69: Sends a 64-byte message to a destination home, after checks; the sender stalls only while an earlier message is held. -/
  | msSend (f : Nat) (rs1 : BitVec 5)
  /-- `MS_RECV`, R65: Returns the address of the oldest unconsumed ring entry, stalling while the ring is empty. -/
  | msRecv (f : Nat) (rd : BitVec 5)
  /-- `MS_POLL`, R65: Returns the oldest unconsumed ring entry, or all ones when the ring is empty. -/
  | msPoll (f : Nat) (rd : BitVec 5)
  /-- `MS_ACK`, R65: Releases the oldest unconsumed ring entry. -/
  | msAck (f : Nat)
  /-- `VT_POST_INSN`, R176: A Facet posts a value to a Vertex object, which releases at most the earliest holding watch. -/
  | vtPostInsn (f : Nat) (rd rs1 rs2 : BitVec 5)
  /-- `VT_SET_INSN`, R177: A Facet sets a Vertex object, which releases every holding watch. -/
  | vtSetInsn (f : Nat) (rd rs1 rs2 : BitVec 5)
  /-- `VT_READ`, R178: Reads a Vertex object's value; a refusal raises FX_OPERAND. -/
  | vtRead (f : Nat) (rd rs1 : BitVec 5)
  /-- `VT_WATCH_INSN`, R182: A Facet registers a one-shot watch record on an object. -/
  | vtWatchInsn (f : Nat) (rd rs1 : BitVec 5)
  /-- `VT_BAR`, R191: A Facet arrives at an Apex barrier; the round completes when every participant has arrived. -/
  | vtBar (f : Nat) (rd rs1 : BitVec 5)
  /-- `MESSAGE_DEPOSIT`, R70: A held message or device-originated message is deposited once the ring has room and the task is resident. -/
  | messageDeposit (id : Nat)
  /-- `TICK_BOUNDARY`, R38: A tick window closes: events are closed, watchdogs evaluated, faults concluded, carry sets committed, boundary changes applied and new entries released. -/
  | tickBoundary
  /-- `SENSOR_OUT_EXPIRY`, R372: A voted-out sensor's remaining out-time counts down to zero, and the sensor is admitted again. -/
  | sensorOutExpiry (b : Fin 2) (sensor : Nat)
  /-- `NIM_TELEMETRY`, R465: At the first boundary after each owed period multiple, Hub W samples the selected entries into a telemetry record. -/
  | nimTelemetry
  /-- `ENTRY_DUE`, R234: An enabled, and for sporadic entries armed, occurrence becomes due at its start offset. -/
  | entryDue (e : Nat)
  /-- `ENTRY_RELEASE`, R234: A due occurrence is released once all its Facets are free, and its step handle is issued. -/
  | entryRelease (e : Nat)
  /-- `REPLAY_RELEASE`, R238: An ordered replay is released on the Facets that now run its homes, with its original tick number and view. -/
  | replayRelease (e n : Nat)
  /-- `RELEASE_WINDOW_CLOSE`, R237: An occurrence not released by the close of its release window is shed. -/
  | releaseWindowClose (e : Nat)
  /-- `BUDGET_EXPIRY`, R243: A step still running at release + budget is stopped with FX_STOPPED. -/
  | budgetExpiry (f : Nat)
  /-- `STAGE_WINDOW_CLOSE`, R244: A stage without completion by its window close gets a window fault stamped close - 1 ns. -/
  | stageWindowClose (e n : Nat)
  /-- `REFERENCE_FIGURE_RUN`, R239: A reservation opens and the Facet runs the ordered suspect-finding figure or the periodic figure. -/
  | referenceFigureRun (f : Nat) (out : List (Nat × Word)) (cause : Bool)
  /-- `SELF_TEST_SLOT_START`, R246: A self-test slot starts the self-test program on the next standby Facets. -/
  | selfTestSlotStart (e : Nat)
  /-- `SELF_TEST_SLOT_END`, R246: At the end of the slot each Facet yields and its progress is kept. -/
  | selfTestSlotEnd (e : Nat)
  /-- `SLICE_SWITCH_COMPLETE`, R154: A slice switch completes, and delayed entries of the Prism are released. -/
  | sliceSwitchComplete (d : Fin 4)
  /-- `ROTATION_COPY_COMPLETE`, R532: The local-store copy of a rotation or spare bring-in completes, and releases on the target may proceed. -/
  | rotationCopyComplete (f : Nat)
  /-- `JOIN_COPY_COMPLETE`, R406: Mirror copying for a join completes, and this fixes the trial tick. -/
  | joinCopyComplete
  /-- `REPLAY_BOUND_EXPIRY`, R429: A replay not accepted within two ticks of its withholding boundary raises FLT_REPLAY_FAIL. -/
  | replayBoundExpiry (e n : Nat)
  /-- `LAP_DEADLINE`, R438: A latent-fault lap not ended by its deadline raises FLT_LAP, reports DEGRADED and starts a new lap. -/
  | lapDeadline (d : Fin 4)
  /-- `CMD_NOP`, R210: Does nothing, optionally after waiting on its after handle. -/
  | cmdNop (h : Nat)
  /-- `CMD_FENCE`, R210: Completes when every earlier command of its context has completed. -/
  | cmdFence (h : Nat)
  /-- `ENGINE_START`, R220: An engine starts its next eligible queued command in acceptance order, passing over commands held by after. -/
  | engineStart (hub : Fin 2) (eng : Engine)
  /-- `WINDOW_CONTROL_WRITE`, R204: A write of a core or host window control word opens a new context or closes one; `core` is the application core
that accesses a core window. -/
  | windowControlWrite (w : WinRef) (core : Fin 8) (v : Word)
  /-- `RESPONSE_READ`, R208: A read of the core window's response word pops the oldest FIFO entry, waiting for a pending post's entry. -/
  | responseRead (hub : Fin 2) (win : Nat) (core : Fin 8)
  /-- `HANDLE_RETIRE`, R215: A retire write frees a COMPLETE rep-0b00 slot of the context. -/
  | handleRetire (w : WinRef) (core : Fin 8) (v : Word)
  /-- `REGISTER_WRITE`, R445: A write of a register or dictionary entry that has no row of its own is checked and applied at its stamp. -/
  | registerWrite (tgt : WriteTarget) (value : List Byte)
  /-- `SEC_CREATE`, R259: Creates a sector from its record after ordered checks and grants its resources. -/
  | secCreate (h : Nat)
  /-- `SEC_DESTROY`, R269: Destroys a sector, draining its requests and returning its resources. -/
  | secDestroy (h : Nat)
  /-- `SEC_RESET`, R266: Bumps the sector generation, tears down its contexts, stops its steps, destroys its pools and starts the drain. -/
  | secReset (h : Nat)
  /-- `DRAIN_END`, R266: No old-generation request remains past memory-controller acceptance; the reset restores the sector's tasks, or the destroy frees the sector. -/
  | drainEnd (sec : Nat)
  /-- `DRAIN_TIMEOUT`, R268: A drain not complete 50 us after T raises FLT_MEMCTL for each controller still holding an old request. -/
  | drainTimeout (sec : Nat)
  /-- `SEC_INVAL`, R263: Invalidates cached translations of a sector over a range of pages. -/
  | secInval (h : Nat)
  /-- `SEC_DIRTY_START`, R271: SEC_DIRTY op 0 clears the sector's dirty bits and turns logging on. -/
  | secDirtyStart (h : Nat)
  /-- `SEC_DIRTY_HARVEST`, R271: SEC_DIRTY op 1 copies the dirty bits of writes accepted before T to a buffer and clears them. -/
  | secDirtyHarvest (h : Nat)
  /-- `SEC_DIRTY_STOP`, R271: SEC_DIRTY op 2 turns dirty logging off. -/
  | secDirtyStop (h : Nat)
  /-- `IMG_LOAD`, R170: Checks a placement image in order and then applies its tasks, runs, areas and schedule entries. -/
  | imgLoad (h : Nat)
  /-- `IMG_UNLOAD`, R169: Removes a sector's image and its schedule entries. -/
  | imgUnload (h : Nat)
  /-- `KV_POOL_CREATE`, R140: Creates a KV pool with its geometry and control area. -/
  | kvPoolCreate (h : Nat)
  /-- `KV_POOL_DESTROY`, R139: Destroys a KV pool unless it is bound, pinned or holds a held command. -/
  | kvPoolDestroy (h : Nat)
  /-- `KV_ALLOC`, R139: Pops pages from the free list to LIVE and writes their numbers. -/
  | kvAlloc (h : Nat)
  /-- `KV_MAP`, R131: Sets page-table entries of a sequence, applied at once or held while a view depends on superseded values. -/
  | kvMap (h : Nat)
  /-- `KV_FREE`, R132: Frees listed LIVE pages; unpinned pages become FREE, pinned pages FREEING. -/
  | kvFree (h : Nat)
  /-- `KV_SEQ_OPEN`, R139: KV_SEQ op 0 opens a sequence with every entry invalid. -/
  | kvSeqOpen (h : Nat)
  /-- `KV_SEQ_CLOSE`, R139: KV_SEQ op 1 closes a sequence and invalidates its entries. -/
  | kvSeqClose (h : Nat)
  /-- `KV_SEQ_CLOSE_FREE`, R139: KV_SEQ op 2 closes a sequence and frees every page whose map count falls to zero. -/
  | kvSeqCloseFree (h : Nat)
  /-- `KV_SEQ_SET_GLOBALS`, R139: KV_SEQ op 3 sets the sequence's global position list. -/
  | kvSeqSetGlobals (h : Nat)
  /-- `KV_HELD_APPLY`, R131: A held KV_MAP or KV_SEQ applies when the last view that depends on superseded values is released. -/
  | kvHeldApply (pool : Nat)
  /-- `KV_PAGE_FREE`, R132: A FREEING page's pin count reaches zero, and the page is pushed onto the free list. -/
  | kvPageFree (pool page : Nat)
  /-- `VT_ALLOC`, R174: Allocates the lowest free or lost objects of a unit, advancing their generations. -/
  | vtAlloc (h : Nat)
  /-- `VT_FREE`, R200: Frees owned object references by forwarding the request to each object's unit. -/
  | vtFree (h : Nat)
  /-- `VT_FREE_UNIT_APPLY`, R186: A unit frees one object at its own stamp and releases its watches with cause freed. -/
  | vtFreeUnitApply (h i : Nat)
  /-- `VT_POST`, R200: Command form of a post on an object. -/
  | vtPost (h : Nat)
  /-- `VT_SET`, R200: Command form of a set on an object. -/
  | vtSet (h : Nat)
  /-- `VT_WATCH`, R184: Registers a watch whose wake completes the handle and may raise a vector. -/
  | vtWatch (h : Nat)
  /-- `VT_UNWATCH`, R200: Cancels a pending VT_WATCH of the context, which completes with ST_VT_CANCELLED. -/
  | vtUnwatch (h : Nat)
  /-- `APX_CREATE`, R201: Creates a die or device barrier with its participants. -/
  | apxCreate (h : Nat)
  /-- `APX_DESTROY`, R200: Destroys a barrier, breaking a round in progress. -/
  | apxDestroy (h : Nat)
  /-- `APX_ARRIVE`, R191: A non-Facet arrival at a device barrier, completing when the round completes or breaks. -/
  | apxArrive (h : Nat)
  /-- `SCH_TRIGGER`, R242: Arms one occurrence of a sporadic entry at acceptance. -/
  | schTrigger (h : Nat)
  /-- `SCH_ENABLE`, R248: Sets an entry's enable state at the next frame-opening tick, or at once in CONFIG. -/
  | schEnable (h : Nat)
  /-- `INT_PROBE`, R315: Reads sector lines without consuming them and reports the first poisoned address and the count. -/
  | intProbe (h : Nat)
  /-- `STR_SET`, R360: Writes a stream entry from a root context under the rules of a STR_ENTRY write. -/
  | strSet (h : Nat)
  /-- `STR_ENTRY_WRITE`, R345: A write of a stream entry enables it after ordered checks, or disables it at once or at frame close. -/
  | strEntryWrite (hub : Fin 2) (n : Nat) (value : List Byte)
  /-- `STR_TX`, R356: Queues one frame with its envelope for transmission on a CSI-2 transmit port. -/
  | strTx (h : Nat)
  /-- `STR_TX_FRAME_SEND`, R358: The port stages the record, verifies its tile checks and sends the frame, completing STR_TX at frame end. -/
  | strTxFrameSend (port : Fin 4)
  /-- `PE_LIFT`, R368: Lifts camera features along depth bins onto the ground grid and accumulates them in the buffer. -/
  | peLift (h : Nat)
  /-- `PE_VOXEL`, R369: Sorts lidar points into grid voxels and updates their counts and sums. -/
  | peVoxel (h : Nat)
  /-- `AS_SOLVE`, R381: Solves the exact assignment of a cost matrix of up to 512 x 512. -/
  | asSolve (h : Nat)
  /-- `UPD_VERIFY`, R499: Verifies a staged firmware image and records its identity as staged. -/
  | updVerify (h : Nat)
  /-- `UPD_WRITE`, R500: Writes the staged image to the named hubs' flash and verifies each read-back. -/
  | updWrite (h : Nat) (readback : List (List Byte))
  /-- `ATT_REPORT`, R508: Writes and signs an attestation report for a sector. -/
  | attReport (h : Nat)
  /-- `CAL_REC_WRITE`, R365: A CONFIG write of a calibration record sets the current and reference parameters, clears flags and recomputes the rotation. -/
  | calRecWrite (hub b : Fin 2) (sensor : Nat) (value : List Byte)
  /-- `FUS_BIND_WRITE`, R363: A write of a fusion binding is checked and latches the translations of its tables. -/
  | fusBindWrite (hub b : Fin 2) (value : List Byte)
  /-- `PX_MODE_WRITE`, R404: A countersigned write of PX_MODE makes a split or join pending. -/
  | pxModeWrite (hub : Fin 2) (v : Byte)
  /-- `DEV_REQUEST_OPERATIONAL`, R459: DEV_REQUEST value 1, countersigned in CONFIG, requests entry to OPERATIONAL. -/
  | devRequestOperational (hub : Fin 2)
  /-- `DEV_REQUEST_CONFIG`, R459: DEV_REQUEST value 2, countersigned in OPERATIONAL or DEGRADED, requests entry to CONFIG. -/
  | devRequestConfig (hub : Fin 2)
  /-- `BS_SVN_COMMIT`, R502: A countersigned write commits the rollback counter, blowing fuses at the boundary. -/
  | bsSvnCommit (hub : Fin 2) (v : Byte)
  /-- `BS_KEY_REVOKE`, R503: A countersigned write revokes a firmware-signing key slot on both hubs. -/
  | bsKeyRevoke (hub : Fin 2) (v : Byte)
  /-- `BS_AX_KEY`, R505: Installs or clears an Axbel key slot, resetting its counters. -/
  | bsAxKey (hub : Fin 2) (via : Option Nat) (slot : Nat) (value : List Byte)
  /-- `BS_REC_DATA`, R498: Writes a chunk of a recovery image into the device range of hub SRAM. -/
  | bsRecData (hub : Fin 2) (value : List Byte)
  /-- `BS_REC_CMD_VERIFY`, R498: BS_REC_CMD 1 verifies the received image and continues boot with the flash untouched. -/
  | bsRecCmdVerify (hub : Fin 2)
  /-- `BS_REC_CMD_FLASH`, R498: BS_REC_CMD 2 verifies the received image, writes and verifies flash, then continues boot. -/
  | bsRecCmdFlash (hub : Fin 2) (readback : List Byte)
  /-- `BS_REC_CMD_DISCARD`, R498: BS_REC_CMD 3 discards the received recovery bytes. -/
  | bsRecCmdDiscard (hub : Fin 2)
  /-- `NIM_ACK`, R464: Acknowledges Nimbusor records of a ring through a sequence number. -/
  | nimAck (hub ring : Fin 2) (q : Word)
  /-- `NIM_RETRANSMIT`, R464: Unacknowledged pushed records are sent again every NIM_RETX_MS. -/
  | nimRetransmit (hub : Fin 2)
  /-- `GW_QBV_WRITE`, R476: A write of a gate control list schedules it to replace the running list. -/
  | gwQbvWrite (n : Nat) (value : List Byte)
  /-- `GATE_LIST_SWITCH`, R476: At the first qualifying cycle start the new gate control list replaces the running one. -/
  | gateListSwitch (n : Nat)
  /-- `AXBEL_READ`, R445: An Axbel READ request is checked and returns the entry's value at its stamp. -/
  | axbelRead (hub : Fin 2) (src : AxSource) (pdu : List Byte)
  /-- `AXBEL_WRITE`, R445: An Axbel WRITE request is checked and carries the write of an entry. -/
  | axbelWrite (hub : Fin 2) (src : AxSource) (pdu : List Byte)
  /-- `AXBEL_ECHO`, R451: An Axbel ECHO request returns its payload. -/
  | axbelEcho (hub : Fin 2) (src : AxSource) (pdu : List Byte)
  /-- `MERIDIAN_COUNTERSIGN`, R448: A Meridian receives a forwarded rw-2k write and signs or refuses it; the second signature makes the write pending. -/
  | meridianCountersign (hub : Fin 2) (id : Nat)
  /-- `COUNTERSIGN_TIMEOUT`, R448: Signatures not taken within 10 ms of the stamp fail the write with ST_DICT_2K_TIMEOUT. -/
  | countersignTimeout (id : Nat)
  /-- `I3C_PRIVATE_READ`, R455: A private read returns the oldest unread response, and an early end discards its rest. -/
  | i3cPrivateRead (hub : Fin 2) (maxlen : Nat)
  /-- `I3C_CCC`, R454: The hub's I3C target executes a supported common command code. -/
  | i3cCcc (hub : Fin 2) (ccc : Ccc)
  /-- `I3C_IBI`, R456: The target raises a queued in-band interrupt; acknowledgment delivers it, a NACK makes it raised again. -/
  | i3cIbi (hub : Fin 2) (ack : Bool)
  /-- `FLIT_RECEIVE`, R329: A flit arrives, is accepted in sequence or discarded with a nak, and returns credits and acknowledgments. -/
  | flitReceive (link : Fin 14) (dir : Fin 2) (flit : List Byte)
  /-- `NAK_TIMEOUT`, R329: A receiver whose nak has gone unanswered for 2,000 ns may send another. -/
  | nakTimeout (link : Fin 14) (dir : Fin 2)
  /-- `ACK_TIMEOUT`, R329: Unacknowledged flits without ack progress for 2,000 ns are replayed from the oldest. -/
  | ackTimeout (link : Fin 14) (dir : Fin 2)
  /-- `MODULE_TRAINED_STATE_LOST`, R330: The sideband reports that a module lost its trained state, and the link goes down. -/
  | moduleTrainedStateLost (link : Fin 14)
  /-- `LINK_TRAINING_DONE`, R323: A link completes training with the identity exchange, or stays down; the guest is admitted or refused. -/
  | linkTrainingDone (link : Fin 14) (result : LinkTraining) (peer : PeerId)
  /-- `WR`, R325: A line write arrives at its destination and is accepted by the memory controller, or is squashed or firewalled. -/
  | wr (q : LineRef) (tileOk : Bool)
  /-- `RD`, R326: A line read request arrives and is served, squashed or refused by the firewall. -/
  | rd (q : LineRef) (found : EccResult)
  /-- `MASK`, R326: A byte mask arrives for the next WR from the same seat. -/
  | mask (m : MaskRef) (bits : Dword)
  /-- `RRET`, R325: A read return arrives and completes its read. -/
  | rret (q : RespRef) (tileOk : Bool)
  /-- `RDERR`, R326: A read error arrives for an outstanding read. -/
  | rderr (q : RespRef) (cause : Byte)
  /-- `WACK`, R326: A write acknowledgment arrives, making the put line globally complete. -/
  | wack (q : RespRef)
  /-- `MSG`, R325: A message slot arrives at the destination die for deposit. -/
  | msg (id : Nat)
  /-- `FWD`, R219: A forwarded command descriptor arrives at the unit of another die. -/
  | fwd (h : Nat)
  /-- `VOP`, R326: A remote Vertex operation arrives at its unit and is applied at its stamp. -/
  | vop (tag : Nat)
  /-- `VRSP`, R326: A Vertex response arrives and writes the status or value to the issuing register. -/
  | vrsp (tag : Nat)
  /-- `EVT`, R484: An admitted guest event line posts 1 to its configured Vertex object. -/
  | evt (m : ShortHdr) (line : Fin 64)
  /-- `SIGNATURE_RECORD`, R392: A Congruence signature record arrives, and once both records are held the checkpoint is judged. -/
  | signatureRecord (unit : Fin 4) (r : BitVec 512)
  /-- `FAULT_RECORD`, R420: A Meridian takes a fault record and applies the response of its code, forwarding it to the other Meridian. -/
  | faultRecord (hub : Fin 2) (r : BitVec 512)
  /-- `FAULT_RECORD_FORWARD`, R419: A fault record forwarded from the other hub is taken or discarded as a duplicate. -/
  | faultRecordForward (hub : Fin 2) (r : BitVec 512)
  /-- `SCOPE_READY`, R425: A restarting Prism, half or device completes its restore, or CONFIG is entered, and the scope is ready. -/
  | scopeReady (sc : Scope)
  /-- `MERIDIAN_COMPARATOR_FAULT`, R417: A Meridian's comparators disagree, and the hub's reset logic restarts that half. -/
  | meridianComparatorFault (hub : Fin 2)
  /-- `GNOMON_TICK_MISMATCH`, R435: The tick comparator flags a difference between the Gnomons above 16 ns, raising FLT_GNOMON. -/
  | gnomonTickMismatch
  /-- `PLL_LOSS_OF_LOCK`, R32: A PLL loses lock and its die signals a clock fault to the Meridian of its half. -/
  | pllLossOfLock (domain : Fin 40)
  /-- `PWRGD_ASSERT`, R495: PWRGD asserts and the device leaves OFF, starting BOOT. -/
  | pwrgdAssert
  /-- `PWRGD_DEASSERT`, R517: PWRGD deasserts and the device enters OFF at once. -/
  | pwrgdDeassert
  /-- `RSTIN_N_ASSERT`, R569: A low on RSTIN_N starts a whole-device restart and holds the dies in reset. -/
  | rstinNAssert (lowNs : Nat)
  /-- `RSTIN_N_DEASSERT`, R495: RSTIN_N deasserts and the device-restart sequence runs toward CONFIG. -/
  | rstinNDeassert
  /-- `DIE_LEAVES_RESET`, R335: A die's PLLs lock after reset deassertion, its start-up injections run and its links start training. -/
  | dieLeavesReset (seat : Fin 7) (wrong : Nat)
  /-- `FIRMWARE_IMAGE_VERIFY`, R493: The ROM completes reading the flash image and verifies it in order, or enters recovery. -/
  | firmwareImageVerify (hub : Fin 2) (flash : List Byte)
  /-- `HUB_IMAGE_EXCHANGE`, R494: The hubs exchange image identities and rollback counters, halting on a mismatch and levelling counters. -/
  | hubImageExchange
  /-- `STACK_TRAINING_DONE`, R277: A memory controller completes training of its stack and applies post-package repair, or holds the half in BOOT. -/
  | stackTrainingDone (n : Fin 4) (ok coreFault : Bool) (lanes : Nat) (devId : List Byte) (wrong : Bool)
  /-- `TRST_N_ASSERT`, R576: A TRST_N low of at least 1 us resets every TAP. -/
  | trstNAssert (lowNs : Nat)
  /-- `DEBUG_HALT`, R408: The debugger halts the main copy of a task; its checker runs to the checkpoint and is held. -/
  | debugHalt (f : Nat)
  /-- `DEBUG_LOCAL_STORE_WRITE`, R410: A debugger local-store write to a paired main copy is logged and taints the step. -/
  | debugLocalStoreWrite (f addr : Nat) (data : List Byte)
  /-- `REGULATOR_WINDOW`, R293: A 1,024 ns counting window opens: counts reset, new budgets and ranges take effect, and held firewall and core requests resume. -/
  | regulatorWindow
  /-- `PANIC_ENTER`, R289: A real-time master's buffer level crosses its mark, and the master enters panic. -/
  | panicEnter (i : Fin 3) (level : Nat)
  /-- `PANIC_EXIT`, R289: The buffer level crosses back by 10 points, and panic ends. -/
  | panicExit (i : Fin 3) (level : Nat)
  /-- `PANIC_SUSTAINED`, R290: Panic lasting 100 us raises a bandwidth fault and a warning. -/
  | panicSustained (i : Fin 3)
  /-- `MEMCTL_ISSUE`, R282: A pseudo-channel issues the request chosen by the ordered keys. -/
  | memctlIssue (n : Fin 4) (pc : Fin 32)
  /-- `REFRESH`, R285: A bank's refresh falls due and is issued, taking precedence at its last permitted postponement. -/
  | refresh (n : Fin 4) (pc bank : Fin 32)
  /-- `ACT_TABLE_CLEAR`, R288: At the end of a bank's full refresh cycle its activate-count entries are emptied. -/
  | actTableClear (n : Fin 4) (pc bank : Fin 32)
  /-- `ROW_IDLE_CLOSE`, R284: A row kept open is closed after 1,000 ns without access. -/
  | rowIdleClose (n : Fin 4) (pc bank : Fin 32)
  /-- `SCRUB_READ`, R307: A scrubber reads its next line in an idle cycle, correcting or poisoning it and recording the lap. -/
  | scrubRead (st : Store) (found : EccResult) (word : Fin 8)
  /-- `CORRECTIVE_WRITE_BACK`, R307: A corrective write-back is issued, or discarded when a newer write has reached the line. -/
  | correctiveWriteBack (st : Store) (addr : Nat)
  /-- `REMAP_COPY`, R310: A qualifying location is copied into a spare, and later accesses use the spare. -/
  | remapCopy (st : Store) (addr : Nat)
  /-- `SCRUB_LAP_LIMIT`, R309: A lap exceeding its limit sends a Nimbusor warning. -/
  | scrubLapLimit (st : Store)
  /-- `FRAME_START`, R348: A CSI-2 frame start opens a frame in a free context, stamps it and writes the record with done = 0. -/
  | frameStart (port : Fin 16) (vc : Fin 16) (fnum : Nat)
  /-- `LONG_PACKET`, R348: A long packet of a captured stream is written as a line of the slot, or discarded when the buffer is full. -/
  | longPacket (port : Fin 16) (p : LongPacket)
  /-- `LINE_START`, R342: A line-start short packet is accepted and counted. -/
  | lineStart (port : Fin 16) (vc : Fin 16)
  /-- `LINE_END`, R342: A line-end short packet is accepted and counted. -/
  | lineEnd (port : Fin 16) (vc : Fin 16)
  /-- `FRAME_END`, R350: A frame end closes the open frame of its stream. -/
  | frameEnd (port : Fin 16) (vc : Fin 16)
  /-- `FRAME_TIMEOUT`, R350: A frame still open at tfs + tmo closes with the tmo flag. -/
  | frameTimeout (entry : Nat)
  /-- `FRAME_RECORD_FINAL`, R351: Once every line write is globally complete the record is written with done = 1, fseq advances and the notify object is set. -/
  | frameRecordFinal (entry : Nat)
  /-- `ETH_FRAME_RECEIVE`, R479: A frame for the internal port is stamped and placed in the next owned slot of its queue, or dropped. -/
  | ethFrameReceive (hub : Fin 2) (dest src : BitVec 48) (rest : List Byte)
  /-- `TX_QUEUE_SCAN`, R478: A transmit queue scans its ring and sends each device-owned slot on its traffic class. -/
  | txQueueScan (hub : Fin 2) (q : Fin 8)
  /-- `ETH_TX_COMPLETE`, R478: A frame leaves its last port, and the slot's stamps and status are written and own cleared. -/
  | ethTxComplete (hub : Fin 2) (q : Fin 8) (status : Nat)
  /-- `PTP_SYNC`, R475: A gPTP synchronisation updates the mapping from Gnomon time to gPTP time. -/
  | ptpSync (hub : Fin 2) (t0 : Dword) (ratio : Dword)
  /-- `CAN_FRAME_RECEIVE`, R481: A CAN frame is stamped at SOF, filtered into a receive FIFO slot and offered to bridge entries. -/
  | canFrameReceive (c : Fin 12) (fr : CanFrame)
  /-- `CAN_FRAME_TRANSMIT`, R482: A controller sends its owned transmit slot with the lowest identifier and clears own. -/
  | canFrameTransmit (c : Fin 12)
  /-- `BRIDGE_TRANSIT_EXPIRY`, R483: The transit time of an open bridge PDU elapses, and the PDU is sent on the internal port. -/
  | bridgeTransitExpiry (b : Fin 32)
  /-- `POWER_SAMPLE`, R519: Every 100 us die and package power is measured, and die targets and cluster clocks are lowered or raised. -/
  | powerSample (split : List Nat)
  /-- `AVS_STEP`, R514: The hub moves an AVS rail setpoint by one 5 mV step. -/
  | avsStep (rail : Fin 8) (up : Bool)
  /-- `RAIL_READBACK`, R515: Every 100 us the hub reads back each AVS rail. -/
  | railReadback (rail : Fin 8) (r : Option RailReading)
  /-- `RAIL_OUT_OF_TOLERANCE`, R515: A rail off by more than 3 % or faulted for 1 ms raises FLT_THERMAL detail 0x06. -/
  | railOutOfTolerance (rail : Rail)
  /-- `DROOP_DETECT`, R520: A Facet's supply falls 4 % below setpoint and its clock is stretched until recovery. -/
  | droopDetect (f : Nat)
  /-- `TEMP_CONVERSION`, R523: Every 100 us each sensor converts, and thresholds, throttle caps and stack stages are applied. -/
  | tempConversion (rs : List TempReading)
  /-- `SENSOR_PAIR_SUSPECT`, R524: Two sensors of a hot spot differ by more than 6 K for 100 ms and the pair is marked suspect. -/
  | sensorPairSuspect (spot : Nat)
  /-- `SENSOR_PAIR_CLEAR`, R524: A suspect pair agrees within 6 K for 10 s and the mark clears. -/
  | sensorPairClear (spot : Nat)
  /-- `SENSOR_CONVERSION_TIMEOUT`, R525: A sensor completes no conversion for 1 ms and becomes invalid. -/
  | sensorConversionTimeout (spot : Nat) (which : Bool)
  /-- `TRIP_COMPARATOR`, R528: A 125 C analogue trip stops the die's clocks and raises FLT_THERMAL. -/
  | tripComparator (spot : Nat)
  /-- `THERMTRIP_CHECK`, R528: 10 ms after a trip a sensor still at 125 C asserts THERMTRIP_N. -/
  | thermtripCheck (seat : Fin 7)
  /-- `TACH_PULSE`, R534: A falling edge on PUMP_TACH updates the tachometer flow. -/
  | tachPulse
  /-- `RISE_RATE_EVAL`, R536: Every 1 ms the outlet rise rate is evaluated against CL_RISE_LIMIT. -/
  | riseRateEval
  /-- `TACH_ZERO_FLOW`, R536: No tachometer pulse for 200 ms sets the tachometer flow to zero and stops the coolant. -/
  | tachZeroFlow
  /-- `COOLANT_STAGE_CHANGE`, R535: A stage entry condition held 1 s, or cleared 10 s, changes the coolant stage and package limit. -/
  | coolantStageChange
  /-- `TACH_DISAGREE`, R534: Tachometer and thermal flows differ by more than 25 % for 10 s, sending a warning. -/
  | tachDisagree
  /-- `SURVIVAL_EXIT`, R538: Flow and junction conditions held 5 s start a whole-device restart from the survival level. -/
  | survivalExit
  /-- `SURVIVAL_TIMEOUT`, R539: The survival level lasting CL_SURVIVE_S, or a junction at 115 C, holds every die in reset and asserts THERMTRIP_N. -/
  | survivalTimeout
  /-- `ENGINE_COMMAND_COMPLETE`, R217: The owning engine finishes a started command, writes its completion object, marks the slot COMPLETE and sends its report. -/
  | engineCommandComplete (h : Nat) (internalFault : Bool)
  /-- `APPLICATION_CORE_ACCESS`, R278: An application-core load or store reaches hub SRAM or DRAM, faulting on an unmapped or device-owned range or a poisoned line, and is held by its GW_CORE_RATE cap. -/
  | applicationCoreAccess (core : Fin 16) (addr : Nat) (op : CoreOp)
  /-- `WINDOW_CONTROL_READ`, R203: A read of a core window's control word returns it and clears the rc bit ovf. -/
  | windowControlRead (w : WinRef) (core : Fin 8)
  /-- `DROOP_RECOVERY`, R520: A Facet's local supply recovers from a droop, and its clock stops stretching. -/
  | droopRecovery (f : Nat)
  /-- `TCK_RISING_EDGE`, R576: A TCK edge advances the TAPs of the IEEE 1149.1 chain, shifting instructions and data for IDCODE, boundary scan and the RISC-V debug transport modules. -/
  | tckRisingEdge (tms tdi : Bool)
  deriving DecidableEq, Repr

end Sys2Proof
end

