-- ==== Sys2Proof/Decode.lean ====
section
/-! DEFINITION. Reading a command from the table's bits. No row of spec/opcode_table.json gives bits, so no word spells a
command (log entry 6); the encodings of the Facet's own instructions (R57) are read in Machine/Sequencer.lean. -/

namespace Sys2Proof

/-- The command that a word of the table's bits spells. -/
def decodeTableWord (_nbits _w : Nat) : Option Instr := none

end Sys2Proof
end

