-- ==== Sys2Proof/Config.lean ====
section
/-! DEFINITION. What the spec leaves open: free values as constants without a body. No proof can see a value of any of them. -/

namespace Sys2Proof.Config

/-- A byte whose value the spec leaves undefined (R72 after an imprecise cause, R151): log entry 3. -/
opaque freeByte : Nat → Byte

/-- A word whose value the spec leaves undefined: log entry 3. -/
opaque freeWord : Nat → Word

/-- A choice that the spec leaves open (R72, R331: whether an issued line was written; R569: whether a low
between 1 us and 10 us asserts): log entry 3. -/
opaque freeBool : Nat → Bool

/-- A number that the spec leaves to the part (R393 delays, PLL detail words): log entry 3. -/
opaque freeNat : Nat → Nat

/-- What the code finds in the line that a read request of a flit reads, none for nothing (R301, R326): log entry 44. -/
opaque flitFinds : Nat → Option EccResult

/-- What may befall stored or moving data in a nanosecond in which no command comes. -/
inductive Upset where
  /-- An ordinary read of a line finds what its code finds (R301, R303). -/
  | read (st : Store) (line word : Nat) (found : EccResult)
  /-- A word of the accumulator store no longer satisfies its code (R305). -/
  | accumulator (site word : Nat)
  /-- One of the two poison bits of a line changes (R301). -/
  | poisonBit (st : Store) (line : Nat) (second : Bool)
  /-- A tile check fails at a hand-over of a stored line (R313). -/
  | handover (st : Store) (line : Nat)
  /-- A tile check fails in the staging buffer of a transmit port (R358). -/
  | port (p : Fin 4)
  /-- A tile check fails in the output of an Ethernet queue (R313, R478). -/
  | queue (hub : Fin 2) (q : Fin 8)
  /-- One of the two copies of a barrier's counters changes (R189). -/
  | counters (bar : Nat)
  /-- An entry of the fault log reads back uncorrectable (R428). -/
  | faultLog (i : Fin 64)
  deriving DecidableEq, Repr

/-- What befalls the data in a nanosecond, if anything: log entry 155. -/
opaque upset : Nat → Option Upset

/-- The lines that the displays take from the scan-out buffer in a nanosecond (R289, R336): log entry 147. -/
opaque displayTakes : Nat → Nat

/-- A critical-path monitor loses its margin (R514), by the instant, the rail, its voltage in mV, the die and that die's clock in MHz: log entry 171. -/
opaque marginShort : Nat → Nat → Nat → Nat → Nat → Bool

/-- Knaxon's JEP106 identity code of 11 bits (R576): log entry 18. -/
opaque jep106 : Nat

/-- Cells of a die's boundary-scan register, which Knaxon's description file gives (R576), by seat: log entry 18. -/
opaque boundaryCells : Nat → Nat

/-- Bits of a die's `dmi` register, by seat (R576): log entry 18. -/
opaque dmiBits : Nat → Nat

/-- Knaxon's 15-bit MIPI manufacturer identifier (R454): log entry 18. -/
opaque i3cVendor : Nat

/-- The bus and device characteristics that `GETBCR` and `GETDCR` return (R454), which the spec does not state: log entry 18. -/
opaque i3cBcr : Nat

/-- See `i3cBcr`. -/
opaque i3cDcr : Nat

/-- The average per-bank refresh interval of HBM3E in ns at the standard rate (R285): log entry 83. -/
opaque refreshNs : Nat

/-- The refreshes that HBM3E lets a controller postpone (R285): log entry 83. -/
opaque refreshPostpone : Nat

/-- The threshold of the rolling accumulated activation count that a stack reports (R286): log entry 82. -/
opaque raaLimit : Nat

/-- The weights of a reference figure as they stand in the cells (R240, R402), which each Prism's firmware holds: log entry 150. -/
opaque figureWeights : Nat → List (Nat × Nat)

/-- The golden signature of a reference figure (R402), which the firmware holds: log entry 150. -/
opaque figureGolden : Nat → Dword

/-- The lines of a reference figure in the reference area of a Prism's stack (R240, R402), as DRAM offsets: log entry 150. -/
opaque figureArea : Nat → Nat → List Nat

/-- A line of a reference figure as the hub's firmware copy holds it (R402), by figure and place: log entry 150. -/
opaque figureCopy : Nat → Nat → List Byte

/-- The source MAC address of a hub's internal port (R483), which the spec does not give: log entry 17. -/
opaque portMac : Nat → Nat

end Sys2Proof.Config
end

