-- ==== Sys2Proof/Machine/State.lean ====
section
/-! DEFINITION. The state of the block as plain data: every register, table, queue, counter, mode and pin the
spec names, and the queue of waiting commands. A sparse table is a list of (key, value) pairs
with strictly rising keys; the byte stores also list no value equal to what an unlisted address reads as
(Machine/Ops.lean gives the operations). -/

namespace Sys2Proof.Machine

/-- A sparse table keyed by a number. -/
abbrev Tab (α : Type) := List (Nat × α)

/-- Reasons a command stops the block. The spec lets every command run, so no meaning raises one today; the
constructor names the one thing that could stop a run outside the spec. Safe: it only stops. -/
inductive Fault where
  /-- Raised by no command: an internal table of the model is not in its canonical form. Safe. -/
  | brokenTable
  deriving DecidableEq, Repr

/-- Reasons a command has no meaning here. -/
inductive Refusal where
  /-- The arm of exec has no meaning yet. Safe: the model stops where the hardware goes on. -/
  | notModelled (mnemonic : String)
  deriving DecidableEq, Repr

/-- The device states of R4. -/
inductive DevState where
  | off | boot | config | operational | degraded | safe
  deriving DecidableEq, Repr

/-! ## Facets (02, 03) -/

/-- A weight tile in the cells (R60, R84): format, extents, element codes at 64k + n, its scale reference and
the outlier map and rows that were loaded with it. -/
structure Tile where
  fmt    : Nat
  k      : Nat
  n      : Nat
  w      : Tab Nat
  sref   : Nat
  sblk   : Nat
  sfmt   : Nat
  oref   : Nat
  chans  : List Nat
  ow     : Tab Nat
  deriving DecidableEq, Repr

/-- The cause a Facet recorded (R71, R72), with its stamp (R13). -/
structure Cause where
  stamp   : Nat
  code    : Nat
  pc      : Word
  operand : Word
  deriving DecidableEq, Repr

/-- What a Facet's site is doing (R234, R44). -/
inductive Run where
  | idle | running | ended | completed
  deriving DecidableEq, Repr

/-- The step a Facet runs: schedule entry, tick number, copy, attempt, release instant, budget and view. -/
structure Step where
  entry   : Nat
  tick    : Nat
  home    : Nat
  checker : Bool
  paired  : Bool
  replay  : Bool
  trial   : Bool
  release : Nat
  budget  : Nat
  view    : Option Nat
  deriving DecidableEq, Repr

/-- An operation of the mover that is outstanding (R48, R67): its channel, the local footprint it still
writes, and the lines it still waits for. -/
structure MoverOp where
  id    : Nat
  ch    : Nat
  write : Bool
  lo    : Nat
  hi    : Nat
  tags  : List Nat
  pc    : Word
  deriving DecidableEq, Repr

/-- One entry of a step's signal log (R196): operation (1 post, 2 set, 3 arrival), reference, value,
status, whether it took effect, for an arrival whether its round is still open, and the release that its round sent. -/
structure SigEntry where
  op     : Nat
  ref    : Nat
  value  : Nat
  status : Nat
  took   : Bool
  await  : Bool
  body   : Nat
  deriving DecidableEq, Repr

/-- A Facet site and everything it holds. `issued` counts the `vt.` instructions of the step and `vtres` keeps what they returned, none for a refused
`vt.read` (R198); `copies` are a checker's registers that wait for what its main copy's instruction of that number returns. `lsFree` and `accFree` are
the model's own: `some k` after an imprecise cause left a store undefined (R72), when what the table does not list reads as a free value from `k`.
`wb` lists the lines whose corrective write-back is scheduled (R303, R307); `lsPoison` holds the two poison bits of a line (R301). `debugLog` holds a
main copy's debugger writes, and of a checker those it still has to receive (R410); until `reload` the site runs no figure again (R402). `macs` lists
the MACs that the Lattice has done lately, in 8,192ths of a cycle at full rate, with their instants (R415). -/
structure Facet where
  pc       : Word
  x        : List Word
  d        : List (Option (BitVec 256))
  ls       : Tab Byte
  lsPoison : Tab (Bool × Bool)
  lsFree   : Option Nat
  wb       : List Nat
  acc      : Tab Word
  accPoison : Tab Bool
  accFree  : Option Nat
  held     : Tab Word
  tile     : Tile
  idleTile : Tile
  home     : Nat
  sector   : Nat
  placed   : Bool
  ring     : Nat
  prog     : Nat
  timeh    : Word
  nanc     : Nat
  satc     : Nat
  run      : Run
  step     : Option Step
  cause    : Option Cause
  got      : Nat
  put      : Nat
  seqs     : Tab Nat
  waits    : Tab Nat
  ops      : List MoverOp
  log      : List SigEntry
  oldLog   : List SigEntry
  issued   : Nat
  vtres    : Tab (Option Word)
  copies   : Tab Nat
  misr     : Dword
  words    : Nat
  ended    : Nat
  carryTags : List Nat
  halted   : Bool
  checkerHeld : Bool
  debugLog : List (Nat × List Byte)
  figure   : Nat
  reload   : Nat
  finding  : Option Nat
  reserve  : Option (Nat × Nat)
  testNs   : Nat
  testing  : Option (Nat × Nat × Nat)
  copying  : Bool
  macs     : List (Nat × Nat)
  deriving DecidableEq, Repr

/-! ## Placement images (06) -/

/-- A run of local store (R162). -/
structure LsRun where
  volatile : Bool
  addr     : Nat
  bytes    : List Byte
  deriving DecidableEq, Repr

/-- A carry-set declaration (R164): its two buffers, their latched DRAM pages, and its ranges. -/
structure Carry where
  bufa   : Nat
  bufb   : Nat
  pagesA : List Nat
  pagesB : List Nat
  ranges : List (Nat × Nat)
  deriving DecidableEq, Repr

/-- A KV binding (R165). -/
structure KvBind where
  pool : Nat
  tab0 : Nat
  tab1 : Nat
  area : Nat
  deriving DecidableEq, Repr

/-- A slice of a task: its runs, its outlier maps by line, its carry set and which buffer is committed. -/
structure Slice where
  runs   : List LsRun
  maps   : List (Nat × List Byte)
  carry  : Option Carry
  bIsCommitted : Bool
  deriving DecidableEq, Repr

/-- A task of a loaded image (R161), with its slices and its KV binding. -/
structure Task where
  sector : Nat
  home   : Nat
  decl   : BitVec 256
  slices : List Slice
  bind   : Option KvBind
  initial : Bool
  deriving DecidableEq, Repr

/-- The Prism section of an image (R166) and the latched pages of its area. -/
structure PrismSec where
  die   : Nat
  line  : BitVec 512
  pages : List Nat
  deriving DecidableEq, Repr

/-- A loaded image of a sector (R169): its digest, its homes and its Prism sections. -/
structure Image where
  digest : List Byte
  homes  : List Nat
  prisms : List PrismSec
  deriving DecidableEq, Repr

/-! ## KV pools (05) -/

/-- The states of a page (R121). -/
inductive PageSt where
  | free | live | freeing
  deriving DecidableEq, Repr

/-- A page: state, map count and pin count (R121). -/
structure Page where
  st   : PageSt
  maps : Nat
  pins : Nat
  deriving DecidableEq, Repr

/-- A page-table entry (R139), when it last changed and the value that the change superseded (R131). -/
structure PtEntry where
  page    : Option Nat
  changed : Option Nat
  prev    : Option Nat
  deriving DecidableEq, Repr

/-- A sequence (R122): open or closed, since when and what it was before that instant (R125), its page table, its global positions, when those changed
and what the change superseded (R131). -/
structure KvSeq where
  isOpen   : Bool
  since    : Nat
  was      : Bool
  pt       : Tab PtEntry
  globals  : List Nat
  gChanged : Option Nat
  gPrev    : List Nat
  deriving DecidableEq, Repr

/-- A row of a latched batch table with its selection (R124, R127). -/
structure BatchRow where
  seq  : Nat
  klen : Nat
  qlen : Nat
  win  : Nat
  sel  : List Nat
  pages : List (Nat × Nat)
  deriving DecidableEq, Repr

/-- A view held by a step (R125, R128): who holds it, its latch instant, its rows, the pages it pins, and the batch area's address and
contents. -/
structure View where
  id    : Nat
  home  : Nat
  entry : Nat
  tick  : Nat
  latch : Nat
  rows  : List BatchRow
  pins  : List Nat
  area  : Nat
  bytes : List Byte
  deriving DecidableEq, Repr

/-- A held `KV_MAP` or `KV_SEQ` (R130, R131): its handle, `op` (4 for `KV_MAP`), sequence, first entry and list. -/
structure HeldKv where
  handle : Nat
  op     : Nat
  seq    : Nat
  first  : Nat
  items  : List Nat
  deriving DecidableEq, Repr

/-- A pool (R118, R140): when it was created, owner, geometry, plane bases, pages, free stack (pages pushed with their instants, the top first, then
pages never popped from `fresh` up), sequences, held commands (R130), closes and frees that wait for pages, and views. -/
structure Pool where
  since  : Nat
  sector : Nat
  pages  : Nat
  seqs   : Nat
  heads  : Nat
  dim    : Nat
  fmt    : Nat
  sfmt   : Nat
  bases  : List Nat
  caddr  : Nat
  area   : List Nat
  page   : Tab Page
  pushed : List (Nat × Nat)
  fresh  : Nat
  seq    : Tab KvSeq
  held   : List HeldKv
  freeing : List (Nat × List Nat)
  views  : List View
  deriving DecidableEq, Repr

/-! ## Vertex units, barriers and messages (07, 02) -/

/-- The states of an object (R174). -/
inductive ObjSt where
  | free | live | lost
  deriving DecidableEq, Repr

/-- A Vertex object (R172, R174). -/
structure VObj where
  st     : ObjSt
  gen    : Nat
  value  : Word
  owner  : Nat
  sector : Nat
  deriving DecidableEq, Repr

/-- A watch (R181, R183): the record, who registered it (a Facet's home and site, or a handle), and once it is
released the wake it waits to deliver (cause, observed value, stamp). -/
structure Watch where
  id     : Nat
  unit   : Nat
  ref    : Nat
  cond   : Nat
  cmp    : Nat
  cookie : Nat
  dkind  : Nat
  dest   : Nat
  sector : Nat
  site   : Option Nat
  handle : Option Nat
  wake   : Option (Nat × Nat × Nat)
  deriving DecidableEq, Repr

/-- A Vertex operation on its way to the unit of another die, with the pc of its instruction, and its response (R326). -/
structure Vop where
  tag    : Nat
  pc     : Word
  op     : Nat
  key    : Nat
  unit   : Nat
  ref    : Nat
  value  : Nat
  watch  : BitVec 128
  site   : Nat
  rd     : Nat
  home   : Nat
  sector : Nat
  gen    : Nat
  ix     : Nat
  lix    : Nat
  rsp    : Option (Nat × Nat)
  deriving DecidableEq, Repr

/-- A barrier (R189, R191, R194). `gone` lists the participants that stopped after they arrived (R193); `dup` is the second copy of its
root's counters, Facet and other arrivals (R189). -/
structure Barrier where
  live    : Bool
  gen     : Nat
  parts   : List Nat
  nx      : Nat
  round   : Nat
  arrived : List Nat
  gone    : List Nat
  handles : List Nat
  narr    : Nat
  dup     : Nat × Nat
  broken  : Bool
  owner   : Nat
  sector  : Nat
  deriving DecidableEq, Repr

/-- What sent a message: a Facet's `ms.send`, a watch, a handle's report, or a barrier. -/
inductive Origin where
  | send (f : Nat) | watch (id : Nat) | report (h : Nat) | barrier
  deriving DecidableEq, Repr

/-- A message that has not been deposited (R68, R70, R185, R192, R218): the seat of the die that sent it, and of a Facet's the pc of its
`ms.send`. `away` is true until it has arrived at the destination's die (R27). -/
structure Msg where
  id     : Nat
  seat   : Nat
  pc     : Word
  src    : Nat
  dest   : Nat
  cls    : Nat
  len    : Nat
  seq    : Nat
  bytes  : List Byte
  poison : Bool
  away   : Bool
  sector : Nat
  gen    : Nat
  origin : Origin
  deriving DecidableEq, Repr

/-! ## Windows, contexts and handles (08) -/

/-- A post window (R203, R208): its control word, context, serving hub, response FIFO and last handle. -/
structure Window where
  isOpen : Bool
  ovf    : Bool
  sector : Nat
  ctx    : Nat
  hub    : Nat
  fifo   : List (Nat × Word)
  last   : Word
  deriving DecidableEq, Repr

/-- A context (R204). -/
structure Ctx where
  window : WinRef
  sector : Nat
  hub    : Nat
  deriving DecidableEq, Repr

/-- The states of a handle slot (R214). -/
inductive SlotSt where
  | free | inflight | complete
  deriving DecidableEq, Repr

/-- A completion object (R217). -/
structure Completion where
  time   : Nat
  result : Word
  tag    : Word
  status : Nat
  handle : Word
  deriving DecidableEq, Repr

/-- Where a command stands (R219, R220): queued, started, or with its effect done and its status known. -/
inductive CmdSt where
  | none | queued | started | waiting | done (status : Nat) (result : Word)
  deriving DecidableEq, Repr

/-- A slot of the handle table (R213-R215), whether it has ever been allocated (R218), with the command it tracks, the pages latched for its buffers and
the input bytes read at acceptance (R212), with whether a line of them was poisoned. -/
structure Slot where
  st     : SlotSt
  used   : Bool
  gen    : Nat
  kind   : Nat
  sector : Nat
  sgen   : Nat
  ctx    : Nat
  hub    : Nat
  eng    : Engine
  code   : Nat
  body   : BitVec 384
  tag    : Word
  after  : Word
  rep    : Nat
  dkind  : Nat
  dest   : Nat
  stamp  : Nat
  key    : Nat
  order  : Nat
  cmd    : CmdSt
  input  : List Byte
  bad    : Bool
  pages  : List (Nat × Nat)
  fwd    : Bool
  obj    : Completion
  deriving DecidableEq, Repr

/-! ## Schedule (09) -/

/-- An entry of the schedule table (R231) with its present enable state, the handles of pending
`SCH_ENABLE` commands, and the armed occurrence (tick, handle) of a sporadic entry (R242). -/
structure SchEntry where
  raw    : BitVec 256
  en     : Bool
  change : List (Bool × Nat)
  armed  : Option (Nat × Nat)
  deriving DecidableEq, Repr

/-- Where an occurrence stands: due and waiting, released, its stage complete, withheld, shed, its replay ordered or released, concluded
as failed, or committed. -/
inductive OccSt where
  | waiting | released | finished | withheld | shed | replayOrdered | replaying | failed | closed
  deriving DecidableEq, Repr

/-- The outcome of one task's step in an occurrence: completion stamp or cause for each copy, the verdicts of the
main copy's and the checker's Congruence unit (R392), carry writes done, whether a replay was ordered and was accepted
or failed, whether the step is committed, whether the debugger tainted it (R410), the signal log of the main
copy's first attempt (R196), and what the main copy's `vt.` instructions returned (R198). -/
structure TaskOut where
  home    : Nat
  mainEnd : Option Nat
  chkEnd  : Option Nat
  mainCause : Option Cause
  chkCause  : Option Cause
  verdict : Option Bool
  cverdict : Option Bool
  vstamp  : Nat
  carryDone : Bool
  chkCarryDone : Bool
  replay  : Bool
  accepted : Bool
  failed  : Bool
  committed : Bool
  tainted : Bool
  log     : List SigEntry
  vtres   : Tab (Option Word)
  deriving DecidableEq, Repr

/-- An occurrence of a work entry (R234, R238, R241): `first` is the failure of its first attempt, `heldAt` is the boundary that withheld it and
`replayAt` the one that ordered its replay (R399, R429). -/
structure Occ where
  entry  : Nat
  tick   : Nat
  st     : OccSt
  paired : Bool
  due    : Nat
  release : Nat
  handle : Option Nat
  trigger : Option Nat
  tasks  : List TaskOut
  wfault : Bool
  overrun : Bool
  first   : Option (Nat × Word)
  stepFailed : Bool
  attempts : Nat
  heldAt  : Nat
  replayAt : Nat
  deriving DecidableEq, Repr

/-! ## Sectors (10), stores and the memory controllers (11, 12) -/

/-- The states of a sector (R252). -/
inductive SecSt where
  | free | active | resetting
  deriving DecidableEq, Repr

/-- A sector (R258, R265, R274): state, generation, record, its running reset or destroy, and the first tick
in which its entries are released again (R266). -/
structure Sector where
  st      : SecSt
  gen     : Nat
  record  : BitVec 1536
  dirtyOn : Bool
  drain   : Option (Nat × Nat × Bool)
  timedOut : Bool
  resume  : Nat
  deriving DecidableEq, Repr

/-- A line request that a unit of the device has issued (R281, R326): who waits for it, where it goes, what it
writes, for a read the half-byte pairs (local, in the line) it fills, its tag fields (R265), and how far it has come. -/
structure LineReq where
  tag     : Nat
  write   : Bool
  site    : Nat
  op      : Nat
  ch      : Nat
  off     : Nat
  data    : List Byte
  mask    : Dword
  poison  : Bool
  ls      : List (Nat × Nat)
  master  : Nat
  die     : Nat
  carry   : Bool
  sector  : Nat
  gen     : Nat
  accepted : Bool
  deriving DecidableEq, Repr

/-- A request in a pseudo-channel queue (R280, R282). -/
structure QReq where
  no     : Nat
  off    : Nat
  write  : Bool
  master : Nat
  cls    : Nat
  source : Nat
  time   : Nat
  deriving DecidableEq, Repr

/-- Lines of a unit's own command that wait at a controller's ingress (R280): the next of them, how many, and whose. -/
structure Ingress where
  off    : Nat
  n      : Nat
  write  : Bool
  master : Nat
  source : Nat
  deriving DecidableEq, Repr

/-- A bank (R284-R288): open row, lines served and last access, history, hits in a row, activate-count table and when it was last
emptied, rolling activation count, refreshes issued since then, the instant up to which its refreshes have been issued, and the table as it stood
before it was last emptied (R288's tie). -/
structure Bank where
  row    : Option Nat
  served : Nat
  last   : Nat
  hist   : Nat
  hits   : Nat
  acts   : List (Nat × Nat)
  raa    : Nat
  refreshes : Nat
  cleared : Nat
  refAt  : Nat
  before : List (Nat × Nat)
  deriving DecidableEq, Repr

/-- A panic input (R289): the bytes that its buffer held last, whether in panic and since when, and whether 100 us were reported. -/
structure Panic where
  level : Nat
  on    : Bool
  since : Nat
  told  : Bool
  deriving DecidableEq, Repr

/-- A scrubber (R307-R310): next line, start of its lap, its lap number, its last read and the time of its last completed lap; the lines past it that
this lap has read already, the locations corrected lately with the lap of each correction, write-backs scheduled (a local store's stand with its
Facet), locations remapped, and those that qualify. -/
structure Scrub where
  next   : Nat
  ahead  : List Nat
  start  : Nat
  lap    : Nat
  last   : Option Nat
  took   : Nat
  recent : List (Nat × Nat)
  wb     : List Nat
  remaps : List Nat
  qualify : List Nat
  told   : Bool
  deriving DecidableEq, Repr

/-! ## Chord links and the firewall (13) -/

/-- What one slot of a flit, or one short transaction of it, carries (R325, R326): its channel, the seat of its originator, whether it is a line
slot, its bits, whether the slot around it breaks the layout, and whether the slot's buffer is free after it. -/
structure LinkUnit where
  vc   : Nat
  seat : Nat
  line : Bool
  bits : Nat
  bad  : Bool
  last : Bool
  deriving DecidableEq, Repr

/-- One direction of a link (R324, R327, R329): the sender's next sequence, the flits it keeps until they are acknowledged (the slots of each; none of
one that has only arrived damaged), the sequences that it has yet to resend, its credits and last progress; the receiver's expected sequence, when its
outstanding `nak` was sent, whether nothing has arrived since, failures in a row, and whether its next flit back carries a `nak`; the slots that its
buffers hold, and the credits that it has yet to return (R327). -/
structure LinkDir where
  next    : Nat
  unacked : List (Nat × List Byte)
  replay  : List Nat
  credits : List Nat
  ackAt   : Nat
  expect  : Nat
  nak     : Option Nat
  fresh   : Bool
  fails   : Nat
  sendNak : Bool
  buffer  : List LinkUnit
  freed   : List Nat
  deriving DecidableEq, Repr

/-- A link (R323, R330, R332): up or down, the retries counted in one retry window, and whether it has yet to train since an end of it
left reset. -/
structure Link where
  up      : Bool
  due     : Bool
  window  : Nat
  retries : Nat
  deriving DecidableEq, Repr

/-- A guest request that waits for its rate (R339): the line, whether it is a write, its byte mask where it has one, what the code finds when it is
read, and whether the tile check of its data held. -/
structure GuestWait where
  line   : GuestLine
  write  : Bool
  mask   : Option Nat
  found  : EccResult
  tileOk : Bool
  deriving DecidableEq, Repr

/-- A frame of a switch that waits for the gate of its class on a port (R476, R478), with the transmit queue that sent it. -/
structure Leaving where
  hub   : Nat
  port  : Nat
  cls   : Nat
  queue : Option Nat
  frame : List Byte
  deriving DecidableEq, Repr

/-- What the block sends to what lies outside it: an Ethernet frame, a CSI-2 frame, a CAN frame, an MSI to a core's interrupt file, an Axbel datagram
with its ports and address (R457), a Hot-Join request (R454), the answers of a request of the guest die or of an application core (R278, R326), the
exception of a CSR access (R254), the value of a window read (R203, R208), what an I3C target sends its controller (R454-R456), and what a debug
module answers: that its hart is unavailable (R408), or an abstract-command error (R410); and the status of a dictionary write that a command of the
table makes (R445). -/
inductive Output where
  | eth (hub port cls : Nat) (frame : List Byte)
  | csi (port vc dt fnum : Nat) (lines : List (List Byte)) (envDt : Nat) (envelope : List Byte)
  | can (c : Nat) (fr : CanFrame)
  | msi (hub core file eiid : Nat)
  | udp (hub sport addr port : Nat) (datagram : List Byte)
  | hotJoin (hub : Nat)
  | guestLine (tag : Nat) (data : List Byte) (poison : Bool)
  | guestErr (tag cause : Nat)
  | guestAck (tag : Nat)
  | coreData (core : Nat) (data : List Byte)
  | coreFault (core : Nat) (hardware : Bool)
  | coreTrap (core : Nat) (virtual : Bool)
  | windowWord (w : WinRef) (value : Nat)
  | i3c (hub : Nat) (bytes : List Byte)
  | debugUnavailable (site : Nat)
  | debugError (site : Nat)
  | entryStatus (index sub status : Nat)
  deriving DecidableEq, Repr

/-- The guest firewall (R336-R341): lines admitted in this counting window for each function, the rejections of a tick, whether the guest
stays in reset, the limits in force (R37), the requests that wait, and the scan-out buffer. -/
structure Firewall where
  display : Nat
  codec  : Nat
  tick   : Nat
  rejects : Nat
  held   : Bool
  limits : Nat
  waiting : List GuestWait
  scanOut : List Output
  deriving DecidableEq, Repr

/-! ## Streams (14) and fusion (15) -/

/-- A frame of a stream entry, open or waiting for its final record (R348-R352): the entry as it was at its start with its latched pages,
its start stamp, stream count, frame number, lines that arrived and lines written, lines with a bad CRC and the first of them, the flags of its
record, its close stamp, and whether its entry has been enabled anew since. -/
structure Frame where
  raw   : Nat
  pages : List Nat
  tfs   : Nat
  fseq  : Nat
  fnum  : Nat
  line  : Nat
  wrote : Nat
  ncrc  : Nat
  fbad  : Nat
  flags : Nat
  tfe   : Nat
  old   : Bool
  deriving DecidableEq, Repr

/-- A line in a hub's receive write buffer (R354): its hub, stream entry, the start stamp of its frame, DRAM offset and bytes. -/
structure InLine where
  hub   : Nat
  entry : Nat
  tfs   : Nat
  off   : Nat
  data  : List Byte
  deriving DecidableEq, Repr

/-- A sensor of a binding (R365, R366, R372): kind, parameters, reference parameters, rotation, its flag and
its remaining out-time. -/
structure Sensor where
  lidar : Bool
  p     : List Word
  ref   : List Word
  rot   : List Word
  cinv  : Bool
  out   : Nat
  deriving DecidableEq, Repr

/-- An open instant of a binding (R377, R378). -/
structure Instant where
  b      : Nat
  i      : Nat
  oldest : Option Nat
  nlate  : Nat
  used   : Nat
  deriving DecidableEq, Repr

/-- The accumulation buffer of a Plane engine (R367, R370), and the sensor of its command as it was when that started, none for one that was not
admitted (R368, R371). -/
structure PeBuf where
  ctx   : Option Nat
  start : Option Sensor
  voxel : Bool
  nc    : Nat
  nz    : Nat
  ofmt  : Nat
  words : Tab Word
  deriving DecidableEq, Repr

/-! ## Pairing (16) and the Meridians (17) -/

/-- Suspect finding ordered for one task of an occurrence (R395): sites, log record, and each outcome. -/
structure Finding where
  entry : Nat
  tick  : Nat
  home  : Nat
  logIx : Nat
  stamp : Nat
  msite : Nat
  csite : Nat
  mpass : Option Bool
  cpass : Option Bool
  deriving DecidableEq, Repr

/-- Where a join stands (R406). -/
inductive Join where
  | none | copying (since : Nat) | trial (tick : Nat) | abandon (home tick : Nat)
  deriving DecidableEq, Repr

/-- A scope of `MER_SCOPE` (R423, R441): 0 running, 1 in SAFE, 2 retired, 3 held; when its restart was stamped
and whether it is ready to rejoin. -/
structure ScopeSt where
  st    : Nat
  since : Nat
  ready : Bool
  deriving DecidableEq, Repr

/-! ## Axbel, Nimbusor, gateway (18, 19) -/

/-- A session of a front end (R452), with its number on its hub, 0 that of the I3C target (R446): retained responses and requests still being
executed. -/
structure Session where
  hub   : Nat
  number : Nat
  udp   : Option (Nat × Nat × Nat)
  kept  : List (Nat × List Byte × List Byte)
  busy  : List (Nat × List Byte × Nat)
  used  : Nat
  unread : List (List Byte)
  deriving DecidableEq, Repr

/-- An in-band interrupt that waits (R456): mandatory byte, following bytes and the handle it reports. -/
structure Ibi where
  mdb    : Nat
  bytes  : List Byte
  handle : Option Nat
  deriving DecidableEq, Repr

/-- A countersigned write (R448, R449): its entry and value, its stamp, the session that asked on its hub, the receipts of the two
Meridians, and when it became pending. -/
structure TwoK where
  id      : Nat
  hub     : Nat
  index   : Nat
  sub     : Nat
  value   : Nat
  stamp   : Nat
  session : Option (Option (Nat × Nat × Nat))
  seq     : Nat
  signW   : Option Bool
  signE   : Option Bool
  pending : Option Nat
  status  : Nat
  deriving DecidableEq, Repr

/-- The I3C target of a hub (R454). -/
structure I3c where
  addr   : Nat
  maxRead : Nat
  maxWrite : Nat
  maxIbi : Nat
  events : Nat
  hdr    : Bool
  rstAction : Nat
  hotJoin : Bool
  deriving DecidableEq, Repr

/-- A record ring (R463): its records newest last, when each was last pushed (R464), next sequence, first unacknowledged sequence, and
whether the next record carries `gap`. -/
structure Ring where
  recs  : List (Nat × BitVec 512)
  pushed : Tab Nat
  next  : Nat
  first : Nat
  gap   : Bool
  full  : Bool
  deriving DecidableEq, Repr

/-- An open bridge PDU (R483): when it was opened and its ACF messages. -/
structure Pdu where
  opened : Nat
  frames : List (Nat × Nat × CanFrame)
  deriving DecidableEq, Repr

/-! ## Boot (20), power, thermal and coolant (21), test port (23) -/

/-- A hub's boot state and fuses (R492, R509). `flash` is what the block has written to the hub's flash, none while that holds what it was shipped with;
`writing` is the handle of the update that is writing it (R500). -/
structure HubBoot where
  phase    : Nat
  status   : Nat
  hashes   : List (List Byte)
  revoked  : Nat
  rollback : Nat
  seed     : List Byte
  recKey   : Option (List Byte)
  svn      : Nat
  slot     : Nat
  image    : Option (List Byte)
  placeKey : Option (List Byte × Bool)
  recovery : Tab Byte
  flash    : Option (List Byte)
  writing  : Option Nat
  deriving DecidableEq, Repr

/-- An Axbel key slot (R505, R458). -/
structure KeySlot where
  installed : Bool
  gen   : Nat
  mask  : Nat
  key   : List Byte
  salt  : List Byte
  tx    : Nat
  high  : Nat
  seen  : List Nat
  deriving DecidableEq, Repr

/-- The power control of a die (R518, R519): target or cluster clock, its recent powers newest first, since when
the limiter holds it below its maximum, whether a limiter, hot spot or stack stage has lowered it, and whether the fleet was told. -/
structure DiePower where
  clock  : Nat
  recent : List Nat
  limited : Option Nat
  lowered : Bool
  told   : Bool
  deriving DecidableEq, Repr

/-- A hot spot (R523-R528): the two sensors' last readings, their validity, the pair's mark and since when it
differs or agrees, and the trip. -/
structure Spot where
  a      : Int
  b      : Int
  aAt    : Nat
  bAt    : Nat
  aBad   : Bool
  bBad   : Bool
  suspect : Bool
  differ : Option Nat
  agree  : Option Nat
  warned : Option Nat
  warm   : Bool
  hot    : Bool
  deriving DecidableEq, Repr

/-- The coolant loop (R534-R539). -/
structure Coolant where
  lastPulse : Option Nat
  interval  : Nat
  history   : List (Nat × Int × Int)
  cond      : List (Bool × Nat)
  inForce   : List Bool
  disagree  : Option Nat
  survival  : Option Nat
  okSince   : Option Nat
  deriving DecidableEq, Repr

/-- The states of an IEEE 1149.1 TAP (R576). -/
inductive TapSt where
  | reset | idle | selDr | capDr | shDr | ex1Dr | pauDr | ex2Dr | updDr
  | selIr | capIr | shIr | ex1Ir | pauIr | ex2Ir | updIr
  deriving DecidableEq, Repr

/-- The chain of six TAPs (R576): its common state, the instruction in force and the instruction and data
shift registers, bit 0 nearest `TDO`. -/
structure Taps where
  st    : TapSt
  ir    : List Nat
  irSh  : List Bool
  drSh  : List Bool
  tdo   : Bool
  deriving DecidableEq, Repr

/-! ## The parts of the state, by chapter -/

/-- Device state, pins, reset wires and restarts (00, 01, 17, 23), with what the fuse blocks of the dies hold: `seat` and `fchk` of each, the
package's `serial` and Hub E's `gid` (R321), and the instant at which the reset wire of a Prism or the guest last went low (R335). -/
structure Dev where
  st       : DevState
  pwrgd    : Bool
  rstin    : Bool
  thermtrip : Bool
  msafe    : List Bool
  mhb      : List Bool
  prst     : List Bool
  mrst     : List Bool
  grst     : Bool
  pflt     : List Bool
  pll      : Nat
  degrading : List Nat
  merFault : List (Option Nat)
  scopes   : List ScopeSt
  kxpid    : List Nat
  seats    : List Nat
  fchk     : List Nat
  serial   : Nat
  gid      : Nat
  lowAt    : Tab Nat
  traces   : List (BitVec 128)
  deriving DecidableEq, Repr

/-- Facets, placement and images (02, 06); `switching` holds the slice that a Prism switches to and `switchFrom` the tick in which the switch began. -/
structure Work where
  facets : Tab Facet
  site   : Tab Nat
  standby : List Nat
  tasks  : Tab Task
  images : Tab Image
  slice  : Tab Nat
  switching : Tab Nat
  switchFrom : Tab Nat
  rotated : Tab Nat
  deriving DecidableEq, Repr

/-- Vertex units, barriers and messages (07): with the stamp of the last operation that each unit applied and its source key
plus one, 0 for a teardown (R179, R186), and the
counts of device-originated messages by destination and class (R68). -/
structure Sync where
  objs    : Tab VObj
  watches : List Watch
  vops    : List Vop
  bars    : Tab Barrier
  msgs    : List Msg
  order   : Tab (Nat × Nat)
  devSeqs : Tab Nat
  deriving DecidableEq, Repr

/-- Windows, contexts, handles (08), and the started commands of contexts torn down whose effects still stand, by handle (R224). -/
structure Cmds where
  windows : Tab Window
  ctxs    : Tab Ctx
  slots   : Tab Slot
  lastSlot : Tab Nat
  torn    : List (Nat × Slot)
  deriving DecidableEq, Repr

/-- The schedule (09): its entries, the open occurrences, the first tick in which entries are released (R230), how many tick
windows have run steps 1-4 of R38 and how many all of it, the site that each die's last self-test release began with (R246), and the armed triggers
whose entries have left the table: entry, tick, due time and handle (R242). -/
structure Sched where
  entries : Tab SchEntry
  occs    : List Occ
  first   : Option Nat
  closed  : Nat
  tick    : Nat
  testStart : Tab Nat
  orphans  : List (Nat × Nat × Nat × Nat)
  deriving DecidableEq, Repr

/-- Stores, line requests, memory controllers and integrity (11, 12): with the training instant of each stack, its count of on-die severity reports
(R302), the lines at the controllers' ingress, the last scrub read of each pseudo-channel (R308), the counting window last opened, and the sector
shares and core caps in force (R37). A held access of a core stands with how many of its lines have been issued (R469). -/
structure Stores where
  dram     : List Host.Cell
  dramPoison : Tab Bool
  sram     : List Host.Cell
  sramPoison : Tab (Bool × Bool)
  dirty    : Tab Bool
  reqs     : List LineReq
  queues   : Tab (List QReq)
  ingress  : List Ingress
  banks    : Tab Bank
  counts   : Tab Nat
  masters  : Tab Nat
  coreLines : Tab Nat
  coreHeld : List (Nat × Nat × CoreOp × Nat)
  panics   : List Panic
  scrubs   : Tab Scrub
  scrubbed : Tab Nat
  repair   : Tab (List Nat)
  ranges   : List (BitVec 128)
  returned : List (Nat × List Byte × Bool)
  trained  : Tab Nat
  severity : Tab Nat
  window   : Option Nat
  bw       : Tab Nat
  coreCaps : Tab Nat
  deriving DecidableEq, Repr

/-- Chord links and the firewall (13). -/
structure Chord where
  links  : Tab Link
  dirs   : Tab LinkDir
  masks  : Tab Nat
  fw     : Firewall
  deriving DecidableEq, Repr

/-- Streams (14), with the transmit ports as they have trained (R343), and fusion (15). -/
structure Sense where
  frames   : Tab Frame
  closing  : List (Nat × Frame)
  stopping : List Nat
  ringPages : Tab (List Nat)
  inbuf    : List InLine
  shorts   : Tab Nat
  txPorts  : Tab Nat
  sensors  : Tab Sensor
  instants : List Instant
  released : List (Nat × Nat)
  pe       : Tab PeBuf
  fusPages : Tab (List Nat)
  deriving DecidableEq, Repr

/-- Pairing (16) and the Meridians (17), with the last integrity event of each half: store, address and stamp (R303), and the
Prisms that restart for a memory-controller fault, with its stamp (R420). -/
structure Safety where
  join     : Join
  records  : List (Nat × BitVec 512)
  findings : List Finding
  spares   : List Nat
  faults   : List (BitVec 512)
  taken    : List (Nat × BitVec 512)
  lapStart : Tab Nat
  covered  : Tab Bool
  mode     : Option Nat
  hold     : List Nat
  intEvents : Tab (Nat × Nat × Nat)
  memctl   : Tab Nat
  deriving DecidableEq, Repr

/-- The dictionary, Axbel, Nimbusor and the gateway (18, 19). `staged` names the transmit command of a port, and the slot of an Ethernet queue from
place 4 on, whose record failed its tile check in its engine (R313, R358); `txBusy` holds the slot that a transmit queue is sending, and whether it
sends it with an error (R477), `leaving` the frames that wait for a gate, `meters` the two buckets of each flow meter and when they were filled
(R474), `frer` the number of each sequence function, its history and when it last accepted a frame, `bridgeSeq` the sequence numbers of the bridges'
streams (R483), and `imsic` the pending identities of each interrupt file as a bit set (R468); `lastReq` is the last request applied: stamp, hub and
session (R446). -/
structure Front where
  num      : Tab Nat
  oct      : Tab (List Byte)
  sessions : List Session
  twoK     : List TwoK
  ibis     : List (List Ibi)
  i3c      : List I3c
  rings    : List Ring
  telemetry : Nat
  wlog     : Tab Nat
  gates    : Tab (List Byte × Option (List Byte × Nat))
  envSeq   : Tab Nat
  txAt     : Tab Nat
  rxAt     : Tab Nat
  txBusy   : Tab (Nat × Bool)
  leaving  : List Leaving
  meters   : Tab (Nat × Nat × Nat)
  frer     : Tab (Nat × Nat × Nat)
  bridgeSeq : Tab Nat
  imsic    : Tab Nat
  staged   : Tab Nat
  canSeq   : Tab Nat
  pdus     : Tab Pdu
  guestEvts : Tab Nat
  authTold : Nat
  lastReq  : Nat × Nat × Nat
  out      : List Output
  deriving DecidableEq, Repr

/-- Boot, power, thermal, coolant and the test port (20, 21, 23). -/
structure Plant where
  hubs    : List HubBoot
  keys    : Tab KeySlot
  power   : Tab DiePower
  setpoint : List Nat
  railBad : Tab Nat
  caps    : Tab Nat
  droop   : Tab Bool
  spots   : Tab Spot
  trips   : Tab Nat
  held    : Tab Bool
  coolant : Coolant
  gated   : Bool
  last    : Tab Nat
  taps    : Taps
  deriving DecidableEq, Repr

/-- The state of the block. `now` is Gnomon time in ns (R36, R544), `id` the next number for a tag, message,
watch, context or view, and `free` the model's own counter for values the spec leaves open. -/
structure State where
  pending : List Instr
  now     : Nat
  id      : Nat
  free    : Nat
  dev     : Dev
  work    : Work
  kv      : Tab Pool
  sync    : Sync
  cmds    : Cmds
  sched   : Sched
  sectors : Tab Sector
  mem     : Stores
  chord   : Chord
  sense   : Sense
  safety  : Safety
  host    : Front
  plant   : Plant
  deriving DecidableEq, Repr

/-! ## Reset: no supply (R4, R5), everything at the value the spec gives for leaving OFF -/

/-- A weight tile of zeros (R43). -/
def Tile.zero : Tile :=
  { fmt := 1, k := 0, n := 0, w := [], sref := 65535, sblk := 0, sfmt := 0, oref := 65535,
    chans := [], ow := [] }

/-- A Facet site that runs nothing and holds nothing (R43, R45). Log entry 131 (DESIGN CHOICE). -/
def Facet.empty : Facet :=
  { pc := 0, x := List.replicate 32 0, d := List.replicate 16 none, ls := [], lsPoison := [], lsFree := none, wb := [], acc := [],
    accPoison := [], accFree := none, held := [], tile := Tile.zero, idleTile := Tile.zero, home := 0, sector := 0,
    placed := false, ring := 0, prog := 0, timeh := 0, nanc := 0, satc := 0, run := .idle, step := none,
    cause := none, got := 0, put := 0, seqs := [], waits := [], ops := [], log := [], oldLog := [],
    issued := 0, vtres := [], copies := [], misr := BitVec.allOnes 64, words := 0, ended := 0, carryTags := [], halted := false,
    checkerHeld := false, debugLog := [], figure := 0, reload := 0, finding := none, reserve := none, testNs := 0,
    testing := none, copying := false, macs := [] }

/-- The default standby set of every Prism (R23), as site identifiers. -/
def defaultStandby : List Nat :=
  (List.range 4).flatMap fun d => [0, 10, 20, 30, 40, 50, 60, 70].map (128 * d + ·)

/-- A hub out of power. Log entry 12 names the fused values. -/
def HubBoot.fresh : HubBoot :=
  { phase := 0, status := 0, hashes := [List.replicate 32 1, List.replicate 32 2, List.replicate 32 0, List.replicate 32 0],
    revoked := 0, rollback := 0, seed := List.replicate 32 0, recKey := none, svn := 0, slot := 0, image := none,
    placeKey := none, recovery := [], flash := none, writing := none }

/-- The coolant loop before any pulse or reading. -/
def Coolant.fresh : Coolant :=
  { lastPulse := none, interval := 0, history := [], cond := List.replicate 3 (false, 0), inForce := List.replicate 3 false,
    disagree := none, survival := none, okSince := none }

/-- An I3C target without a dynamic address (R454); the lengths are those R455 and R456 ask the host for. Log entry 132 (DESIGN CHOICE). -/
def I3c.fresh : I3c :=
  { addr := 0, maxRead := 1040, maxWrite := 1040, maxIbi := 7, events := 0, hdr := false, rstAction := 0, hotJoin := false }

/-- An empty record ring (R463). -/
def Ring.fresh : Ring := { recs := [], pushed := [], next := 0, first := 0, gap := false, full := false }

/-- The empty accumulation of every part: the device is OFF, and no part retains state (R4). Log entries 12 (DESIGN CHOICE), 133 (DESIGN CHOICE). -/
def State.reset : State :=
  { pending := [], now := 0, id := 1, free := 0,
    dev := { st := .off, pwrgd := false, rstin := true, thermtrip := false, msafe := [true, true], mhb := [false, false],
             prst := List.replicate 4 true, mrst := List.replicate 4 true, grst := true,
             pflt := List.replicate 4 false, pll := 0, degrading := [], merFault := [none, none],
             scopes := List.replicate 6 { st := 0, since := 0, ready := false }, kxpid := List.replicate 16 0,
             seats := [0, 1, 2, 3, 4, 5, 6],
             fchk := [0xB07C9714, 0xF940EA33, 0x22046D5A, 0x6B38107D, 0x91611579, 0x0518C2E6], serial := 1, gid := 1, lowAt := [], traces := List.replicate 6 0 },
    work := { facets := [], site := [], standby := defaultStandby, tasks := [], images := [], slice := [],
              switching := [], switchFrom := [], rotated := [] },
    kv := [],
    sync := { objs := [], watches := [], vops := [], bars := [], msgs := [], order := [], devSeqs := [] },
    cmds := { windows := [], ctxs := [], slots := [], lastSlot := [], torn := [] },
    sched := { entries := [], occs := [], first := none, closed := 0, tick := 0, testStart := [], orphans := [] },
    sectors := [],
    mem := { dram := [], dramPoison := [], sram := [], sramPoison := [], dirty := [], reqs := [], queues := [], ingress := [],
             banks := [], counts := [], masters := [], coreLines := [], coreHeld := [],
             panics := List.replicate 3 { level := 0, on := false, since := 0, told := false }, scrubs := [], scrubbed := [],
             repair := [], ranges := List.replicate 16 0, returned := [], trained := [], severity := [],
             window := none, bw := [], coreCaps := [] },
    chord := { links := [], dirs := [], masks := [],
               fw := { display := 0, codec := 0, tick := 0, rejects := 0, held := false, limits := 0x400080, waiting := [], scanOut := [] } },
    sense := { frames := [], closing := [], stopping := [], ringPages := [], inbuf := [], shorts := [], txPorts := [], sensors := [], instants := [], released := [],
               pe := [], fusPages := [] },
    safety := { join := .none, records := [], findings := [], spares := [], faults := [], taken := [],
                lapStart := [], covered := [], mode := none, hold := [], intEvents := [], memctl := [] },
    host := { num := [], oct := [], sessions := [], twoK := [], ibis := [[], []], i3c := [I3c.fresh, I3c.fresh],
              rings := [Ring.fresh, Ring.fresh], telemetry := 0, wlog := [], gates := [], envSeq := [], txAt := [],
              rxAt := [], txBusy := [], leaving := [], meters := [], frer := [], bridgeSeq := [], imsic := [], staged := [], canSeq := [], pdus := [], guestEvts := [], authTold := 0, lastReq := (0, 0, 0), out := [] },
    plant := { hubs := [HubBoot.fresh, HubBoot.fresh], keys := [], power := [],
               setpoint := [750, 750, 800, 800, 750, 750, 800, 800], railBad := [], caps := [], droop := [],
               spots := [], trips := [], held := [], coolant := Coolant.fresh, gated := false, last := [],
               taps := { st := .reset, ir := List.replicate 6 1, irSh := [], drSh := [], tdo := false } } }

end Sys2Proof.Machine
end

