-- ==== Sys2Proof/Machine/Ops.lean ====
section
/-! DEFINITION. The named operations every meaning is built from: sparse tables, bytes and bit fields, the
byte stores in their canonical form, dictionary values, ticks and small updates of the state. -/

namespace Sys2Proof.Machine

/-- What every command that the block carries out answers. -/
abbrev Res := Host.Outcome State Fault Refusal

/-- The answer of a command that leaves the machine in state `s`. -/
def ok (s : State) : Res := .next s

/-! ## Sparse tables -/

/-- The value at key `k`, or `d` where the table lists none. -/
def tget {α : Type} (t : Tab α) (k : Nat) (d : α) : α :=
  match t with
  | [] => d
  | (j, v) :: r => if j = k then v else tget r k d

/-- The value at key `k`, if the table lists one. -/
def tfind {α : Type} (t : Tab α) (k : Nat) : Option α :=
  match t with
  | [] => none
  | (j, v) :: r => if j = k then some v else tfind r k

/-- The table with value `v` at key `k`; keys stay in rising order. -/
def tput {α : Type} (t : Tab α) (k : Nat) (v : α) : Tab α :=
  match t with
  | [] => [(k, v)]
  | (j, w) :: r => if k < j then (k, v) :: (j, w) :: r else if k = j then (k, v) :: r else (j, w) :: tput r k v

/-- The table without key `k`. -/
def tdel {α : Type} (t : Tab α) (k : Nat) : Tab α :=
  match t with
  | [] => []
  | (j, w) :: r => if j = k then tdel r k else (j, w) :: tdel r k

/-- The table with value `v` at key `k` in the form that lists no default `d`. -/
def tset {α : Type} [DecidableEq α] (t : Tab α) (k : Nat) (v d : α) : Tab α :=
  if v = d then tdel t k else tput t k v

/-- Every listed value changed by `g`. -/
def tmap {α : Type} (g : Nat → α → α) (t : Tab α) : Tab α := t.map fun p => (p.1, g p.1 p.2)

/-- A poison bit that is held twice reads as set where its two copies disagree (R301). -/
def twinBad (p : Bool × Bool) : Bool := p.1 || p.2

/-- The keys of a table rise strictly. -/
def sorted {α : Type} : Tab α → Bool
  | [] => true
  | [_] => true
  | (j, _) :: (k, w) :: r => decide (j < k) && sorted ((k, w) :: r)

/-! ## Lists by index -/

/-- Entry `i` of a list, or `d` past its end. -/
def lget {α : Type} (l : List α) (i : Nat) (d : α) : α := (l[i]?).getD d

/-- The list with entry `i` changed by `g`; unchanged past its end. -/
def lmod {α : Type} (l : List α) (i : Nat) (g : α → α) : List α :=
  match l, i with
  | [], _ => []
  | x :: r, 0 => g x :: r
  | x :: r, i + 1 => x :: lmod r i g

/-- The list with entry `i` set to `v`; unchanged past its end. -/
def lset {α : Type} (l : List α) (i : Nat) (v : α) : List α := lmod l i fun _ => v

/-- Position of the first entry that satisfies `p`. -/
def lfind {α : Type} (p : α → Bool) : List α → Option Nat
  | [] => none
  | x :: r => if p x then some 0 else (lfind p r).map (· + 1)

/-- The sum of `g` over a list. -/
def lsum {α : Type} (g : α → Nat) (l : List α) : Nat := l.foldl (fun a x => a + g x) 0

/-- The least of a list of numbers, or none. -/
def lmin : List Nat → Option Nat
  | [] => none
  | x :: r => match lmin r with
    | none => some x
    | some y => some (Nat.min x y)

/-- The greatest of a list of numbers, zero when it is empty. -/
def lmax (l : List Nat) : Nat := l.foldl Nat.max 0

/-- `n` insertions sort a list by `key`, keeping the order of equals. -/
def insertBy {α : Type} (key : α → Nat) (x : α) : List α → List α
  | [] => [x]
  | y :: r => if key y ≤ key x then y :: insertBy key x r else x :: y :: r

/-- The list in ascending order of `key`, equals in their first order. -/
def sortBy {α : Type} (key : α → Nat) (l : List α) : List α := l.foldl (fun acc x => insertBy key x acc) []

/-! ## Bits and bytes (R10) -/

/-- Bits `lo` to `lo + len - 1` of a number. -/
def nbits (n lo len : Nat) : Nat := (n >>> lo) % 2 ^ len

/-- Bits `lo` to `lo + len - 1` of a bit vector. -/
def fld {w : Nat} (b : BitVec w) (lo len : Nat) : Nat := nbits b.toNat lo len

/-- Bit `i` of a number. -/
def nbit (n i : Nat) : Bool := n.testBit i

/-- One for true. -/
def b2n (b : Bool) : Nat := if b then 1 else 0

/-- A number read as a two's complement value of `w` bits. -/
def sgn (w n : Nat) : Int := if n % 2 ^ w < 2 ^ (w - 1) then (n % 2 ^ w : Nat) else ((n % 2 ^ w : Nat) : Int) - (2 ^ w : Nat)

/-- The low `w` bits of an integer. -/
def lowBits (w : Nat) (v : Int) : Nat := (v % ((2 ^ w : Nat) : Int)).toNat

/-- A word from fields given as (lowest bit, width, value). -/
def pack (fs : List (Nat × Nat × Nat)) : Nat := fs.foldl (fun a f => a + ((f.2.2 % 2 ^ f.2.1) <<< f.1)) 0

/-- `n` bytes of a number, lowest first. -/
def toBytes : Nat → Nat → List Byte
  | 0, _ => []
  | n + 1, v => BitVec.ofNat 8 v :: toBytes n (v / 256)

/-- The number that bytes spell, lowest first. -/
def ofBytes : List Byte → Nat
  | [] => 0
  | b :: r => b.toNat + 256 * ofBytes r

/-- `n` bytes of a list from position `i`, with zeros past its end. -/
def slice (l : List Byte) (i n : Nat) : List Byte := (l.drop i).take n ++ List.replicate (n - (l.length - i)) 0

/-- The number spelled by `n` bytes from position `i`. -/
def leAt (l : List Byte) (i n : Nat) : Nat := ofBytes ((l.drop i).take n)

/-- `b` rounded up to a multiple of `a`, over `a`. -/
def ceilDiv (a b : Nat) : Nat := (a + b - 1) / b

/-- A list cut into runs of `n`. -/
def chunks (n : Nat) : Nat → List Byte → List (List Byte)
  | 0, _ => []
  | k + 1, l => if l.isEmpty then [] else l.take n :: chunks n k (l.drop n)

/-- Two half-open ranges given as start and length overlap. -/
def overlap (a n b m : Nat) : Bool := decide (0 < n) && decide (0 < m) && decide (a < b + m) && decide (b < a + n)

/-! ## Byte stores: what is not listed reads as zero (log entry 2) -/

/-- One byte of a store. Log entry 2 (DESIGN CHOICE). -/
def mread (m : List Host.Cell) (a : Nat) : Byte := tget m a 0

/-- A store with one byte written. -/
def mwrite (m : List Host.Cell) (a : Nat) (v : Byte) : List Host.Cell := tset m a v 0

/-- `n` bytes of a store from address `a`. -/
def mreads (m : List Host.Cell) (a : Nat) : Nat → List Byte
  | 0 => []
  | n + 1 => mread m a :: mreads m (a + 1) n

/-- A store with bytes written from address `a`. -/
def mwrites (m : List Host.Cell) (a : Nat) : List Byte → List Host.Cell
  | [] => m
  | b :: r => mwrites (mwrite m a b) (a + 1) r

/-- A store with the bytes that a mask selects written from address `a`. -/
def mwritem (m : List Host.Cell) (a : Nat) (mask : Nat) : List Byte → List Host.Cell
  | [] => m
  | b :: r => mwritem (if mask % 2 = 1 then mwrite m a b else m) (a + 1) (mask / 2) r

/-- The canonical form of a store: keys rise strictly and no entry equals what an unlisted address reads as. -/
def Memory.wf (m : List Host.Cell) : Bool := sorted m && m.all fun c => c.2 != 0

/-! ## Dictionary values and counters (R17, R554) -/

/-- The value of a numeric dictionary entry that nothing has written: its Default column, by index and
subindex (R226, R250, R274, R298, R299, R316, R341, R359, R383, R414, R441, R460-R467, R486, R509, R540). -/
def numDefault (i sub : Nat) : Nat :=
  match i with
  | 0x1002 => 0x3280
  | 0x1005 => 1
  | 0x1400 => 0xF000000000
  | 0x2003 => 0x37
  | 0x2401 => 100
  | 0x2800 => 1000
  | 0x2801 => 1
  | 0x3401 => 2048
  | 0x3410 => lget [160, 160, 32, 32, 64, 32, 16, 16, 1024, 64, 64, 16, 160, 160, 8, 0] (sub % 16) 0
  | 0x3412 => 0xFF
  | 0x3440 => lget [75, 75, 25] sub 0
  | 0x3808 => 4096
  | 0x3809 => lget [120000, 1000, 2000] sub 0
  | 0x4041 => 100
  | 0x4044 => 3
  | 0x4401 => lget [850 * 65536 + 600, 850 * 65536 + 600, 900 * 65536 + 650, 900 * 65536 + 700] (sub % 4) 0
  | 0x4402 => lget [115, 115, 115, 115, 26, 26, 570] sub 0
  | 0x4404 => 1000
  | 0x4405 => 400
  | 0x4407 => 2200
  | 0x4415 => 100
  | 0x4423 => 2
  | 0x4424 => 1000
  | 0x4425 => 3000
  | 0x4426 => 60
  | 0x4807 => 0xFF
  | 0x4811 => 0x3F
  | 0x4812 => 0x400080
  | 0x4C01 => 0x10000
  | 0x4C02 => 0x100000
  | 0x5005 => 1000
  | 0x5008 => 1
  | 0x5F08 => 47630
  | 0x5F09 => 0x30 + sub
  | 0x5F12 => 16
  | 0x5F13 => 1000
  | _ => 0

/-- The value of a numeric entry. -/
def State.num (s : State) (i sub : Nat) : Nat := tget s.host.num (i * 256 + sub) (numDefault i sub)

/-- A numeric entry written. -/
def State.setNum (s : State) (i sub v : Nat) : State :=
  { s with host := { s.host with num := tput s.host.num (i * 256 + sub) v } }

/-- A U32 counter raised by `n`, holding at all ones (R554). -/
def State.count32 (s : State) (i sub n : Nat) : State := s.setNum i sub (Nat.min 0xFFFFFFFF (s.num i sub + n))

/-- A U64 counter raised by `n`, wrapping (R554). -/
def State.count64 (s : State) (i sub n : Nat) : State := s.setNum i sub ((s.num i sub + n) % 2 ^ 64)

/-- The bytes of an OCTETS entry; empty where nothing has written it. -/
def State.octs (s : State) (i sub : Nat) : List Byte := tget s.host.oct (i * 256 + sub) []

/-- An OCTETS entry written. -/
def State.setOcts (s : State) (i sub : Nat) (v : List Byte) : State :=
  { s with host := { s.host with oct := tput s.host.oct (i * 256 + sub) v } }

/-! ## Time (R13, R36, R228) -/

/-- The tick length in ns (R228, R229). -/
def State.tickNs (s : State) : Nat := 1000 * s.num 0x2800 0

/-- The number of the tick that holds `now` (R228). -/
def State.tickNow (s : State) : Nat := s.now / s.tickNs

/-- Gnomon time at which the present tick opened. -/
def State.tickOpen (s : State) : Nat := s.tickNow * s.tickNs

/-- `now` is the close of a tick window (R38). -/
def State.atBoundary (s : State) : Bool := s.now % s.tickNs == 0

/-- The schedule runs: OPERATIONAL or DEGRADED (R4). -/
def State.operating (s : State) : Bool := s.dev.st == .operational || s.dev.st == .degraded

/-! ## Small updates -/

/-- The next number for a tag, message, watch, context or view, taken. -/
def State.takeId (s : State) : State := { s with id := s.id + 1 }

/-- A free value taken: the model's counter moves on (log entry 3). -/
def State.takeFree (s : State) (n : Nat) : State := { s with free := s.free + n }

/-- What Facet site `f` holds (R8). -/
def State.facet (s : State) (f : Nat) : Facet := tget s.work.facets f Facet.empty

/-- Facet site `f` replaced. -/
def State.setFacet (s : State) (f : Nat) (x : Facet) : State :=
  { s with work := { s.work with facets := tput s.work.facets f x } }

/-- Facet site `f` changed by `g`. -/
def State.modFacet (s : State) (f : Nat) (g : Facet → Facet) : State := s.setFacet f (g (s.facet f))

/-- The site that runs home `h` (R578): its own where no placement is recorded. -/
def State.siteOf (s : State) (h : Nat) : Nat := tget s.work.site h h

/-- The die of a Facet or home identifier (R8). -/
def dieOf (f : Nat) : Nat := f / 128 % 4

/-- The half of a die: West 0 for P0, P1 and Hub W, East 1 for P2, P3, Hub E and the guest (R19). -/
def halfOf (seat : Nat) : Nat := if seat < 2 then 0 else if seat < 4 then 1 else if seat = 4 then 0 else 1

/-- A valid Facet identifier (R8, R9). -/
def validSite (f : Nat) : Bool := decide (f < 512) && decide (f % 128 < 72)

/-- The home of the other copy (R232, R385). -/
def checkerHome (h : Nat) : Nat := h ^^^ 0x100

/-- Sector `n`. -/
def State.sec (s : State) (n : Nat) : Sector :=
  tget s.sectors n { st := .free, gen := 0, record := 0, dirtyOn := false, drain := none, timedOut := false, resume := 0 }

/-- Sector `n` replaced. -/
def State.setSec (s : State) (n : Nat) (x : Sector) : State := { s with sectors := tput s.sectors n x }

/-- A scope of `MER_SCOPE` (R441): Prisms 0-3, West half 4, East half 5. -/
def State.scope (s : State) (i : Nat) : ScopeSt := lget s.dev.scopes i { st := 0, since := 0, ready := false }

/-- Die `d` (a seat code) runs: neither it nor its half is in SAFE, retired or held, and its clocks are not stopped by a thermal trip or
the survival level (R423, R528, R537, R577). -/
def State.dieUp (s : State) (seat : Nat) : Bool :=
  (s.scope (4 + halfOf seat)).st == 0 && (if seat < 4 then (s.scope seat).st == 0 else true) && (tfind s.plant.trips seat).isNone &&
  !s.plant.gated

/-! ## Reset wires (R334, R335) -/

/-- `GRST_N` is asserted from now on (R335). -/
def assertGrst (s : State) : State := { s with dev := { s.dev with grst := true, lowAt := tput s.dev.lowAt 6 s.now } }

/-- `PRST_N` of a Prism is asserted from now on (R335). -/
def assertPrst (s : State) (d : Nat) : State :=
  { s with dev := { s.dev with prst := lset s.dev.prst d true, lowAt := tput s.dev.lowAt d s.now } }

end Sys2Proof.Machine
end

