-- ==== Sys2Proof/Machine/Digest.lean ====
section
/-! DEFINITION. The checks that the block computes over bytes: CRC-32C (R313), CRC-64 (R314) and SHAKE256 (R158), which the spec
takes from FIPS 202 (log entry 15). -/

namespace Sys2Proof.Machine

/-- `n` shifts of a reflected CRC register. -/
def crcShift (poly : Nat) : Nat → Nat → Nat
  | 0, c => c
  | n + 1, c => crcShift poly n (if c % 2 = 1 then (c / 2) ^^^ poly else c / 2)

/-- A reflected CRC with initial value and final XOR of all ones. -/
def crc (ones poly : Nat) (bytes : List Byte) : Nat :=
  (bytes.foldl (fun c b => crcShift poly 8 (c ^^^ b.toNat)) ones) ^^^ ones

/-- CRC-32C (R313): polynomial 0x1EDC6F41, reflected. -/
def crc32c (bytes : List Byte) : Nat := crc 0xFFFFFFFF 0x82F63B78 bytes

/-- CRC-64 (R314): polynomial 0x42F0E1EBA9EA3693, reflected. -/
def crc64 (bytes : List Byte) : Nat := crc 0xFFFFFFFFFFFFFFFF 0xC96C5795D7870F42 bytes

/-- A lane of 64 bits with every bit `n` places higher, wrapping. -/
def rotLane (v n : Nat) : Nat := nbits v 0 (64 - n) <<< n + nbits v (64 - n) n

/-- `x^t` in GF(2)[x] modulo the generator of the round constants, `x^8 + x^6 + x^5 + x^4 + 1`. -/
def rcPower : Nat → Nat
  | 0 => 1
  | t + 1 =>
    let c := 2 * rcPower t
    if nbit c 8 then c ^^^ 0x171 else c

/-- The constant of round `r`: bit `2^j - 1` is the low bit of `x^(7r + j)`. -/
def roundConst (r : Nat) : Nat := pack ((List.range 7).map fun j => (2 ^ j - 1, 1, rcPower (7 * r + j)))

/-- What theta adds to each lane of column `x`: the parity of the column before it and the rotated parity of the one after. -/
def thetaOf (a : List Nat) (x : Nat) : Nat :=
  let column := fun c => (List.range 5).foldl (fun p y => p ^^^ lget a (c % 5 + 5 * y) 0) 0
  column (x + 4) ^^^ rotLane (column (x + 1)) 1

/-- Rho and pi as one walk over the 24 lanes other than lane 0: the lane at `(x, y)` moves to `(y, 2x + 3y)`, the `t`-th of them
rotated by the `t`-th triangular number. -/
def rhoPi (a : List Nat) : Nat → Nat → Nat → Nat → List Nat → List Nat
  | 0, _, _, _, out => out
  | left + 1, t, x, y, out =>
    let y' := (2 * x + 3 * y) % 5
    rhoPi a left (t + 1) y y' (lset out (y + 5 * y') (rotLane (lget a (x + 5 * y) 0) (t * (t + 1) / 2 % 64)))

/-- Chi on one row of five lanes. -/
def chiRow (row : List Nat) : List Nat :=
  (row.zip ((row.rotateLeft 1).zip (row.rotateLeft 2))).map fun v => v.1 ^^^ (v.2.2 ^^^ (v.2.1 &&& v.2.2))

/-- Round `r` of the permutation. -/
def keccakRound (a : List Nat) (r : Nat) : List Nat :=
  let mixed := a.zipIdx.map fun v => v.1 ^^^ thetaOf a (v.2 % 5)
  let moved := rhoPi mixed 24 1 1 0 mixed
  lmod ((List.range 5).flatMap fun y => chiRow ((moved.drop (5 * y)).take 5)) 0 (· ^^^ roundConst r)

/-- The permutation of 24 rounds. -/
def keccak (a : List Nat) : List Nat := (List.range 24).foldl keccakRound a

/-- The lanes of a 136-byte block. -/
def blockLanes (b : List Byte) : List Nat := (List.range 25).map fun i => if i < 17 then leAt b (8 * i) 8 else 0

/-- A state with a block absorbed. -/
def absorb (a : List Nat) (b : List Byte) : List Nat := keccak ((a.zip (blockLanes b)).map fun p => p.1 ^^^ p.2)

/-- The padded message of SHAKE256. -/
def shakePad (m : List Byte) : List Byte :=
  let z := 136 - m.length % 136
  if z = 1 then m ++ [0x9F] else m ++ [0x1F] ++ List.replicate (z - 2) 0 ++ [0x80]

/-- SHAKE256 with 256 bits of output. Log entry 15 (PRESUMED). -/
def shake256 (m : List Byte) : List Byte :=
  let p := shakePad m
  let a := (chunks 136 (p.length / 136) p).foldl absorb (List.replicate 25 0)
  (a.take 4).flatMap (toBytes 8)

/-! ## The fuse blocks of the dies (R20, R321) -/

/-- Bits 127 to 0 of a die's identity fuse block (R321). -/
def fuseBody (s : State) (die : Nat) : List Byte :=
  toBytes 16 (pack [(96, 32, if die = 5 then s.dev.gid else 0), (64, 3, lget s.dev.seats die 7), (0, 64, s.dev.serial)])

/-- The fuse block of a die with its `fchk` (R321). -/
def fuseBlock (s : State) (die : Nat) : List Byte := fuseBody s die ++ toBytes 4 (lget s.dev.fchk die 0)

/-- The seat that a Knaxon die reads: 0b111 where its `fchk` does not match (R321). -/
def dieSeat (s : State) (die : Nat) : Nat :=
  if lget s.dev.fchk die 0 = crc32c (fuseBody s die) then lget s.dev.seats die 7 else 7

end Sys2Proof.Machine
end

