-- ==== Sys2Proof/Machine/MlDsa.lean ====
section
/-! DEFINITION. ML-DSA-65 (R490, R504, R507, R508), which the spec takes from FIPS 204: a key pair from its seed, the deterministic signature with an
empty context, and its verification. Rejection loops run over the lengths of hash output that hold far more candidates than they take. Log entry 134 (PRESUMED). -/

namespace Sys2Proof.Machine

/-! ## SHAKE with any length of output (FIPS 202) -/

/-- A message padded for SHAKE with blocks of `rate` bytes. -/
def xofPad (rate : Nat) (m : List Byte) : List Byte :=
  let z := rate - m.length % rate
  if z = 1 then m ++ [0x9F] else m ++ [0x1F] ++ List.replicate (z - 2) 0 ++ [0x80]

/-- A state with a block of `rate` bytes absorbed. -/
def xofAbsorb (rate : Nat) (a : List Nat) (b : List Byte) : List Nat :=
  keccak (a.zipIdx.map fun p => if p.2 < rate / 8 then p.1 ^^^ leAt b (8 * p.2) 8 else p.1)

/-- `n` blocks squeezed from a state. -/
def xofSqueeze (rate : Nat) : Nat → List Nat → List Byte
  | 0, _ => []
  | n + 1, a => (a.take (rate / 8)).flatMap (toBytes 8) ++ xofSqueeze rate n (keccak a)

/-- `n` bytes of SHAKE with blocks of `rate` bytes: 168 for SHAKE128, 136 for SHAKE256. -/
def xof (rate : Nat) (m : List Byte) (n : Nat) : List Byte :=
  let p := xofPad rate m
  (xofSqueeze rate (ceilDiv n rate) ((chunks rate (p.length / rate) p).foldl (xofAbsorb rate) (List.replicate 25 0))).take n

namespace MlDsa

/-! ## Polynomials: 256 coefficients below the modulus -/

/-- The modulus. -/
def q : Nat := 8380417

/-- A polynomial. -/
abbrev Poly := List Nat

/-- The sum of two polynomials. -/
def add (a b : Poly) : Poly := (a.zip b).map fun p => (p.1 + p.2) % q

/-- The difference of two polynomials. -/
def sub (a b : Poly) : Poly := (a.zip b).map fun p => (p.1 + q - p.2) % q

/-- The product of two polynomials, each in the transform's domain. -/
def mul (a b : Poly) : Poly := (a.zip b).map fun p => p.1 * p.2 % q

/-- The eight bits of a number in reverse. -/
def brv (m : Nat) : Nat := lsum (fun i => nbits m i 1 * 2 ^ (7 - i)) (List.range 8)

/-- The factor of block `m` of the transform. -/
def zeta (m : Nat) : Nat := 1753 ^ brv m % q

/-- The number-theoretic transform of a block, numbered `m`, of `2^n` coefficients. -/
def nttBlock : Nat → Nat → Poly → Poly
  | 0, _, w => w
  | n + 1, m, w =>
    let lo := w.take (2 ^ n)
    let hi := (w.drop (2 ^ n)).map fun x => zeta m * x % q
    nttBlock n (2 * m) (add lo hi) ++ nttBlock n (2 * m + 1) (sub lo hi)

/-- The number-theoretic transform. -/
def ntt (w : Poly) : Poly := nttBlock 8 1 w

/-- The inverse of the transform of a block, but for its scale. -/
def inttBlock : Nat → Nat → Poly → Poly
  | 0, _, w => w
  | n + 1, m, w =>
    let lo := inttBlock n (2 * m) (w.take (2 ^ n))
    let hi := inttBlock n (2 * m + 1) (w.drop (2 ^ n))
    add lo hi ++ (sub lo hi).map fun x => 1753 ^ (512 - brv m) % q * x % q

/-- The inverse of the transform. -/
def intt (w : Poly) : Poly := (inttBlock 8 1 w).map fun x => x * 8347681 % q

/-- The product of a matrix and a vector, both in the transform's domain, transformed back. -/
def apply (m : List (List Poly)) (v : List Poly) : List Poly :=
  m.map fun row => intt ((row.zip v).foldl (fun a p => add a (mul p.1 p.2)) (List.replicate 256 0))

/-- The product of one transformed polynomial and a vector of them. -/
def scale (c : Poly) (v : List Poly) : List Poly := v.map fun p => intt (mul c p)

/-- Two vectors combined. -/
def both (f : Poly → Poly → Poly) (a b : List Poly) : List Poly := (a.zip b).map fun p => f p.1 p.2

/-- The representative of a residue with the least magnitude, at most half of `n` where it is positive. -/
def centred (n x : Nat) : Int := if n / 2 < x % n then (x % n : Nat) - (n : Int) else (x % n : Nat)

/-- The largest magnitude of a coefficient. -/
def norm (v : List Poly) : Nat := lmax (v.flatMap fun p => p.map fun x => (centred q x).natAbs)

/-! ## Rounding -/

/-- High and low part of a coefficient by steps of twice 261,888. -/
def decompose (x : Nat) : Nat × Int :=
  let r0 := centred 523776 x
  if (x : Int) - r0 = (q : Int) - 1 then (0, r0 - 1) else (((x : Int) - r0).toNat / 523776, r0)

/-- The high parts of a vector. -/
def high (v : List Poly) : List Poly := v.map fun p => p.map fun x => (decompose x).1

/-- A high part corrected by its hint. -/
def useHint (h : Bool) (x : Nat) : Nat :=
  let d := decompose x
  if !h then d.1 else if 0 < d.2 then (d.1 + 1) % 16 else (d.1 + 15) % 16

/-! ## Packing and sampling -/

/-- Numbers of `n` bits packed into bytes. -/
def packBits (n : Nat) (l : List Nat) : List Byte := toBytes (n * l.length / 8) (pack (l.zipIdx.map fun p => (n * p.2, n, p.1)))

/-- `count` numbers of `n` bits unpacked. -/
def unpackBits (n count : Nat) (b : List Byte) : List Nat :=
  let v := ofBytes b
  (List.range count).map fun i => nbits v (n * i) n

/-- Coefficients below the modulus taken from three bytes each, at most `n` of them. -/
def takeUniform : Nat → List Byte → List Nat
  | n + 1, a :: b :: c :: r =>
    let v := a.toNat + 256 * b.toNat + 65536 * (c.toNat % 128)
    if v < q then v :: takeUniform n r else takeUniform (n + 1) r
  | _, _ => []

/-- A polynomial of the matrix, in the transform's domain. -/
def uniform (seed : List Byte) : Poly := takeUniform 256 (xof 168 seed 1680)

/-- The matrix of a public seed. -/
def matrix (rho : List Byte) : List (List Poly) :=
  (List.range 6).map fun r => (List.range 5).map fun s => uniform (rho ++ toBytes 1 s ++ toBytes 1 r)

/-- A secret polynomial: coefficients of magnitude at most 4, from half bytes. -/
def small (seed : List Byte) (r : Nat) : Poly :=
  ((((xof 136 (seed ++ toBytes 2 r) 1360).flatMap fun b => [b.toNat % 16, b.toNat / 16]).filter (· < 9)).take 256).map fun x => (q + 4 - x) % q

/-- The places of a challenge, for the indices that are left: each takes the first byte that is not above it. -/
def ballFill : List Nat → Nat → List Byte → Poly → Poly
  | [], _, _, c => c
  | i :: is, signs, bytes, c =>
    match bytes.dropWhile fun b => decide (i < b.toNat) with
    | [] => c
    | j :: rest => ballFill is (signs / 2) rest (lset (lset c i (lget c j.toNat 0)) j.toNat (if signs % 2 = 1 then q - 1 else 1))

/-- The challenge polynomial of a commitment hash. -/
def ball (ct : List Byte) : Poly :=
  let s := xof 136 ct 1088
  ballFill ((List.range 49).map (207 + ·)) (leAt s 0 8) (s.drop 8) (List.replicate 256 0)

/-- The places of a vector's hints. -/
def packHints (h : List (List Bool)) : List Byte :=
  let places := h.map fun p => (List.range 256).filter fun i => lget p i false
  let all := places.flatten
  (all ++ List.replicate (55 - all.length) 0).map (BitVec.ofNat 8) ++
    (List.range 6).map fun i => BitVec.ofNat 8 ((places.take (i + 1)).flatten.length)

/-- The hints that a signature lists, where their encoding is the one that packing gives. -/
def unpackHints (b : List Byte) : Option (List (List Bool)) :=
  let ends := (List.range 6).map fun i => (lget b (55 + i) 0).toNat
  let poly (i : Nat) : List Bool :=
    let from_ := if i = 0 then 0 else lget ends (i - 1) 0
    let own := ((b.take (lget ends i 0)).drop from_).map BitVec.toNat
    (List.range 256).map own.contains
  let h := (List.range 6).map poly
  if b.length = 61 && packHints h == b then some h else none

/-! ## Keys, signatures and their check -/

/-- What a key pair consists of. -/
structure Keys where
  pk : List Byte
  rho : List Byte
  k  : List Byte
  s1 : List Poly
  s2 : List Poly
  t0 : List Poly

/-- The key pair of a seed. -/
def keys (seed : List Byte) : Keys :=
  let h := xof 136 (seed ++ [6, 5]) 128
  let rho := h.take 32
  let s1 := (List.range 5).map (small (slice h 32 64))
  let s2 := (List.range 6).map fun r => small (slice h 32 64) (r + 5)
  let t := both add (apply (matrix rho) (s1.map ntt)) s2
  let t1 := t.map fun p => p.map fun x => (Int.ofNat x - centred 8192 x).toNat / 8192
  { pk := rho ++ t1.flatMap (packBits 10), rho := rho, k := h.drop 96, s1 := s1, s2 := s2,
    t0 := t.map fun p => p.map fun x => (centred 8192 x % (q : Int)).toNat }

/-- The representative of a message under a public key, with an empty context. -/
def message (pk msg : List Byte) : List Byte := xof 136 (xof 136 pk 64 ++ [0, 0] ++ msg) 64

/-- The hash of a commitment. -/
def commit (mu : List Byte) (w1 : List Poly) : List Byte := xof 136 (mu ++ w1.flatMap (packBits 4)) 48

/-- One attempt at a signature with the masks from number `kappa` on; none where it would show the key. -/
def attempt (x : Keys) (a : List (List Poly)) (mu mask : List Byte) (kappa : Nat) : Option (List Byte) :=
  let y := (List.range 5).map fun r => (unpackBits 20 256 (xof 136 (mask ++ toBytes 2 (kappa + r)) 640)).map fun v => (q + 524288 - v) % q
  let w := apply a (y.map ntt)
  let ct := commit mu (high w)
  let c := ntt (ball ct)
  let z := both add y (scale c (x.s1.map ntt))
  let r := both sub w (scale c (x.s2.map ntt))
  let c0 := scale c (x.t0.map ntt)
  let h := (r.zip c0).map fun p => (p.1.zip p.2).map fun v => (decompose v.1).1 != (decompose ((v.1 + v.2) % q)).1
  let low := lmax (r.flatMap fun p => p.map fun v => (decompose v).2.natAbs)
  if 524288 - 196 ≤ norm z || 261888 - 196 ≤ low || 261888 ≤ norm c0 || 55 < (h.flatten.filter id).length then none
  else some (ct ++ z.flatMap (fun p => packBits 20 (p.map fun v => (524288 - centred q v).toNat)) ++ packHints h)

/-- The first attempt that succeeds. -/
def attempts (x : Keys) (a : List (List Poly)) (mu mask : List Byte) : Nat → Nat → List Byte
  | 0, _ => []
  | n + 1, kappa => match attempt x a mu mask kappa with
    | some sig => sig
    | none => attempts x a mu mask n (kappa + 5)

end MlDsa

/-- The public key of a seed (R507). -/
def mldsaPublic (seed : List Byte) : List Byte := (MlDsa.keys seed).pk

/-- The deterministic signature of a message under the key of a seed, with an empty context (R508). -/
def mldsaSign (seed msg : List Byte) : List Byte :=
  let x := MlDsa.keys seed
  let mu := MlDsa.message x.pk msg
  MlDsa.attempts x (MlDsa.matrix x.rho) mu (xof 136 (x.k ++ List.replicate 32 0 ++ mu) 64) 814 0

/-- A signature of a message, with an empty context, is good under a public key (R490, R504). Log entry 134 (PRESUMED). -/
def mldsaVerify (pk msg sig : List Byte) : Bool :=
  match MlDsa.unpackHints (sig.drop 3248) with
  | none => false
  | some h =>
    let ct := sig.take 48
    let z := (List.range 5).map fun i => (MlDsa.unpackBits 20 256 (slice sig (48 + 640 * i) 640)).map fun v => (MlDsa.q + 524288 - v) % MlDsa.q
    let t1 := (List.range 6).map fun i => (MlDsa.unpackBits 10 256 (slice pk (32 + 320 * i) 320)).map (· * 8192)
    let c := MlDsa.ntt (MlDsa.ball ct)
    let w := MlDsa.both MlDsa.sub (MlDsa.apply (MlDsa.matrix (pk.take 32)) (z.map MlDsa.ntt)) (MlDsa.scale c (t1.map MlDsa.ntt))
    let w1 := (h.zip w).map fun p => (p.1.zip p.2).map fun v => MlDsa.useHint v.1 v.2
    pk.length == 1952 && sig.length == 3309 && decide (MlDsa.norm z < 524288 - 196) && MlDsa.commit (MlDsa.message pk msg) w1 == ct

end Sys2Proof.Machine
end

