-- ==== Sys2Proof/Machine/Cipher.lean ====
section
/-! DEFINITION. AES-256 in Galois/Counter Mode, as R457 names it: the block cipher of FIPS 197 and the mode of NIST SP 800-38D, over bytes as numbers. -/

namespace Sys2Proof.Machine

/-- The substitution box, 32 bytes to a number, the first lowest. -/
def aesBox : List Nat :=
  [0xC072A49CAFA2D4ADF04759FA7DC982CA76ABD7FE2B670130C56F6BF27B777C63,
   0x75B227EBE28012079A059618C323C7041531D871F1E5A534CCF73F362693FDB7,
   0xCF584C4A39BECB6A5BB1FC20ED00D153842FE329B3D63B52A05A6E1B1A2C8309,
   0xD2F3FF1021DAB6BCF5389D928F40A351A89F3C507F02F94585334D43FBAAEFD0,
   0xDB0B5EDE14B8EE4688902A22DC4F816073195D643D7EA7C41744975FEC130CCD,
   0x08AE7A65EAF4566CA94ED58D6D37C8E779E4959162ACD3C25C2406490A3A32E0,
   0x9E1DC186B95735610EF6034866B53E708A8BBD4B1F74DDE8C6B4A61C2E2578BA,
   0x16BB54B00F2D99416842E6BF0D89A18CDF2855CEE9871E9B948ED9691198F8E1]

/-- A byte through the substitution box. -/
def aesSub (b : Nat) : Nat := nbits (lget aesBox (b / 32) 0) (8 * (b % 32)) 8

/-- A byte times x in the field of the cipher. -/
def aesDouble (b : Nat) : Nat := if b < 128 then 2 * b else (2 * b) ^^^ 0x11B

/-- The words that follow in the key schedule of a 256-bit key: `w` holds those before them, the latest first, and `i` is the number of the next. -/
def aesWords : Nat → Nat → Nat → List (List Nat) → List (List Nat)
  | 0, _, _, w => w
  | n + 1, i, rcon, w =>
    let t := lget w 0 []
    let u := if i % 8 = 0 then
        match t.map aesSub with
        | a :: r => r.zipWith (· ^^^ ·) [rcon, 0, 0] ++ [a]
        | [] => []
      else if i % 8 = 4 then t.map aesSub else t
    aesWords n (i + 1) (if i % 8 = 0 then aesDouble rcon else rcon) ((lget w 7 []).zipWith (· ^^^ ·) u :: w)

/-- The fifteen round keys of a 32-byte key. -/
def aesKeys (key : List Nat) : List (List Nat) :=
  let w := (aesWords 52 8 1 ((List.range 8).map fun i => (key.drop (4 * (7 - i))).take 4)).reverse
  (List.range 15).map fun r => ((w.drop (4 * r)).take 4).flatten

/-- Rows of the state shifted: byte `4c + r` comes from column `c + r`. -/
def aesShift (x : List Nat) : List Nat := (List.range 16).map fun k => lget x ((k + 4 * (k % 4)) % 16) 0

/-- A column mixed. -/
def aesMixCol (a b c d : Nat) : List Nat :=
  let all := a ^^^ b ^^^ c ^^^ d
  [a ^^^ all ^^^ aesDouble (a ^^^ b), b ^^^ all ^^^ aesDouble (b ^^^ c), c ^^^ all ^^^ aesDouble (c ^^^ d), d ^^^ all ^^^ aesDouble (d ^^^ a)]

/-- The columns of the state mixed. -/
def aesMix (x : List Nat) : List Nat :=
  (List.range 4).flatMap fun c => aesMixCol (lget x (4 * c) 0) (lget x (4 * c + 1) 0) (lget x (4 * c + 2) 0) (lget x (4 * c + 3) 0)

/-- The rounds of a block under the round keys that are left; the last round mixes no columns. -/
def aesRounds : List (List Nat) → List Nat → List Nat
  | [], x => x
  | [k], x => (aesShift (x.map aesSub)).zipWith (· ^^^ ·) k
  | k :: r, x => aesRounds r ((aesMix (aesShift (x.map aesSub))).zipWith (· ^^^ ·) k)

/-- A block of 16 bytes enciphered under expanded keys. -/
def aesBlock (keys : List (List Nat)) (x : List Nat) : List Nat :=
  match keys with
  | [] => x
  | k :: r => aesRounds r (x.zipWith (· ^^^ ·) k)

/-- A number of bytes, the first highest. -/
def beNat (l : List Nat) : Nat := l.foldl (fun a b => 256 * a + b) 0

/-- The `n` bytes of a number, the highest first. -/
def beList : Nat → Nat → List Nat
  | 0, _ => []
  | n + 1, v => v / 256 ^ n % 256 :: beList n v

/-- A product in the field of GHASH, by the bits of `x` from the highest, `n` of which are left: `z` is the sum so far and `v` the multiple that
stands next. -/
def ghashMul (x : Nat) : Nat → Nat → Nat → Nat
  | 0, z, _ => z
  | n + 1, z, v => ghashMul x n (if nbit x n then z ^^^ v else z) (if v % 2 = 1 then (v / 2) ^^^ (0xE1 * 2 ^ 120) else v / 2)

/-- Blocks of 16 bytes, the last one filled with zeros; `n` bounds their number. -/
def padBlocks : Nat → List Nat → List Nat
  | 0, _ => []
  | _, [] => []
  | n + 1, l => beNat (l.take 16 ++ List.replicate (16 - (l.take 16).length) 0) :: padBlocks n (l.drop 16)

/-- GHASH of additional data and ciphertext. -/
def ghash (h : Nat) (aad c : List Nat) : Nat :=
  (padBlocks (aad.length + 1) aad ++ padBlocks (c.length + 1) c ++ [aad.length * 8 * 2 ^ 64 + c.length * 8]).foldl (fun y b => ghashMul (y ^^^ b) 128 0 h) 0

/-- Bytes enciphered in counter mode from counter block `ctr`; `n` bounds the blocks. -/
def gcmStream (keys : List (List Nat)) : Nat → Nat → List Nat → List Nat
  | 0, _, _ => []
  | _, _, [] => []
  | n + 1, ctr, l => (l.take 16).zipWith (· ^^^ ·) (aesBlock keys (beList 16 ctr)) ++ gcmStream keys n (ctr + 1) (l.drop 16)

/-- The tag of additional data and ciphertext under a key and a 12-byte nonce. -/
def gcmTag (keys : List (List Nat)) (j0 : Nat) (aad c : List Nat) : List Nat :=
  (beList 16 (ghash (beNat (aesBlock keys (List.replicate 16 0))) aad c)).zipWith (· ^^^ ·) (aesBlock keys (beList 16 j0))

/-- Numbers of some bytes. -/
def byteNats (l : List Byte) : List Nat := l.map BitVec.toNat

/-- Bytes of some numbers. -/
def natBytes (l : List Nat) : List Byte := l.map (BitVec.ofNat 8)

/-- AES-256-GCM (R457): the ciphertext of a plaintext followed by its 16-byte tag. -/
def gcmSeal (key nonce aad plain : List Byte) : List Byte :=
  let keys := aesKeys (byteNats key)
  let j0 := beNat (byteNats nonce) * 2 ^ 32 + 1
  let c := gcmStream keys (plain.length + 1) (j0 + 1) (byteNats plain)
  natBytes (c ++ gcmTag keys j0 (byteNats aad) c)

/-- The plaintext of a ciphertext with its tag; none where the tag does not verify (R458). -/
def gcmOpen (key nonce aad sealed : List Byte) : Option (List Byte) :=
  let keys := aesKeys (byteNats key)
  let j0 := beNat (byteNats nonce) * 2 ^ 32 + 1
  let c := byteNats (sealed.take (sealed.length - 16))
  if 16 ≤ sealed.length && natBytes (gcmTag keys j0 (byteNats aad) c) = sealed.drop (sealed.length - 16) then some (natBytes (gcmStream keys (c.length + 1) (j0 + 1) c)) else none

end Sys2Proof.Machine
end

