-- ==== Sys2Proof/Machine/Flags.lean ====
section
/-! DEFINITION. What the block raises: Nimbusor records and in-band interrupts (R456, R461-R463), fault records
on their way to the Meridians (R418, R419), wake vectors and wake logs (R471-R473), and integrity events (R303). -/

namespace Sys2Proof.Machine

/-- An in-band interrupt queued on the target of a hub, in order of its stamp (R456). The queue raises its first
64; a longer tail is the interrupts that wait for room. Log entry 33 (DEDUCED). -/
def raiseIbi (s : State) (hub : Nat) (i : Ibi) : State :=
  { s with host := { s.host with ibis := lmod s.host.ibis hub (· ++ [i]) } }

/-- The code of a device state in `DEV_STATE` (R460). -/
def devCode (d : DevState) : Nat :=
  match d with
  | .off => 0 | .boot => 1 | .config => 2 | .operational => 3 | .degraded => 4 | .safe => 5

/-- The device state changes: its stamp is kept and both hubs tell their hosts (R456, R460). -/
def setDevState (s : State) (d : DevState) : State :=
  if s.dev.st = d then s
  else
    let s1 := { s with dev := { s.dev with st := d } }
    let s2 := s1.setNum 0x1102 0 s.now
    let i : Ibi := { mdb := 2, bytes := BitVec.ofNat 8 (devCode d) :: toBytes 4 s.tickNow, handle := none }
    if d = .off then s1 else raiseIbi (raiseIbi s2 0 i) 1 i

/-! ## Units that leave over UDP (R450, R451, R457, R464) -/

/-- An Axbel protocol data unit (R450, R451): header, payload and CRC. `bits` is the header's low half-word: `op`, `ver`, `rsp`, `dup`. -/
def axUnit (bits seq index sub status : Nat) (payload : List Byte) : List Byte :=
  let body := toBytes 2 bits ++ toBytes 2 seq ++ toBytes 2 index ++ toBytes 1 sub ++ toBytes 1 0 ++ toBytes 2 payload.length ++
    toBytes 2 status ++ payload
  body ++ toBytes 4 (crc32c body)

/-- The UDP datagram of a unit under a key slot's key, generation and counter (R457): key identifier, counter and unit header in the clear, the
payload and its check enciphered, then the tag. -/
def datagram (slot : Nat) (k : KeySlot) (unit : List Byte) : List Byte :=
  let head := toBytes 4 (256 * k.gen + slot) ++ toBytes 8 k.tx
  let aad := head ++ unit.take 12
  aad ++ gcmSeal k.key (k.salt ++ toBytes 8 k.tx) aad (unit.drop 12)

/-- A datagram leaves from the port of R457. -/
def udpOut (s : State) (hub addr port : Nat) (bytes : List Byte) : State :=
  { s with host := { s.host with out := s.host.out ++ [Output.udp hub (s.num 0x5F08 0) addr port bytes] } }

/-- A unit sent to an address and port under a key slot, with the slot's generation and next counter (R457, R458); nothing leaves under a slot
that holds no key. -/
def sendUdp (s : State) (hub slot addr port : Nat) (unit : List Byte) : State :=
  match tfind s.plant.keys slot with
  | none => s
  | some k =>
    let s1 := udpOut s hub addr port (datagram slot k unit)
    { s1 with plant := { s1.plant with keys := tput s1.plant.keys slot { k with tx := k.tx + 1 } } }

/-- A record pushed as a RECORD unit where `NIM_DEST` is set and its severity reaches `NIM_MIN_SEV`, and the instant kept from which it is due again
(R464). Log entry 112 (DEDUCED). -/
def pushRecord (s : State) (hub q : Nat) (r : BitVec 512) : State :=
  let d := s.octs 0x5004 0
  if ofBytes d = 0 || fld r 392 8 < s.num 0x5008 0 then s
  else
    let s1 := sendUdp s hub (leAt d 18 1) (leAt d 0 16) (leAt d 16 2) (axUnit 0x113 0 0 0 0 (toBytes 4 q ++ toBytes 64 r.toNat))
    { s1 with host := { s1.host with rings := lmod s1.host.rings hub fun g => { g with pushed := tput g.pushed q s.now } } }

/-- A record placed in the ring of one hub (R463): the oldest of 1,024 is overwritten, and counted as lost when
it was not acknowledged. The target tells the host when the ring held nothing unacknowledged (R456). -/
def ringPut (s : State) (hub : Nat) (r : BitVec 512) : State :=
  let g := lget s.host.rings hub Ring.fresh
  if g.full then s
  else
    let full := 1024 ≤ g.recs.length
    let oldest := (g.recs.head?.map Prod.fst).getD g.next
    let lost := full && decide (g.first ≤ oldest)
    let r' : BitVec 512 := if lost || g.gap then r ||| BitVec.ofNat 512 (2 ^ 385) else r
    let g' : Ring := { recs := (if full then g.recs.drop 1 else g.recs) ++ [(g.next, r')], pushed := if full then tdel g.pushed oldest else g.pushed, next := g.next + 1,
                       first := if lost then oldest + 1 else g.first, gap := false,
                       full := decide (g.next = 0xFFFFFFFF) }
    let s1 := pushRecord { s with host := { s.host with rings := lset s.host.rings hub g' } } hub g.next r'
    let s2 := s1.setNum 0x5000 hub ((g.next + 1) % 2 ^ 32)
    let s3 := if lost then s2.count32 0x5003 hub 1 else s2
    if g'.first = g.next then raiseIbi s3 hub { mdb := 3, bytes := toBytes 4 g.next, handle := none } else s3

/-- A Nimbusor record (R461) placed in the ring or rings that its seat names (R463). -/
def nim (s : State) (time seat site : Nat) (sec : Option Nat) (code sev : Nat) (inj : Bool) (payload : Nat) : State :=
  let r := BitVec.ofNat 512 (pack [(448, 64, time), (445, 3, seat), (436, 9, site), (435, 1, b2n sec.isSome),
    (429, 6, sec.getD 0), (400, 16, code), (392, 8, sev), (384, 1, b2n inj), (0, 384, payload)])
  if seat = 7 then ringPut (ringPut s 0 r) 1 r else ringPut s (halfOf seat) r

/-- A warning of the device as a whole or of a seat, its payload packed from byte 0 (R462). -/
def nimWarn (s : State) (seat code : Nat) (payload : List Byte) : State :=
  nim s s.now seat 0x1FF none code 1 false (ofBytes payload)

/-- A fault record (R418); `resp` is filled by the Meridian that takes it. -/
def faultRec (s : State) (stamp detail code seat site domain : Nat) (sec : Option Nat) (inj : Bool) : BitVec 512 :=
  BitVec.ofNat 512 (pack [(448, 64, stamp), (416, 32, stamp / s.tickNs), (384, 32, detail), (376, 8, code),
    (373, 3, seat), (364, 9, site), (358, 6, domain), (357, 1, b2n sec.isSome), (351, 6, sec.getD 0),
    (347, 1, b2n inj)])

/-- A fault is reported: its record starts for the Meridians, and a Prism asserts `PFLT_N` (R419). -/
def raiseFault (s : State) (stamp detail code seat site : Nat) (domain : Nat) (sec : Option Nat) : State :=
  { s with safety := { s.safety with faults := s.safety.faults ++ [faultRec s stamp detail code seat site domain sec false] },
           dev := { s.dev with pflt := if seat < 4 then lset s.dev.pflt seat true else s.dev.pflt } }

/-- A fault that a start-up test injects (R435): it is marked, and has no response. -/
def raiseInjected (s : State) (detail code seat site : Nat) : State :=
  { s with safety := { s.safety with faults := s.safety.faults ++ [faultRec s s.now detail code seat site 0x3F none true] },
           dev := { s.dev with pflt := if seat < 4 then lset s.dev.pflt seat true else s.dev.pflt } }

/-- A fault of a die at this instant, with no site, clock domain or sector. -/
def dieFault (s : State) (code detail seat : Nat) : State := raiseFault s s.now detail code seat 0x1FF 0x3F none

/-! ## Wake vectors (R471-R473) -/

/-- The address in the model's hub-SRAM table of offset `o` of a hub: each hub has 32 MiB (R278). -/
def sramAddr (hub o : Nat) : Nat := hub * 0x2000000 + o % 0x2000000

/-- A scrubber that has not begun. -/
def Scrub.fresh : Scrub :=
  { next := 0, ahead := [], start := 0, lap := 0, last := none, took := 0, recent := [], wb := [], remaps := [], qualify := [], told := false }

/-- Scheduled write-backs of a hub's SRAM lines from `first` to `last` are discarded by a newer write (R307). -/
def dropSramBacks (s : State) (hub first last : Nat) : State :=
  let x := tget s.mem.scrubs (4 + hub) Scrub.fresh
  if x.wb.isEmpty then s
  else { s with mem := { s.mem with scrubs := tput s.mem.scrubs (4 + hub) { x with wb := x.wb.filter fun l => !(decide (first ≤ l) && decide (l ≤ last)) } } }

/-- Bytes written to hub SRAM: a line written whole loses its poison, a line written in part keeps it (R306). -/
def sramWrite (s : State) (hub o : Nat) (bytes : List Byte) : State :=
  let a := sramAddr hub o
  let first := a / 64
  let last := (a + bytes.length - 1) / 64
  let pois := (List.range (last + 1 - first)).foldl (fun p i =>
    let l := first + i
    if a ≤ 64 * l && 64 * l + 64 ≤ a + bytes.length then tdel p l else p) s.mem.sramPoison
  if bytes.isEmpty then s
  else dropSramBacks { s with mem := { s.mem with sram := mwrites s.mem.sram a bytes, sramPoison := pois } } hub (first % 524288) (last % 524288)

/-- Bytes read from hub SRAM. -/
def sramRead (s : State) (hub o n : Nat) : List Byte := mreads s.mem.sram (sramAddr hub o) n

/-- A line of hub SRAM poisoned, in both of its bits (R301). -/
def sramSetPoison (s : State) (hub line : Nat) : State :=
  { s with mem := { s.mem with sramPoison := tput s.mem.sramPoison (524288 * hub + line) (true, true) } }

/-- A byte of the lines that a range of hub SRAM touches is poisoned. -/
def sramBad (s : State) (hub o n : Nat) : Bool :=
  let a := sramAddr hub o
  (List.range ((a + n - 1) / 64 + 1 - a / 64)).any fun i => twinBad (tget s.mem.sramPoison (a / 64 + i) (false, false))

/-- A wake raised on a core vector: the entry in the sector's wake log, then the MSI, or only the log (R472). -/
def raiseVector (s : State) (sec vec cls : Nat) (body : Nat) : State :=
  let hub := if vec < 256 then 0 else 1
  let key := hub * 64 + sec
  let q := tget s.host.wlog key 0
  let e := ofBytes (sramRead s hub (s.num 0x4C00 hub + 4 * (256 * sec + vec % 256)) 4)
  let entry := toBytes 32 (pack [(64, 192, body), (56, 8, cls), (32, 9, vec), (0, 32, q)])
  let s1 := sramWrite s hub (s.num 0x4C01 hub + 2048 * sec + 32 * (q % 64)) entry
  let s2 := { s1 with host := { s1.host with wlog := tput s1.host.wlog key ((q + 1) % 2 ^ 32) } }
  let bad := !(nbit e 31) || nbits e 27 4 != 0 || nbits e 11 10 != 0 || nbits e 0 11 == 0 || nbits e 21 3 == 7
  if bad then s2.count64 0x4C04 hub 1
  else
    let k := 8 * (8 * hub + nbits e 24 3) + nbits e 21 3
    { s2 with host := { s2.host with imsic := tput s2.host.imsic k (tget s2.host.imsic k 0 ||| 2 ^ nbits e 0 11),
                                     out := s2.host.out ++ [.msi hub (nbits e 24 3) (nbits e 21 3) (nbits e 0 11)] } }

/-! ## Integrity events (R303) -/

/-- An integrity event in a store of a die: its location and stamp are recorded for the host and reported to the Meridian of the half, which
keeps the last one; it is no fault (R303, R316). -/
def integrityEvent (s : State) (seat store addr : Nat) : State :=
  let s1 := s.setOcts 0x3822 0 (toBytes 8 s.now ++ toBytes 1 store ++ toBytes 3 0 ++ toBytes 4 addr)
  { s1 with safety := { s1.safety with intEvents := tput s1.safety.intEvents (halfOf seat) (store, addr, s.now) } }

/-- A tile check fails at a hand-over: counted, and a fault of the half whose fabric or link carried it (R313). -/
def tileFail (s : State) (seat addr : Nat) : State :=
  dieFault (integrityEvent (s.count64 0x3820 0 1) seat 3 addr) 0x13 0 seat

end Sys2Proof.Machine
end

