-- ==== Sys2Proof/Machine/Handles.lean ====
section
/-! DEFINITION. The handle table (R213-R218, R220, R241): allocation in rotation, completion with its object and
report, dependants that fail with it, device-originated messages (R68, R188), and the
Chord routes that they take (R26-R28). -/

namespace Sys2Proof.Machine

/-- A slot that has never been allocated (R214). -/
def Slot.never : Slot :=
  { st := .free, used := false, gen := 0, kind := 0, sector := 0, sgen := 0, ctx := 0, hub := 0, eng := .control, code := 0, body := 0,
    tag := 0, after := 0xFFFFFFFF, rep := 0, dkind := 0, dest := 0, stamp := 0, key := 0, order := 0, cmd := .none,
    input := [], bad := false, pages := [], fwd := false,
    obj := { time := 0, result := 0, tag := 0, status := 0, handle := 0 } }

/-- A completion object that holds nothing. -/
def Completion.blank : Completion := { time := 0, result := 0, tag := 0, status := 0, handle := 0 }

/-- Slot `i` of the handle table. -/
def State.slot (s : State) (i : Nat) : Slot := tget s.cmds.slots i Slot.never

/-- Slot `i` replaced. -/
def State.setSlot (s : State) (i : Nat) (x : Slot) : State :=
  { s with cmds := { s.cmds with slots := tput s.cmds.slots i x } }

/-- The handle that names slot `i` as it is allocated now (R213). -/
def handleOf (i : Nat) (x : Slot) : Nat := pack [(30, 2, x.kind), (24, 6, x.sector), (12, 12, x.gen), (0, 12, i)]

/-- The slot that a handle names. -/
def slotOf (h : Nat) : Nat := nbits h 0 12

/-- A handle names its slot's present allocation. -/
def State.holds (s : State) (h : Nat) : Bool := handleOf (slotOf h) (s.slot (slotOf h)) == h

/-- A handle that software holds names its slot's present allocation: only the generation is checked, and beside it the context (R216). -/
def State.holdsGen (s : State) (h : Nat) : Bool := (s.slot (slotOf h)).gen == nbits h 12 12

/-- First and number of the handle slots of a sector (R258). -/
def allotment (s : State) (sec : Nat) : Nat × Nat := (fld (s.sec sec).record 64 12, fld (s.sec sec).record 76 13)

/-- The slot that the next allocation of a sector takes: the first FREE one after the last, in rotation (R214). -/
def nextSlot (s : State) (sec : Nat) : Option Nat :=
  let (base, n) := allotment s sec
  let from_ := match tfind s.cmds.lastSlot sec with
    | none => base
    | some l => l + 1
  ((List.range n).map fun i => base + (from_ - base + i) % n).find? fun i => (s.slot i).st == .free

/-- A slot allocated for a sector with the contents `x`; its generation advances, and its last completion object goes (R214, R217). -/
def allocSlot (s : State) (sec i : Nat) (x : Slot) : State :=
  let s1 := s.setSlot i { x with st := .inflight, used := true, obj := Completion.blank, gen := ((s.slot i).gen + 1) % 4096, sector := sec, sgen := (s.sec sec).gen }
  { s1 with cmds := { s1.cmds with lastSlot := tput s1.cmds.lastSlot sec i } }

/-- A slot freed; its generation and completion object stay (R214, R217). -/
def freeSlot (s : State) (i : Nat) : State :=
  s.setSlot i { s.slot i with st := .free, cmd := .none, input := [], pages := [] }

/-- The 256 bits of a completion object (R217). -/
def objBits (o : Completion) : Nat :=
  pack [(128, 64, o.time), (96, 32, o.result.toNat), (64, 32, o.tag.toNat), (32, 16, o.status), (0, 32, o.handle.toNat)]

/-! ## Routes -/

/-- The links of the fixed route between two seats, by their numbers in `CH_STATE` (R26, R27, R460). -/
def route (a b : Nat) : List Nat :=
  if a = b then []
  else if a < 4 && b < 4 then
    match a, b with
    | 0, 1 => [0] | 1, 0 => [0] | 2, 3 => [1] | 3, 2 => [1]
    | 0, 2 => [2] | 2, 0 => [2] | 1, 3 => [3] | 3, 1 => [3]
    | 0, 3 => [2, 1] | 3, 0 => [3, 0] | 1, 2 => [3, 1] | _, _ => [2, 0]
  else if a < 4 then [4 * (b - 3) + a]
  else if b < 4 then [4 * (a - 3) + b]
  else if a = 6 || b = 6 then [13]
  else [12]

/-- A link that has not trained. -/
def Link.fresh : Link := { up := false, due := false, window := 0, retries := 0 }

/-- A link is up (R330, R332). -/
def linkUp (s : State) (l : Nat) : Bool := (tget s.chord.links l Link.fresh).up

/-- Every link of the route between two seats is up (R28). -/
def routeUp (s : State) (a b : Nat) : Bool := (route a b).all (linkUp s)

/-- A request of a unit on seat `a` reaches seat `b` and its response comes back: two-hop routes of the two directions differ (R27, R28,
R332). -/
def roundTrip (s : State) (a b : Nat) : Bool := routeUp s a b && routeUp s b a

/-! ## Device-originated messages -/

/-- Messages of a unit on seat `seat` reach a home (R28). -/
def devReach (s : State) (seat dest : Nat) : Bool := routeUp s seat (dieOf (s.siteOf dest))

/-- A device-originated message sent by the unit of a die to a home, with the next count of its destination and class; it has arrived at once
on the same die (R27, R68, R70, R188), and is discarded where a link of its route is down (R28, R331).
Log entries 145 (DEDUCED), 146 (DEDUCED). -/
def devMsg (s : State) (seat dest cls len payload : Nat) (origin : Origin) (sec : Nat) : State :=
  if !(devReach s seat dest) then s
  else
    let n := tget s.sync.devSeqs (dest * 256 + cls) 0
    let m : Msg := { id := s.id, seat := seat, pc := 0, src := 0x1FF, dest := dest, cls := cls, len := len, seq := n, bytes := toBytes 56 payload,
                     poison := false, away := decide (seat ≠ dieOf (s.siteOf dest)), sector := sec, gen := (s.sec sec).gen,
                     origin := origin }
    { s.takeId with sync := { s.sync with msgs := s.sync.msgs ++ [m], devSeqs := tput s.sync.devSeqs (dest * 256 + cls) ((n + 1) % 65536) } }

/-- A completion written to a slot that is INFLIGHT under its own generation, with its report sent (R217, R218);
a completion of a retired sector generation is squashed (R265). -/
def finishOne (s : State) (i status : Nat) (result : Word) (time : Nat) : State :=
  let x := s.slot i
  if x.st ≠ .inflight || x.sgen ≠ (s.sec x.sector).gen then s
  else
    let o : Completion := { time := time, result := result, tag := x.tag, status := status, handle := BitVec.ofNat 32 (handleOf i x) }
    let s1 := s.setSlot i { x with st := .complete, cmd := .none, obj := o }
    if x.rep = 1 && x.dkind = 0 && !(devReach s1 (4 + x.hub) x.dest) then freeSlot s1 i
    else if x.rep = 1 && x.dkind = 0 then devMsg s1 (4 + x.hub) x.dest 36 24 (objBits o) (.report (handleOf i x)) x.sector
    else if x.rep = 1 then freeSlot (raiseVector s1 x.sector x.dest 36 (objBits o)) i
    else if x.rep = 2 then raiseIbi s1 x.hub { mdb := 1, bytes := toBytes 4 (handleOf i x) ++ toBytes 2 status, handle := some (handleOf i x) }
    else s1

/-- The queued commands whose `after` names a handle (R216, R220). -/
def dependants (s : State) (h : Nat) : List Nat :=
  (s.cmds.slots.filter fun p => p.2.st == .inflight && p.2.cmd == .queued && p.2.after != 0xFFFFFFFF &&
    p.2.after.toNat % 2 ^ 24 == h % 2 ^ 24).map Prod.fst

/-- The occurrence that a trigger armed is armed no longer: the command does not run, and has no effect (R220, R242). -/
def unarm (s : State) (h : Nat) : State :=
  let off (e : SchEntry) : SchEntry := { e with armed := e.armed.filter fun a => a.2 != h }
  { s with sched := { s.sched with entries := tmap (fun _ e => off e) s.sched.entries } }

/-- The command of a slot cannot run: an occurrence that it armed is armed no longer. -/
def unarmSlot (s : State) (i : Nat) : State := if (s.slot i).code = 0xC0 then unarm s (handleOf i (s.slot i)) else s

/-- A completion with the commands that fail because they came after it (R220), to depth `n`. -/
def finishTo : Nat → State → Nat → Nat → Word → Nat → State
  | 0, s, _, _, _, _ => s
  | n + 1, s, i, status, result, time =>
    let h := handleOf i (s.slot i)
    let s1 := finishOne s i status result time
    if status = 0 then s1
    else (dependants s1 h).foldl (fun a j => finishTo n (unarmSlot a j) j 0x010B 0 time) s1

/-- The command of slot `i` completes (R217, R220). -/
def finish (s : State) (i status : Nat) (result : Word) (time : Nat) : State := finishTo 4096 s i status result time

/-- The command of handle `h` completes, unless its slot has moved on. -/
def finishH (s : State) (h status : Nat) (result : Word) (time : Nat) : State :=
  if s.holds h then finish s (slotOf h) status result time else s

/-- The effect of a started command is done: its completion waits for `ENGINE_COMMAND_COMPLETE` (R217). -/
def done (s : State) (i status : Nat) (result : Word) : State :=
  s.setSlot i { s.slot i with cmd := .done status result }

/-- The started command of slot `i` waits for a later event (R219). -/
def waitOn (s : State) (i : Nat) : State := s.setSlot i { s.slot i with cmd := .waiting }

end Sys2Proof.Machine
end

