-- ==== Sys2Proof/Machine/Vertex.lean ====
section
/-! DEFINITION. Vertex objects, watches and Apex barriers as their units apply them (R172-R202), and the teardown
of a context (R186, R187, R223-R225). -/

namespace Sys2Proof.Machine

/-- An object that has never been allocated (R174). -/
def VObj.never : VObj := { st := .free, gen := 0, value := 0, owner := 0, sector := 0 }

/-- The unit of an object reference (R173). -/
def refUnit (r : Nat) : Nat := nbits r 29 3

/-- The key of the object that a reference names in the table of objects. -/
def refKey (r : Nat) : Nat := refUnit r * 4096 + nbits r 0 12

/-- The objects of a unit (R172). -/
def unitSize (u : Nat) : Nat := if u < 4 then 4096 else 1024

/-- The watches of a unit (R172). -/
def unitWatches (u : Nat) : Nat := if u < 4 then 1024 else 256

/-- Object `k`. -/
def State.vobj (s : State) (k : Nat) : VObj := tget s.sync.objs k VObj.never

/-- Object `k` replaced. -/
def State.setVobj (s : State) (k : Nat) (o : VObj) : State := { s with sync := { s.sync with objs := tput s.sync.objs k o } }

/-- The status of a reference used from a sector, zero when it may be used (R175). -/
def refStatus (s : State) (sec r : Nat) : Nat :=
  let o := s.vobj (refKey r)
  if 6 ≤ refUnit r || nbit r 28 || unitSize (refUnit r) ≤ nbits r 0 12 then 0x0501
  else if o.st = .free || o.sector ≠ sec then 0x0503
  else if nbits r 12 16 ≠ o.gen then 0x0502
  else if o.st = .lost then 0x0504
  else 0

/-- The condition of a watch holds for a value (R181). -/
def watchHolds (w : Watch) (v : Nat) : Bool :=
  match w.cond with
  | 0 => decide (w.cmp ≤ v)
  | 1 => v == w.cmp
  | 2 => v != w.cmp
  | _ => false

/-- The 24 payload bytes of a wake (R185). -/
def wakeBody (w : Watch) (cause value time : Nat) : Nat :=
  pack [(128, 64, time), (96, 32, w.cookie), (64, 32, value), (32, 32, w.ref), (0, 8, cause)]

/-- A watch removed from its unit. -/
def dropWatch (s : State) (id : Nat) : State :=
  { s with sync := { s.sync with watches := s.sync.watches.filter fun w => w.id != id } }

/-- A message leaves the table of messages. -/
def dropMsg (s : State) (id : Nat) : State :=
  { s with sync := { s.sync with msgs := s.sync.msgs.filter fun m => m.id != id } }

/-- What the deposit of a message frees: the watch whose wake it was (R183), or the slot that it reports (R215). -/
def delivered (s : State) (m : Msg) : State :=
  match m.origin with
  | .watch id => dropWatch s id
  | .report h => if s.holds h && (s.slot (slotOf h)).st == .complete then freeSlot s (slotOf h) else s
  | _ => s

/-- The handle status of a `VT_WATCH` by the cause of its release (R184). -/
def watchStatus (cause : Nat) : Nat := if cause = 4 then 0x0504 else if cause = 5 then 0x050D else 0

/-- A watch released with a cause and an observed value (R178, R183-R186): a Facet's wake waits in the unit
as a message, a core vector is raised, a handle completes. Log entry 163 (DESIGN CHOICE). -/
def releaseWatch (s : State) (w : Watch) (cause value : Nat) : State :=
  let cls := if cause = 4 then 33 else 32
  let body := wakeBody w cause value s.now
  match w.handle with
  | some h =>
    let s1 := dropWatch s w.id
    let s2 := if w.dkind = 1 then raiseVector s1 w.sector w.dest cls body else s1
    finishH s2 h (watchStatus cause) (BitVec.ofNat 32 value) s.now
  | none =>
    if w.dkind = 1 then dropWatch (raiseVector s w.sector w.dest cls body) w.id
    else if !(devReach s w.unit w.dest) then dropWatch s w.id
    else
      let s1 := { s with sync := { s.sync with watches := s.sync.watches.map fun v =>
        if v.id = w.id then { v with wake := some (cause, value, s.now) } else v } }
      devMsg s1 w.unit w.dest cls 24 body (.watch w.id) w.sector

/-- The unreleased watches on the object of a reference, earliest registered first (R176). -/
def watchesOn (s : State) (r : Nat) : List Watch :=
  s.sync.watches.filter fun w => refKey w.ref == refKey r && w.wake == none

/-- A post of value `v` on a reference from a sector: the status, and the state after it (R176). -/
def vtPostOn (s : State) (sec r v : Nat) : Nat × State :=
  let st := refStatus s sec r
  if st ≠ 0 then (st, s)
  else
    let o := s.vobj (refKey r)
    let n := o.value.toNat + v
    if 2 ^ 32 ≤ n then (0x0505, s)
    else
      let s1 := s.setVobj (refKey r) { o with value := BitVec.ofNat 32 n }
      match (watchesOn s1 r).find? (watchHolds · n) with
      | none => (0, s1)
      | some w => (0, releaseWatch s1 w 1 n)

/-- A set to value `v` on a reference from a sector (R177). -/
def vtSetOn (s : State) (sec r v : Nat) : Nat × State :=
  let st := refStatus s sec r
  if st ≠ 0 then (st, s)
  else
    let s1 := s.setVobj (refKey r) { s.vobj (refKey r) with value := BitVec.ofNat 32 v }
    (0, ((watchesOn s1 r).filter (watchHolds · (v % 2 ^ 32))).foldl (fun a w => releaseWatch a w 2 (v % 2 ^ 32)) s1)

/-- A register of a watch with its quota and table checks (R182, R260); it is released at once when its
condition already holds. -/
def vtRegister (s : State) (w : Watch) : Nat × State :=
  let u := refUnit w.ref
  let st := refStatus s w.sector w.ref
  if st ≠ 0 then (st, s)
  else
    let onUnit := s.sync.watches.filter (·.unit == u)
    let mine := onUnit.filter (·.sector == w.sector)
    if unitWatches u ≤ onUnit.length || fld (s.sec w.sector).record (896 + 16 * u) 16 ≤ mine.length then (0x0506, s)
    else
      let w' := { w with id := s.id, unit := u }
      let s1 := { s.takeId with sync := { s.sync with watches := s.sync.watches ++ [w'] } }
      let v := (s.vobj (refKey w.ref)).value.toNat
      (0, if watchHolds w' v then releaseWatch s1 w' 3 v else s1)

/-- Every watch on an object released with a cause (R186). -/
def releaseAll (s : State) (k cause : Nat) : State :=
  (s.sync.watches.filter fun w => refKey w.ref == k && w.wake == none).foldl
    (fun a w => releaseWatch a w cause (s.vobj k).value.toNat) s

/-- An object freed by its unit (R186). -/
def freeObj (s : State) (k : Nat) : State :=
  let s1 := s.setVobj k { s.vobj k with st := .free }
  releaseAll s1 k 5

/-- An object lost with its owner (R186). -/
def loseObj (s : State) (k : Nat) : State :=
  let s1 := s.setVobj k { s.vobj k with st := .lost }
  releaseAll s1 k 4

/-! ## Barriers (R189-R195) -/

/-- A barrier that does not exist. -/
def Barrier.never : Barrier :=
  { live := false, gen := 0, parts := [], nx := 0, round := 0, arrived := [], gone := [], handles := [], narr := 0,
    dup := (0, 0), broken := false, owner := 0, sector := 0 }

/-- The key of a barrier: die barriers 64d + n, device barriers 256 + n (R190). -/
def barKey (r : Nat) : Nat := if nbit r 31 then 256 + nbits r 0 6 else 64 * nbits r 28 3 + nbits r 0 6

/-- The reference of barrier `k` under its present generation (R190). -/
def barRef (s : State) (k : Nat) : Nat :=
  let g := (tget s.sync.bars k Barrier.never).gen
  if 256 ≤ k then pack [(31, 1, 1), (16, 12, g), (0, 6, k - 256)] else pack [(28, 3, k / 64), (16, 12, g), (0, 6, k % 64)]

/-- The seat of the unit or root that counts barrier `k` (R189). -/
def barSeat (k : Nat) : Nat := if 256 ≤ k then (if k < 264 then 4 else 5) else k / 64

/-- Barrier `k`. -/
def State.bar (s : State) (k : Nat) : Barrier := tget s.sync.bars k Barrier.never

/-- Barrier `k` replaced. -/
def State.setBar (s : State) (k : Nat) (b : Barrier) : State := { s with sync := { s.sync with bars := tput s.sync.bars k b } }

/-- The status of a barrier reference used from a sector: malformed, stale or of another sector (R193). -/
def barStatus (s : State) (sec r : Nat) : Nat :=
  let b := s.bar (barKey r)
  let shape := nbits r 6 10 = 0 && (if nbit r 31 then nbits r 28 3 = 0 && nbits r 0 6 < 16 else nbits r 28 3 < 4)
  if shape && b.live && b.sector = sec && b.gen = nbits r 16 12 then 0 else 0x0510

/-- The payload of a release or break message of barrier `k` (R192). -/
def barBody (s : State) (k : Nat) : Nat := pack [(64, 64, s.now), (32, 32, (s.bar k).round), (0, 32, barRef s k)]

/-- The logged arrival on a reference whose round has completed took effect (R197). -/
def markArrived (l : List SigEntry) (r : Nat) (body : Option Nat) : List SigEntry :=
  match lfind (fun e => e.op == 3 && e.ref == r && e.await) l with
  | none => l
  | some i => lmod l i fun e => match body with
    | some b => { e with took := true, await := false, body := b }
    | none => { e with await := false }

/-- A home's arrival ends with its round, in the log of the step that runs and in the logs kept of its steps that have stopped: it took effect
where the round completed, and its release is kept (R196, R197). -/
def markRound (s : State) (h r : Nat) (body : Option Nat) : State :=
  let s1 := s.modFacet (s.siteOf h) fun f => { f with log := if f.home = h then markArrived f.log r body else f.log }
  let inTask (t : TaskOut) : TaskOut := if t.home = h then { t with log := markArrived t.log r body } else t
  { s1 with sched := { s1.sched with occs := s1.sched.occs.map fun o => { o with tasks := o.tasks.map inTask } } }

/-- The counters of a barrier's root and their copy (R189). -/
def countsOf (b : Barrier) : Nat × Nat := (b.arrived.length, b.narr)

/-- The root compares its two copies of a barrier's counters at an arrival (R189): a disagreement is a fault signalled to the Meridian of its
half, with the barrier as its detail (R420). -/
def barCompare (s : State) (k : Nat) : State :=
  let b := s.bar k
  if countsOf b = b.dup then s else dieFault s 0x17 k (barSeat k)

/-- A round completes: every participant and every waiting handle is released (R191). -/
def barComplete (s : State) (k : Nat) : State :=
  let b := s.bar k
  let r := barRef s k
  let s1 := b.parts.foldl (fun a h =>
    let a1 := markRound a h r (some (barBody s k))
    if b.gone.contains h then a1 else devMsg a1 (barSeat k) h 34 16 (barBody s k) .barrier b.sector) s
  let s2 := s1.setBar k { b with round := (b.round + 1) % 2 ^ 32, arrived := [], gone := [], handles := [], narr := 0, dup := (0, 0) }
  b.handles.foldl (fun a h => finishH a h 0 0 s.now) s2

/-- The round completes when everyone has arrived (R191). -/
def barCheck (s : State) (k : Nat) : State :=
  let b := s.bar k
  if b.parts.all (b.arrived.contains ·) && b.narr = b.nx then barComplete s k else s

/-- A round broken: the Facets that arrived are told, waiting handles fail, and its arrivals are discarded (R193). -/
def barBreak (s : State) (k : Nat) : State :=
  let b := s.bar k
  let s1 := b.arrived.foldl (fun a h =>
    let a1 := markRound a h (barRef s k) none
    if b.gone.contains h then a1 else devMsg a1 (barSeat k) h 35 16 (barBody s k) .barrier b.sector) s
  let s2 := s1.setBar k { b with arrived := [], gone := [], handles := [], narr := 0, dup := (0, 0), broken := true }
  b.handles.foldl (fun a h => finishH a h 0x0513 0 s.now) s2

/-- A barrier broken and destroyed with its owner (R194). -/
def barDestroy (s : State) (k : Nat) : State :=
  let s1 := barBreak s k
  s1.setBar k { s1.bar k with live := false, broken := false }

/-- A Facet of home `h` arrives (R191, R193, R194). Log entry 164 (DESIGN CHOICE). -/
def barArrive (s : State) (sec h r : Nat) : Nat × State :=
  let k := barKey r
  let b := s.bar k
  let st := barStatus s sec r
  if st ≠ 0 then (st, s)
  else if b.broken then (0x0513, s)
  else if !(b.parts.contains h) then (0x0511, s)
  else if b.arrived.contains h then (0x0512, s)
  else (0, barCheck ((barCompare s k).setBar k { b with arrived := b.arrived ++ [h], dup := (b.dup.1 + 1, b.dup.2) }) k)

/-- What a stopped step with signal log `l` does to the barriers its home takes part in: a round in which it has not arrived breaks, and
the releases of rounds in which it arrived are discarded (R193). Log entry 32 (DEDUCED). -/
def barStop (s : State) (h : Nat) (l : List SigEntry) : State :=
  let mine := (l.filter fun e => e.op = 3 && e.took).map fun e => toBytes 56 e.body
  s.sync.bars.foldl (fun a p =>
    let b := p.2
    if b.live && b.parts.contains h then
      if b.arrived.contains h then a.setBar p.1 { a.bar p.1 with gone := h :: (a.bar p.1).gone }
      else barBreak a p.1
    else a) { s with sync := { s.sync with msgs := s.sync.msgs.filter fun m => !(m.cls == 34 && m.dest == h && mine.contains m.bytes) } }

/-- Watches that a step registered are removed and their wakes that wait are discarded (R184). -/
def stepWatches (s : State) (site : Nat) : State :=
  let ids := (s.sync.watches.filter fun w => w.site == some site).map Watch.id
  { s with sync := { s.sync with watches := s.sync.watches.filter fun w => !(ids.contains w.id),
                                 msgs := s.sync.msgs.filter fun m => match m.origin with
                                   | .watch id => !(ids.contains id)
                                   | _ => true } }

/-! ## Contexts (R204, R223-R225) -/

/-- The key of a window: core windows 512 hub + n, cores 0 to 7 being those of Hub W, host windows 2048 + n. -/
def winKey : WinRef → Nat
  | .core hub n => 512 * hub.val + n
  | .host _ n => 2048 + n

/-- A closed window (R203). -/
def Window.closed : Window := { isOpen := false, ovf := false, sector := 0, ctx := 0, hub := 0, fifo := [], last := 0xFFFFFFFF }

/-- Window `k`. -/
def State.win (s : State) (k : Nat) : Window := tget s.cmds.windows k Window.closed

/-- Window `k` replaced. -/
def State.setWin (s : State) (k : Nat) (w : Window) : State := { s with cmds := { s.cmds with windows := tput s.cmds.windows k w } }

/-- A command whose effect is still to come: it has started, or it waits with its effect (`VT_FREE`, `STR_TX`). -/
def effectOpen (x : Slot) : Bool := x.cmd == .started || (x.cmd == .waiting && (x.code == 0x71 || x.code == 0xB2))

/-- One slot of a torn-down context (R224 steps 3-5): a command's object says so, and the slot is free; the effect of a started command still
stands when it comes. -/
def tearSlot (s : State) (i : Nat) : State :=
  let x := s.slot i
  match x.st with
  | .inflight =>
    let o : Completion := { time := s.now, result := 0, tag := x.tag, status := 0x010C, handle := BitVec.ofNat 32 (handleOf i x) }
    let s1 := if x.cmd = .queued then unarmSlot s i else s
    let s2 := if effectOpen x then { s1 with cmds := { s1.cmds with torn := s1.cmds.torn ++ [(handleOf i x, x)] } } else s1
    freeSlot (s2.setSlot i { x with obj := o }) i
  | .complete => freeSlot s i
  | .free => s

/-- A unit applies an operation of source `key` at this instant: none with a later stamp, or with a greater key at this stamp, has gone before
it (R179). Log entry 29 (DESIGN CHOICE). -/
def unitTakes (s : State) (u key : Nat) : Bool :=
  match tfind s.sync.order u with
  | none => true
  | some (t, k) => decide (t < s.now) || (t == s.now && decide (k ≤ key + 1))

/-- A unit has applied an operation of source `key` at this instant (R179). -/
def unitTook (s : State) (u key : Nat) : State := { s with sync := { s.sync with order := tput s.sync.order u (s.now, key + 1) } }

/-- The instant at which an operation of source `key` that is issued now reaches its unit: the first at which no operation that R179 puts after
it has been applied. -/
def unitStamp (s : State) (u key : Nat) : Nat :=
  match tfind s.sync.order u with
  | none => s.now
  | some (t, k) => if t < s.now then s.now else if k ≤ key + 1 then t else t + 1

/-- The operation `g` of source `key` applied by a unit at the instant at which it reaches it (R179). Log entry 29 (DESIGN CHOICE). -/
def atUnit (s : State) (u key : Nat) (g : State → State) : State :=
  { g (unitTook { s with now := unitStamp s u key } u key) with now := s.now }

/-- The seats of the units that a command is yet to reach (R219); none for a command that goes to no unit. -/
def cmdUnits (s : State) (x : Slot) : List Nat :=
  let ref := fld x.body 224 32
  if x.code = 0x70 || x.code = 0x78 then [fld x.body 16 3]
  else if x.code = 0x71 then (((List.range (fld x.body 24 8)).map fun i => leAt x.input (4 * i) 4).filter (· != 0xFFFFFFFF)).map refUnit
  else if x.code = 0x72 || x.code = 0x73 || x.code = 0x74 then [refUnit ref]
  else if x.code = 0x75 then ((s.sync.watches.filter fun w => w.handle.any fun h => h % 2 ^ 24 == fld x.body 288 24).map Watch.unit)
  else if x.code = 0x79 || x.code = 0x7A then [barSeat (barKey ref)]
  else []

/-- A command has started, and an operation of it has yet to reach its unit. -/
def unitOpen (x : Slot) : Bool := x.cmd == .started || (x.cmd == .waiting && x.code == 0x71)

/-- An earlier command of the same source has not reached a unit of this one (R179). -/
def cmdBehind (s : State) (x : Slot) (u : Nat) : Bool :=
  ((s.cmds.slots.filter fun p => p.2.st == .inflight).map Prod.snd ++ s.cmds.torn.map Prod.snd).any fun y =>
    unitOpen y && y.key == x.key && decide (y.order < x.order) && (cmdUnits s y).contains u

/-- The unit of a Vertex command does not apply it now: another operation goes before it (R179). -/
def unitBusy (s : State) (x : Slot) (u : Nat) : Bool := cmdBehind s x u || !(unitTakes s u x.key)

/-- A completion or an operation of a unit bars instant `t` from the teardown of some contexts: it would have to go before what has already
happened at its own stamp (R186, R224). The slots `own` are of commands whose failure is the teardown's cause, and are reported before it (R223). -/
def tearBarred (s : State) (cs own : List Nat) (t : Nat) : Bool :=
  (s.sync.order.any fun p => p.2.1 == t && p.2.2 != 0) ||
  s.cmds.slots.any fun p => cs.contains p.2.ctx && !(own.contains p.1) && p.2.kind != 2 && p.2.used && p.2.st != .inflight && p.2.obj.time == t &&
    p.2.obj.status != 0x010C

/-- The stamp of a teardown of some contexts: the first instant, from now and from the stamps of earlier teardowns on, that nothing bars.
Log entry 29 (DESIGN CHOICE). -/
def tearStamp (s : State) (cs own : List Nat) : Nat :=
  let t := Nat.max s.now (lmax (s.sync.order.map fun p => p.2.1))
  if tearBarred s cs own t then t + 1 else t

/-- The slots of a context that a teardown ends (R224). -/
def ctxSlots (s : State) (c : Nat) : List Nat := (s.cmds.slots.filter fun p => p.2.ctx == c && p.2.st != .free && p.2.kind != 2).map Prod.fst

/-- The window of a context closes, its own watches go without a wake (R187), and its commands lose to the teardown (R224 steps 1 and 3 to 5). -/
def tearCtx (s : State) (c : Nat) : State :=
  match tfind s.cmds.ctxs c with
  | none => s
  | some cx =>
    let k := winKey cx.window
    let s1 := s.setWin k { s.win k with isOpen := false, fifo := [] }
    let mine := ctxSlots s1 c
    let hs := mine.map fun i => handleOf i (s1.slot i)
    let s2 := { s1 with sync := { s1.sync with watches := s1.sync.watches.filter fun w =>
      match w.handle with
      | some h => !(hs.contains h)
      | none => true } }
    let s3 := mine.foldl tearSlot s2
    { s3 with cmds := { s3.cmds with ctxs := tdel s3.cmds.ctxs c } }

/-- The objects and barriers of a context go with it (R186, R194). -/
def tearObjs (s : State) (c : Nat) : State :=
  let s1 := (s.sync.objs.filter fun p => p.2.owner == c && p.2.st == .live).foldl (fun a p => loseObj a p.1) s
  (s1.sync.bars.filter fun p => p.2.owner == c && p.2.live).foldl (fun a p => barDestroy a p.1) s1

/-- Contexts torn down at `s.now` (R186, R187, R224): their own commands lose to the teardown before their objects and barriers go, and commands of
other contexts that depend on one of theirs fail (R225). -/
def tearDownNow (s : State) (cs : List Nat) : State :=
  let live := cs.filter fun c => (tfind s.cmds.ctxs c).isSome
  let hs := live.flatMap fun c => (ctxSlots s c).map fun i => handleOf i (s.slot i)
  let s1 := live.foldl tearObjs (live.foldl tearCtx s)
  hs.foldl (fun a h => (dependants a h).foldl (fun b j => finish (unarmSlot b j) j 0x010B 0 s.now) a) s1

/-- Contexts torn down by one event at one stamp, before any operation of that stamp on any unit (R186). -/
def tearDownAll (s : State) (cs own : List Nat) : State :=
  let t := tearStamp s cs own
  let s1 := tearDownNow { s with now := t } cs
  let late (o : Tab (Nat × Nat)) (u : Nat) : Tab (Nat × Nat) := if (tfind o u).any fun p => p.1 == t then o else tput o u (t, 0)
  { s1 with now := s.now, sync := { s1.sync with order := if t = s.now then s1.sync.order else (List.range 6).foldl late s1.sync.order } }

/-- A context torn down. -/
def tearDown (s : State) (c : Nat) : State := tearDownAll s [c] []

/-- Every context that satisfies `p` torn down. -/
def tearDownIf (s : State) (p : Ctx → Bool) : State :=
  let cs := (s.cmds.ctxs.filter fun e => p e.2).map Prod.fst
  if cs.isEmpty then s else tearDownAll s cs []

end Sys2Proof.Machine
end

