-- ==== Sys2Proof/Machine/Lines.lean ====
section
/-! DEFINITION. Stacked DRAM as it is written and read (R21, R278, R306), its dirty bits (R270), the mirror of an offset
(R387), and the translation of a sector's addresses (R261-R263). -/

namespace Sys2Proof.Machine

/-- `n` bytes of DRAM from an offset. -/
def dramRead (s : State) (o n : Nat) : List Byte := mreads s.mem.dram o n

/-- The line of an offset is poisoned. -/
def dramBad (s : State) (o : Nat) : Bool := tget s.mem.dramPoison (o / 64) false

/-- A line that a range of DRAM touches is poisoned. -/
def dramBadIn (s : State) (o n : Nat) : Bool :=
  if n = 0 then false else (List.range ((o + n - 1) / 64 + 1 - o / 64)).any fun i => tget s.mem.dramPoison (o / 64 + i) false

/-- Granule `g` is granted by a sector record (R258). -/
def granted (rec : BitVec 1536) (g : Nat) : Bool := decide (g < 256) && rec.getLsbD (256 + g)

/-- A range of DRAM lies wholly in the granules of a record (R262). -/
def inGranules (rec : BitVec 1536) (o n : Nat) : Bool :=
  decide (o + n ≤ 2 ^ 36) && (List.range ((o + n - 1) / 2 ^ 28 + 1 - o / 2 ^ 28)).all fun i => granted rec (o / 2 ^ 28 + i)

/-- The sector that logs writes to a granule: the one that holds it, not FREE and logging (R270). -/
def loggingOn (s : State) (g : Nat) : Bool :=
  s.sectors.any fun p => p.2.st != .free && p.2.dirtyOn && granted p.2.record g

/-- The dirty bit of the page of an offset set where its sector logs (R270). -/
def markDirty (s : State) (o : Nat) : State :=
  if loggingOn s (o / 2 ^ 28) then { s with mem := { s.mem with dirty := tput s.mem.dirty (o / 4096) true } } else s

/-- The device writes a KV control area, whose layout is private (R120): which of its pages it writes is a free choice, and each gets its dirty
bit (R270). Log entry 149 (DESIGN CHOICE). -/
def touchArea (s : State) (area : List Nat) : State :=
  let l := area.filter fun o => loggingOn s (o / 2 ^ 28)
  if l.isEmpty then s
  else (l.zipIdx.foldl (fun a p => if Config.freeBool (s.free + p.2) then markDirty a p.1 else a) s).takeFree l.length

/-- What accepting a write of a line leaves behind it: its dirty bit, and a scheduled write-back of the line that is discarded (R270,
R307). -/
def accepted (s : State) (o : Nat) : State :=
  let n := o / 2 ^ 34
  let x := tget s.mem.scrubs n Scrub.fresh
  markDirty (if x.wb.contains (o / 64) then
    { s with mem := { s.mem with scrubs := tput s.mem.scrubs n { x with wb := x.wb.filter (· != o / 64) } } } else s) o

/-- The mask of a write, none where it writes the whole line. -/
def partMask (m : Nat) : Option Nat := if m = 2 ^ 64 - 1 then none else some m

/-- One line written (R280, R306): a write of the whole line, with no byte mask, clears poison, a masked one merges, and a poisoned line of
data poisons the line. -/
def dramLine (s : State) (o : Nat) (data : List Byte) (mask : Option Nat) (poison : Bool) : State :=
  let l := o / 64
  let p := poison || (mask.isSome && tget s.mem.dramPoison l false)
  accepted { s with mem := { s.mem with dram := mwritem s.mem.dram (64 * l) (mask.getD (2 ^ 64 - 1)) data,
                                         dramPoison := tset s.mem.dramPoison l p false } } o

/-- Bytes written from an offset: lines written whole lose their poison, lines written in part keep it (R306). -/
def dramWrite (s : State) (o : Nat) (bytes : List Byte) : State :=
  if bytes.isEmpty then s
  else
    let e := o + bytes.length
    let s1 := (List.range ((e - 1) / 64 + 1 - o / 64)).foldl (fun a i =>
      let l := o / 64 + i
      let a1 := if o ≤ 64 * l && 64 * l + 64 ≤ e then { a with mem := { a.mem with dramPoison := tdel a.mem.dramPoison l } } else a
      accepted a1 (64 * l)) s
    { s1 with mem := { s1.mem with dram := mwrites s1.mem.dram o bytes } }

/-- The line of an offset poisoned or cleared. -/
def dramSetPoison (s : State) (o : Nat) (p : Bool) : State :=
  { s with mem := { s.mem with dramPoison := tset s.mem.dramPoison (o / 64) p false } }

/-- The mirror of a DRAM offset: the same place in the stack of the other half's partner (R387). -/
def mirrorOf (o : Nat) : Nat := o ^^^ 0x800000000

/-- The stack of a DRAM offset (R279). -/
def stackOf (o : Nat) : Nat := o / 2 ^ 34

/-- Lines issued for a master in the present window. -/
def issuedLines (s : State) (n m : Nat) : Nat := tget s.mem.counts (48 * n + m) 0

/-- Lines counted for a master (R293). -/
def countLines (s : State) (n m k : Nat) : State :=
  let s1 := { s with mem := { s.mem with counts := tput s.mem.counts (48 * n + m) (issuedLines s n m + k) } }
  s1.count64 0x3430 (48 * n + m) k

/-! ## The address decode of a stack (R279, R312) -/

/-- The row of a DRAM offset. -/
def dramRow (o : Nat) : Nat := nbits o 20 14

/-- The bank index of a DRAM offset. -/
def dramBank (o : Nat) : Nat := nbits o 15 5 ^^^ nbits o 25 5

/-- The pseudo-channel index of a DRAM offset. -/
def dramPc (o : Nat) : Nat := nbits o 8 5 ^^^ nbits o 20 5

/-- The row of a DRAM offset as a pending-repair entry names it. -/
def rowEntry (o : Nat) : Nat := pack [(19, 5, dramPc o), (14, 5, dramBank o), (0, 14, dramRow o)]

/-! ## The queues of the controllers (R280, R281) -/

/-- The number of a pseudo-channel's queue. -/
def queueOf (o : Nat) : Nat := 32 * stackOf o + dramPc o

/-- A queue. -/
def State.queue (s : State) (k : Nat) : List QReq := tget s.mem.queues k []

/-- A queue replaced. -/
def State.setQueue (s : State) (k : Nat) (q : List QReq) : State := { s with mem := { s.mem with queues := tset s.mem.queues k q [] } }

/-- A master that cannot wait (R280, R289). -/
def realTime (m : Nat) : Bool := m == 0 || m == 1 || m == 4

/-- A queue takes another request of a master: four of its 48 entries are kept for the real-time masters (R280). -/
def roomFor (q : List QReq) (m : Nat) : Bool :=
  if realTime m then decide (q.length < 48)
  else decide (q.length - Nat.min 4 (q.filter fun r => realTime r.master).length < 44)

/-- The class of an offset under the range entries in force (R296). -/
def classOf (s : State) (o : Nat) : Nat :=
  match s.mem.ranges.find? fun e => e.getLsbD 24 && decide (fld e 0 24 ≤ o / 4096) && decide (o / 4096 < fld e 32 25) with
  | some e => fld e 64 2
  | none => 0

/-- A request of one line put in its queue; its place in order is the model's next number. -/
def enqueue (s : State) (o : Nat) (write : Bool) (master source : Nat) : State :=
  let k := queueOf o
  let r : QReq := { no := s.id, off := o / 64 * 64, write := write, master := master, cls := classOf s o, source := source, time := s.now }
  s.takeId.setQueue k (s.queue k ++ [r])

/-- The controller of a stack runs: its reset wire is released and its clocks are not stopped; a compute reset of its Prism does not touch it
(R21, R334, R528, R537). -/
def ctlUp (s : State) (n : Nat) : Bool := !(lget s.dev.mrst n true) && (tfind s.plant.trips n).isNone && !s.plant.gated

/-- Lines of one waiting run enter their queues in order while those have room and their controllers run (R280); how many are left. -/
def pullLines (write : Bool) (master source : Nat) : Nat → State → Nat → State × Nat
  | 0, s, _ => (s, 0)
  | n + 1, s, o =>
    if roomFor (s.queue (queueOf o)) master && ctlUp s (stackOf o) then pullLines write master source n (enqueue s o write master source) (o + 64)
    else (s, n + 1)

/-- What waits at the ingress is accepted as far as the queues have room; a source's own runs stay in order (R280, R281). -/
def pullIngress (s : State) : State :=
  let w := s.mem.ingress
  w.foldl (fun a r =>
    let keep (b : State) (o n : Nat) : State :=
      { b with mem := { b.mem with ingress := b.mem.ingress ++ [{ off := o, n := n, write := r.write, master := r.master, source := r.source }] } }
    if a.mem.ingress.any fun q => q.source == r.source then keep a r.off r.n
    else
      let p := pullLines r.write r.master r.source r.n a r.off
      if p.2 = 0 then p.1 else keep p.1 (r.off + 64 * (r.n - p.2)) p.2) { s with mem := { s.mem with ingress := [] } }

/-- Lines from an offset that a unit's own command moves at one instant: each goes to its queue, or waits at the ingress (R280, R281, R291). Log
entry 84 (DEDUCED). -/
def engineLines (s : State) (o n : Nat) (write : Bool) (master source : Nat) : State :=
  if n = 0 then s
  else pullIngress { s with mem := { s.mem with ingress := s.mem.ingress ++ [{ off := o / 64 * 64, n := n, write := write, master := master, source := source }] } }

/-- The source of a hub engine that is a master of its own (R281). -/
def engineSrc (m : Nat) : Nat := 0x50000 + m

/-- The source of a Prism's carry, restore and image agent (R281). -/
def agentSrc (die : Nat) : Nat := 0x10000 + die

/-- The source that a line request belongs to (R281): a mover channel of a Facet, or a Prism's own agent. -/
def sourceOf (r : LineReq) : Nat := if r.carry then agentSrc r.die else 16 * r.site + r.ch

/-- The request of a tag. -/
def findReq (s : State) (tag : Nat) : Option LineReq := s.mem.reqs.find? fun r => r.tag == tag

/-- A request removed. -/
def dropReq (s : State) (tag : Nat) : State := { s with mem := { s.mem with reqs := s.mem.reqs.filter fun r => r.tag != tag } }

/-- A request marked as accepted by its controller. -/
def acceptReq (s : State) (tag : Nat) : State :=
  { s with mem := { s.mem with reqs := s.mem.reqs.map fun r => if r.tag = tag then { r with accepted := true } else r } }

/-- The generation of a request is its sector's present one (R265). -/
def current (s : State) (r : LineReq) : Bool := r.gen == (s.sec r.sector).gen

/-- The requests of a Prism's own agent for some lines that no controller has accepted come before what the agent does with those lines now:
they are accepted in order, or squashed (R265, R281). Log entry 84 (DEDUCED). -/
def settleOwn (s : State) (die : Nat) (offs : List Nat) : State :=
  (s.mem.reqs.filter fun r => r.carry && r.die == die && !r.accepted && offs.any fun o => o / 64 == r.off / 64).foldl (fun a r =>
    if !(current a r) then dropReq a r.tag
    else acceptReq (enqueue (if r.write then dramLine a r.off r.data (partMask r.mask.toNat) r.poison else a) r.off r.write r.master (sourceOf r)) r.tag) s

/-- A line that the agent of a Prism reads or writes at one instant, as master 8 (R281, R291). -/
def agentLine (s : State) (die o : Nat) (write : Bool) : State := engineLines s o 1 write 8 (agentSrc die)

/-- A line written by the agent of a Prism, whole, with its poison. -/
def agentWrite (s : State) (die o : Nat) (data : List Byte) (poison : Bool) : State :=
  agentLine (dramLine (settleOwn s die [o]) o data none poison) die o true

/-- The lines of a range that an engine's own command reads or writes. -/
def countRange (s : State) (o n m : Nat) (write : Bool) : State :=
  if n = 0 then s else engineLines s o ((o + n - 1) / 64 + 1 - o / 64) write m (engineSrc m)

/-! ## Translation (R261-R263) -/

/-- The page of an offset belongs to a device-owned area: a KV control area (R120) or a Prism area (R166). -/
def deviceOwned (s : State) (o : Nat) : Bool :=
  (s.kv.any fun p => p.2.area.contains (o / 4096 * 4096)) ||
  (s.work.images.any fun p => p.2.prisms.any fun q => q.pages.contains (o / 4096 * 4096))

/-- One walk from a table, over the levels that remain, given as their lowest address bit (R261, R262). -/
def walk (s : State) (rec : BitVec 1536) (va : Nat) (write : Bool) : List Nat → Nat → Option Nat
  | [], _ => none
  | sh :: rest, table =>
    let at_ := table + 8 * (va / 2 ^ sh % 512)
    if !(inGranules rec table 4096) || dramBad s at_ then none
    else
      let e := ofBytes (dramRead s at_ 8)
      let pa := nbits e 12 24 * 4096
      if !(nbit e 0) || nbits e 36 28 ≠ 0 || nbits e 4 8 ≠ 0 then none
      else if nbit e 1 then
        if sh = 39 || pa % 2 ^ sh ≠ 0 || (nbit e 3 && !(nbit e 2)) || !(inGranules rec pa (2 ^ sh)) then none
        else if (if write then nbit e 3 else nbit e 2) then some (pa + va % 2 ^ sh) else none
      else if nbit e 2 || nbit e 3 then none
      else walk s rec va write rest pa

/-- The root of a sector's tables (R258). -/
def troot (rec : BitVec 1536) : Nat := fld rec 144 36

/-- The DRAM offset that a sector address names for an access, or none on a translation or permission fault (R262). Log entry 19 (DESIGN CHOICE). -/
def translate (s : State) (sec va : Nat) (write : Bool) : Option Nat :=
  if 2 ^ 48 ≤ va then none
  else match walk s (s.sec sec).record va write [39, 30, 21, 12] (troot (s.sec sec).record) with
    | none => none
    | some o => if deviceOwned s o then none else some o

/-- The latched translation of every 4 KiB page that a range touches (R212, R263): pairs of page address and
DRAM offset; none when a page is not mapped with the access. -/
def latchPages (s : State) (sec va n : Nat) (write : Bool) : Option (List (Nat × Nat)) :=
  if n = 0 then some []
  else if 2 ^ 48 < va + n then none
  else
    (List.range ((va + n - 1) / 4096 + 1 - va / 4096)).foldr (fun i acc =>
      match acc, translate s sec ((va / 4096 + i) * 4096) write with
      | some l, some o => some (((va / 4096 + i) * 4096, o) :: l)
      | _, _ => none) (some [])

/-- The offset of an address through latched pages; zero where they do not cover it. -/
def paged (pages : List (Nat × Nat)) (va : Nat) : Nat :=
  match pages.find? fun p => p.1 == va / 4096 * 4096 with
  | some p => p.2 + va % 4096
  | none => 0

/-- Bytes read through latched pages. -/
def pagedRead (s : State) (pages : List (Nat × Nat)) (va n : Nat) : List Byte :=
  (List.range n).map fun i => mread s.mem.dram (paged pages (va + i))

/-- A line read through latched pages is poisoned. -/
def pagedBad (s : State) (pages : List (Nat × Nat)) (va n : Nat) : Bool :=
  if n = 0 then false else (List.range ((va + n - 1) / 64 + 1 - va / 64)).any fun i => dramBad s (paged pages ((va / 64 + i) * 64))

/-- Bytes written through latched pages, a run per page. -/
def pagedWrite (s : State) (pages : List (Nat × Nat)) (va : Nat) (bytes : List Byte) : State :=
  if bytes.isEmpty then s
  else (List.range ((va + bytes.length - 1) / 4096 + 1 - va / 4096)).foldl (fun a i =>
    let lo := Nat.max va ((va / 4096 + i) * 4096)
    let hi := Nat.min (va + bytes.length) ((va / 4096 + i + 1) * 4096)
    dramWrite a (paged pages lo) ((bytes.drop (lo - va)).take (hi - lo))) s

/-- Pages of a range that an engine's command reads or writes, page by page (R291). -/
def countPaged (s : State) (pages : List (Nat × Nat)) (va n m : Nat) (write : Bool) : State :=
  if n = 0 then s
  else (List.range ((va + n - 1) / 4096 + 1 - va / 4096)).foldl (fun a i =>
    let lo := Nat.max va ((va / 4096 + i) * 4096)
    let hi := Nat.min (va + n) ((va / 4096 + i + 1) * 4096)
    countRange a (paged pages lo) (hi - lo) m write) s

/-- The offset of byte `i` of an area that starts on a page boundary plus `first`. -/
def areaAt (pages : List Nat) (first i : Nat) : Nat := lget pages ((first + i) / 4096) 0 + (first + i) % 4096

/-- Lines of an area that an engine reads or writes (R291). -/
def countArea (s : State) (pages : List Nat) (first i n m : Nat) (write : Bool) : State :=
  (List.range (ceilDiv n 64)).foldl (fun a k => engineLines a (areaAt pages first (i + 64 * k)) 1 write m (engineSrc m)) s

/-- Latched offsets of the pages of an area, as the area stores them (R263). -/
def pageOffsets (pages : List (Nat × Nat)) : List Nat := pages.map Prod.snd

/-- Bytes of an area. -/
def areaRead (s : State) (pages : List Nat) (first i n : Nat) : List Byte :=
  (List.range n).map fun j => mread s.mem.dram (areaAt pages first (i + j))

/-- Bytes written to an area, a line at a time. -/
def areaWrite (s : State) (pages : List Nat) (first i : Nat) (bytes : List Byte) (mirror : Bool) : State :=
  (List.range (ceilDiv bytes.length 64)).foldl (fun a k =>
    let o := areaAt pages first (i + 64 * k)
    dramWrite a (if mirror then mirrorOf o else o) ((bytes.drop (64 * k)).take 64)) s

end Sys2Proof.Machine
end

