-- ==== Sys2Proof/Machine/Numbers.lean ====
section
/-! DEFINITION. The twelve number formats (R77) as exact values, the one rounding of the device (R75, R80, R81)
and the correctly rounded functions of R98. -/

namespace Sys2Proof.Machine

/-- The exact value of an element: a NaN, an infinity, or a signed number `m * 2^e` (a zero keeps its sign, R79). -/
inductive Num where
  | nan
  | inf (neg : Bool)
  | fin (neg : Bool) (m : Nat) (e : Int)
  deriving DecidableEq, Repr

/-- A positive zero. -/
def Num.zero : Num := .fin false 0 0

/-- One. -/
def Num.one : Num := .fin false 1 0

/-- An integer as a value. -/
def Num.ofInt (v : Int) : Num := .fin (decide (v < 0)) v.natAbs 0

/-- The value is an infinity or a NaN. -/
def Num.special : Num → Bool
  | .fin _ _ _ => false
  | _ => true

/-- The value with its sign changed. -/
def Num.neg : Num → Num
  | .nan => .nan
  | .inf n => .inf (!n)
  | .fin n m e => .fin (!n) m e

/-- The magnitude as an integer multiple of `2^b`, for `b` not above its exponent. -/
def Num.scaled (m : Nat) (e b : Int) : Nat := m * 2 ^ (e - b).toNat

/-- The signed integer multiple of `2^b` that a finite value is. -/
def Num.at : Num → Int → Int
  | .fin n m e, b => if n then -((Num.scaled m e b : Nat) : Int) else (Num.scaled m e b : Nat)
  | _, _ => 0

/-- The exponent of a value's last place; zero for a special value. -/
def Num.exp : Num → Int
  | .fin _ _ e => e
  | _ => 0

/-- The exact product (R86, R97): NaN for a NaN or for zero times infinity (R87). -/
def Num.mul : Num → Num → Num
  | .nan, _ => .nan
  | _, .nan => .nan
  | .inf a, .inf b => .inf (a != b)
  | .inf a, .fin b m _ => if m = 0 then .nan else .inf (a != b)
  | .fin a m _, .inf b => if m = 0 then .nan else .inf (a != b)
  | .fin a m e, .fin b n f => .fin (a != b) (m * n) (e + f)

/-- The exact sum (R79, R87): opposite infinities give NaN; an exact zero is +0 unless both are −0. -/
def Num.add : Num → Num → Num
  | .nan, _ => .nan
  | _, .nan => .nan
  | .inf a, .inf b => if a = b then .inf a else .nan
  | .inf a, .fin _ _ _ => .inf a
  | .fin _ _ _, .inf b => .inf b
  | .fin a m e, .fin b n f =>
    if m = 0 && n = 0 then .fin (a && b) 0 0
    else
      let g := if e ≤ f then e else f
      let v := Num.at (.fin a m e) g + Num.at (.fin b n f) g
      .fin (decide (v < 0)) v.natAbs g

/-- The exact sum of a list. -/
def Num.sum (l : List Num) : Num :=
  match l with
  | [] => Num.zero
  | x :: r => r.foldl Num.add x

/-- An order in which −0 lies below +0 (R79); neither value is a NaN. -/
def Num.lt : Num → Num → Bool
  | .inf a, .inf b => a && !b
  | .inf a, _ => a
  | _, .inf b => !b
  | .fin a m e, .fin b n f =>
    if m = 0 && n = 0 then a && !b
    else
      let g := if e ≤ f then e else f
      decide (Num.at (.fin a m e) g < Num.at (.fin b n f) g)
  | _, _ => false

/-- The greater value, NaN when either is one (R97). -/
def Num.max (a b : Num) : Num :=
  match a, b with
  | .nan, _ => .nan
  | _, .nan => .nan
  | _, _ => if a.lt b then b else a

/-- The lesser value, NaN when either is one (R97). -/
def Num.min (a b : Num) : Num :=
  match a, b with
  | .nan, _ => .nan
  | _, .nan => .nan
  | _, _ => if b.lt a then b else a

/-! ## Formats (R77) -/

/-- A format: element bits, mantissa bits and bias, and whether it has infinities and NaNs. -/
structure Fmt where
  bits : Nat
  mant : Nat
  bias : Int
  inf  : Bool
  nan  : Bool
  deriving DecidableEq, Repr

/-- The floating-point formats by code (R77); codes 0 to 4 are integers and 0xB is E8M0. -/
def fmtOf (c : Nat) : Fmt :=
  match c with
  | 0x0 => { bits := 4, mant := 0, bias := 0, inf := false, nan := false }
  | 0x1 => { bits := 8, mant := 0, bias := 0, inf := false, nan := false }
  | 0x2 => { bits := 8, mant := 0, bias := 0, inf := false, nan := false }
  | 0x3 => { bits := 16, mant := 0, bias := 0, inf := false, nan := false }
  | 0x4 => { bits := 32, mant := 0, bias := 0, inf := false, nan := false }
  | 0x5 => { bits := 4, mant := 1, bias := 1, inf := false, nan := false }
  | 0x6 => { bits := 8, mant := 3, bias := 7, inf := false, nan := true }
  | 0x7 => { bits := 8, mant := 2, bias := 15, inf := true, nan := true }
  | 0x8 => { bits := 16, mant := 10, bias := 15, inf := true, nan := true }
  | 0x9 => { bits := 16, mant := 7, bias := 127, inf := true, nan := true }
  | 0xA => { bits := 32, mant := 23, bias := 127, inf := true, nan := true }
  | _ => { bits := 8, mant := 0, bias := 127, inf := false, nan := true }

/-- The format is an integer one. -/
def isInt (c : Nat) : Bool := decide (c < 5)

/-- Least value of an integer format (R77). -/
def intLo (c : Nat) : Int := if c = 2 then 0 else -((2 ^ ((fmtOf c).bits - 1) : Nat) : Int)

/-- Greatest value of an integer format (R77). -/
def intHi (c : Nat) : Int := if c = 2 then 255 else ((2 ^ ((fmtOf c).bits - 1) : Nat) : Int) - 1

/-- The magnitude code of the largest finite value of a floating-point format (R77). -/
def maxCode (c : Nat) : Nat :=
  match c with
  | 0x5 => 0x7
  | 0x6 => 0x7E
  | 0x7 => 0x7B
  | 0x8 => 0x7BFF
  | 0x9 => 0x7F7F
  | _ => 0x7F7FFFFF

/-- The canonical NaN of a floating-point format (R77). -/
def nanCode (c : Nat) : Nat :=
  match c with
  | 0x6 => 0x7F
  | 0x7 => 0x7E
  | 0x8 => 0x7E00
  | 0x9 => 0x7FC0
  | 0xA => 0x7FC00000
  | 0xB => 0xFF
  | _ => 0

/-- The exact value of an encoding (R77). -/
def decodeNum (c v : Nat) : Num :=
  let f := fmtOf c
  if c = 2 then .fin false (v % 256) 0
  else if isInt c then Num.ofInt (sgn f.bits v)
  else if c = 0xB then (if v % 256 = 255 then .nan else .fin false 1 ((v % 256 : Nat) - 127))
  else
    let s := nbit v (f.bits - 1)
    let e := nbits v f.mant (f.bits - 1 - f.mant)
    let m := nbits v 0 f.mant
    let top := 2 ^ (f.bits - 1 - f.mant) - 1
    if f.inf && e = top then (if m = 0 then .inf s else .nan)
    else if c = 6 && e = 15 && m = 7 then .nan
    else if e = 0 then .fin s m (1 - f.bias - f.mant)
    else .fin s (2 ^ f.mant + m) ((e : Int) - f.bias - f.mant)

/-! ## Rounding (R75, R80, R81) -/

/-- The quotient `a / b` rounded to the nearest integer, ties to even; `b` is not zero. -/
def rneDiv (a b : Nat) : Nat :=
  let q := a / b
  let r := a % b
  if 2 * r > b || (2 * r == b && q % 2 == 1) then q + 1 else q

/-- `n/d * 2^e` rounded to the nearest integer, ties to even. -/
def rneScaled (n d : Nat) (e : Int) : Nat :=
  if 0 ≤ e then rneDiv (n * 2 ^ e.toNat) d else rneDiv n (d * 2 ^ (-e).toNat)

/-- The floor of the base-2 logarithm of `n/d`, both positive. -/
def log2Q (n d : Nat) : Int :=
  let g : Int := (n.log2 : Int) - d.log2
  if (if 0 ≤ g then decide (d * 2 ^ g.toNat ≤ n) else decide (d ≤ n * 2 ^ (-g).toNat)) then g else g - 1

/-- The magnitude code on the grid of format `c` nearest to `n/d * 2^e`, with no upper limit (R80). -/
def gridCode (c n d : Nat) (e : Int) : Nat :=
  if n = 0 then 0
  else
    let f := fmtOf c
    let least : Int := 1 - f.bias - f.mant
    let l := log2Q n d + e
    let q := if l - f.mant < least then least else l - f.mant
    (q - least).toNat * 2 ^ f.mant + rneScaled n d (e - q)

/-- What a write of one element gives: its bits, whether it counts as saturated, whether as a canonical NaN (R82). -/
structure Wr where
  code : Nat
  sat  : Bool
  nan  : Bool
  deriving DecidableEq, Repr

/-- `±n/d * 2^e` converted to floating-point format `c` (R80). -/
def encFloat (c : Nat) (neg : Bool) (n d : Nat) (e : Int) : Wr :=
  let f := fmtOf c
  let g := gridCode c n d e
  let s := b2n neg * 2 ^ (f.bits - 1)
  if g ≤ maxCode c then { code := s + g, sat := false, nan := false }
  else if f.inf then { code := s + (maxCode c + 1), sat := false, nan := false }
  else { code := s + maxCode c, sat := true, nan := false }

/-- An integer saturated to integer format `c` (R81). -/
def encInt (c : Nat) (v : Int) : Wr :=
  let lo := intLo c
  let hi := intHi c
  let w := if v < lo then lo else if hi < v then hi else v
  { code := lowBits (fmtOf c).bits w, sat := decide (w ≠ v), nan := false }

/-- `±n/d * 2^e` converted to any format but E8M0 (R80, R81). -/
def encQ (c : Nat) (neg : Bool) (n d : Nat) (e : Int) : Wr :=
  if isInt c then
    let r := rneScaled n d e
    encInt c (if neg then -(r : Int) else (r : Int))
  else encFloat c neg n d e

/-- An exact value converted to format `c` (R78, R80, R81). -/
def encNum (c : Nat) (v : Num) : Wr :=
  let f := fmtOf c
  match v with
  | .nan => if f.nan then { code := nanCode c, sat := false, nan := true } else { code := 0, sat := true, nan := false }
  | .inf neg =>
    if isInt c then { code := lowBits f.bits (if neg then intLo c else intHi c), sat := true, nan := false }
    else if f.inf then { code := b2n neg * 2 ^ (f.bits - 1) + (maxCode c + 1), sat := false, nan := false }
    else { code := b2n neg * 2 ^ (f.bits - 1) + maxCode c, sat := true, nan := false }
  | .fin neg m e => encQ c neg m 1 e

/-- An exact value rounded to FP32 (the manual's rne32). -/
def rne32 (v : Num) : Num := decodeNum 0xA (encNum 0xA v).code

/-- A word read as FP32. -/
def fp32 (w : Word) : Num := decodeNum 0xA w.toNat

/-- A value rounded to FP32, as a word. -/
def toFp32 (v : Num) : Word := BitVec.ofNat 32 (encNum 0xA v).code

/-- An integer saturated to INT32 (the manual's sat32), with whether it clipped. -/
def sat32 (v : Int) : Int × Bool :=
  if v < -2147483648 then (-2147483648, true) else if 2147483647 < v then (2147483647, true) else (v, false)

/-! ## Reciprocal, reciprocal square root and power of two (R98) -/

/-- The floor of a square root, found bit by bit from bit `b` down. -/
def isqrtFrom (n : Nat) : Nat → Nat → Nat
  | 0, r => if (r + 1) * (r + 1) ≤ n then r + 1 else r
  | b + 1, r =>
    let r' := r + 2 ^ (b + 1)
    isqrtFrom n b (if r' * r' ≤ n then r' else r)

/-- The floor of a square root. -/
def isqrt (n : Nat) : Nat := isqrtFrom n (n.log2 / 2 + 1) 0

/-- 1 / a, rounded once to FP32 (R98). -/
def rcp32 : Num → Word
  | .nan => 0x7FC00000
  | .inf n => if n then 0x80000000 else 0
  | .fin n m e => if m = 0 then (if n then 0xFF800000 else 0x7F800000) else BitVec.ofNat 32 (encFloat 0xA n 1 m (-e)).code

/-- 1 / √a, rounded once to FP32 (R98). The quotient is formed to 64 bits below its last place with a sticky
bit, which no tie can meet. -/
def rsq32 : Num → Word
  | .nan => 0x7FC00000
  | .inf n => if n then 0x7FC00000 else 0
  | .fin n m e =>
    if m = 0 then (if n then 0xFF800000 else 0x7F800000)
    else if n then 0x7FC00000
    else
      let odd : Bool := e % 2 == 1
      let m' := if odd then 2 * m else m
      let h := (if odd then e - 1 else e) / 2
      let v := 2 ^ 400 / m'
      let r := isqrt v
      let sticky := if r * r * m' = 2 ^ 400 then 0 else 1
      BitVec.ofNat 32 (encFloat 0xA false (2 * r + sticky) 1 (-201 - h)).code

/-- ln 2 times 2^320, by its series. -/
def ln2Fix : Nat := (List.range 340).foldl (fun a k => a + 2 ^ (340 - (k + 1)) * 2 ^ 40 / (k + 1)) 0 / 2 ^ 60

/-- `t^k / k!` summed for `k` up to `n`, in units of 2^-320. -/
def expSeries (t : Nat) : Nat → Nat → Nat → Nat
  | 0, _, _ => 0
  | n + 1, k, term => term + expSeries t n (k + 1) (term * t / 2 ^ 320 / (k + 1))

/-- 2^f in units of 2^-320, for `f` in [0, 1) in units of 2^-320. -/
def exp2Fix (f : Nat) : Nat := if f = 0 then 2 ^ 320 else expSeries (f * ln2Fix / 2 ^ 320) 90 0 (2 ^ 320)

/-- 2^a, rounded once to FP32 (R98). The exponential is formed to 320 bits, beyond the least distance of a
result from a rounding boundary (log entry 9). -/
def exp232 : Num → Word
  | .nan => 0x7FC00000
  | .inf n => if n then 0 else 0x7F800000
  | .fin n m e =>
    if m = 0 then 0x3F800000
    else
      let fix : Int := Num.at (.fin n m e) (-320)
      if 128 * (2 ^ 320 : Nat) ≤ fix then 0x7F800000
      else if fix ≤ -(150 * (2 ^ 320 : Nat) : Nat) then 0
      else
        let k := fix / ((2 ^ 320 : Nat) : Int)
        let f := (fix % ((2 ^ 320 : Nat) : Int)).toNat
        let sticky := if f = 0 then 0 else 1
        BitVec.ofNat 32 (encFloat 0xA false (2 * exp2Fix f + sticky) 1 (k - 321)).code

end Sys2Proof.Machine
end

