-- ==== Sys2Proof/Machine/Judge.lean ====
section
/-! DEFINITION. The occurrences of the schedule and their outcomes (R241), the views that steps hold (R128, R129), signatures and
checkpoints (R390, R391), suspect sites (R431-R433), and the judgement of the
Congruence units (R392-R395, R399, R400, R407, R415). -/

namespace Sys2Proof.Machine

/-! ## Schedule entries (R231) -/

/-- An entry's homes. -/
def entHomes (r : BitVec 256) : List Nat := ((List.range 72).filter fun i => r.getLsbD i).map (128 * fld r 72 2 + ·)

/-- An entry's kind: 0 work, 1 reference figure, 2 self-test. -/
def entKind (r : BitVec 256) : Nat := fld r 196 2

/-- An entry's Prism. -/
def entDie (r : BitVec 256) : Nat := fld r 72 2

/-- An entry's tick slot. -/
def entSlot (r : BitVec 256) : Nat := fld r 74 6

/-- An entry is marked paired. -/
def entPair (r : BitVec 256) : Bool := r.getLsbD 195

/-- An entry is sporadic. -/
def entSpor (r : BitVec 256) : Bool := r.getLsbD 198

/-- An entry's sector. -/
def entSector (r : BitVec 256) : Nat := fld r 250 6

/-- Entry `e` of the schedule table. -/
def State.ent (s : State) (e : Nat) : Option SchEntry := tfind s.sched.entries e

/-- The record of entry `e`, zero where the table holds none. -/
def State.entRaw (s : State) (e : Nat) : BitVec 256 := ((s.ent e).map SchEntry.raw).getD 0

/-- Gnomon time at which tick `n` opens (R228). -/
def tickStart (s : State) (n : Nat) : Nat := n * s.tickNs

/-! ## Occurrences of the schedule -/

/-- The occurrence of entry `e` in tick `n` changed by `g`. -/
def modOcc (s : State) (e n : Nat) (g : Occ → Occ) : State :=
  { s with sched := { s.sched with occs := s.sched.occs.map fun o => if o.entry = e && o.tick = n then g o else o } }

/-- The outcome of one task of an occurrence changed by `g`. -/
def modTask (s : State) (e n h : Nat) (g : TaskOut → TaskOut) : State :=
  modOcc s e n fun o => { o with tasks := o.tasks.map fun t => if t.home = h then g t else t }

/-- The occurrence of entry `e` in tick `n`. -/
def findOcc (s : State) (e n : Nat) : Option Occ := s.sched.occs.find? fun o => o.entry == e && o.tick == n

/-! ## Views (R128, R129) -/

/-- The view with an identifier, with the number of its pool. -/
def findView (s : State) (id : Nat) : Option (Nat × View) :=
  s.kv.findSome? fun p => (p.2.views.find? fun v => v.id == id).map fun v => (p.1, v)

/-- A page of a pool (R121). -/
def pageAt (p : Pool) (n : Nat) : Page := tget p.page n { st := .free, maps := 0, pins := 0 }

/-- A view released: its pins fall (R129). -/
def releaseView (s : State) (id : Nat) : State :=
  match findView s id with
  | none => s
  | some (k, v) =>
    match tfind s.kv k with
    | none => s
    | some p =>
      let pg := v.pins.foldl (fun t n => tput t n { pageAt { p with page := t } n with pins := (pageAt { p with page := t } n).pins - 1 }) p.page
      touchArea { s with kv := tput s.kv k { p with page := pg, views := p.views.filter fun w => w.id != id } } p.area

/-- Every view that an occurrence's steps hold, released. -/
def releaseViews (s : State) (e n : Nat) : State :=
  (s.kv.flatMap fun p => (p.2.views.filter fun v => v.entry == e && v.tick == n).map View.id).foldl releaseView s

/-- The view that the step of home `h` in an occurrence holds, released. -/
def releaseViewOf (s : State) (e n h : Nat) : State :=
  (s.kv.flatMap fun p => (p.2.views.filter fun v => v.entry == e && v.tick == n && v.home == h).map View.id).foldl releaseView s

/-! ## Outcomes (R241, R242) -/

/-- The outcome of a task rests on both copies: its occurrence runs paired, and the debugger has not tainted the step, whose main copy is
accepted alone (R410). -/
def needsBoth (o : Occ) (t : TaskOut) : Bool := o.paired && !t.tainted

/-- Every copy that an occurrence needs of a task has completed. -/
def taskEnded (o : Occ) (t : TaskOut) : Bool := t.mainEnd.isSome && (!(needsBoth o t) || t.chkEnd.isSome)

/-- The carry writes that an occurrence needs of a task are complete. -/
def carriesDone (o : Occ) (t : TaskOut) : Bool := t.carryDone && (!(needsBoth o t) || t.chkCarryDone)

/-- A task's step succeeded, matched where it is paired, and its carry set is written. -/
def taskGood (o : Occ) (t : TaskOut) : Bool :=
  taskEnded o t && (!(needsBoth o t) || (t.verdict == some true && t.cverdict == some true)) && carriesDone o t

/-- The stage completion of an occurrence: the latest completion of its steps (R244, R393). -/
def stageEnd (o : Occ) : Nat := lmax (o.tasks.flatMap fun t => [t.mainEnd.getD 0, if o.paired then t.chkEnd.getD 0 else 0])

/-- The handle of an occurrence completes at `t`, and its trigger now (R241, R242). -/
def settleAt (s : State) (e n status : Nat) (result : Word) (t : Nat) : State :=
  match findOcc s e n with
  | none => s
  | some o =>
    let s1 := match o.handle with
      | none => s
      | some h => finishH s h status result t
    let s2 := match o.trigger with
      | none => s1
      | some h => finishH s1 h status (BitVec.ofNat 32 n) s1.now
    modOcc s2 e n fun o => { o with handle := none, trigger := none }

/-- The handle and the trigger of an occurrence complete now. -/
def settle (s : State) (e n status : Nat) (result : Word) : State := settleAt s e n status result s.now

/-- The instant at which the ordered replays of an occurrence have been accepted: the later stamp of the pair that was last (R400); of a single
entry now. -/
def acceptedAt (s : State) (o : Occ) : Nat := if o.paired then lmax ((o.tasks.filter TaskOut.replay).map TaskOut.vstamp) else s.now

/-- The cause code of the first failing task in ascending home order, zero where no step raised one (R241). -/
def firstCauseOf (o : Occ) : Nat :=
  ((sortBy TaskOut.home o.tasks).findSome? fun t => match t.mainCause, t.chkCause with
    | some c, _ => some c.code
    | none, some c => some c.code
    | none, none => none).getD 0

/-- Status and result of an occurrence that failed: those of its first attempt (R241). -/
def failure (o : Occ) : Nat × Word :=
  match o.first with
  | some r => r
  | none => if o.wfault && !o.stepFailed && !o.overrun && o.tasks.all (taskGood o) then (0x0608, 0)
    else (0x0110, BitVec.ofNat 32 (firstCauseOf o))

/-- The handle completes at once where the outcome is final: a first attempt with every step good and its window met, or every
ordered replay accepted, which fails where another of its steps had failed for good (R241). Log entry 48 (DEDUCED). -/
def trySettle (s : State) (e n : Nat) : State :=
  match findOcc s e n with
  | none => s
  | some o =>
    if (o.st == .released || o.st == .finished) && !o.wfault && !o.overrun && !o.stepFailed && o.tasks.all (taskGood o) then settle s e n 0 0
    else if o.st == .replaying && o.tasks.all (fun t => !t.replay || t.accepted) then
      if o.tasks.all fun t => t.accepted || taskGood o t then settleAt s e n 0 0 (acceptedAt s o)
      else settleAt s e n (failure o).1 (failure o).2 (acceptedAt s o)
    else s

/-! ## Signatures (R390, R391) -/

/-- One word folded into a signature (R390). -/
def foldWord (m : Dword) (w : Nat) : Dword :=
  let s := (m <<< 1) ^^^ BitVec.ofNat 64 w
  if m.getLsbD 63 then s ^^^ 0x1B else s

/-- A tag word (R390): kind, poison of the source line, and its 48 low bits. -/
def sigTag (kind : Nat) (poison : Bool) (low : Nat) : Nat := pack [(60, 4, kind), (59, 1, b2n poison), (0, 48, low)]

/-- Words folded by a Facet whose step runs paired. -/
def foldF (f : Facet) (ws : List Nat) : Facet :=
  match f.step with
  | none => f
  | some st =>
    if st.paired then { f with misr := ws.foldl foldWord f.misr, words := Nat.min 0xFFFFFFFF (f.words + ws.length) } else f

/-- The eight data words of a line, bytes that a mask leaves out as zero. -/
def lineWords (data : List Byte) (mask : Nat) : List Nat :=
  (List.range 8).map fun i => ofBytes ((List.range 8).map fun j =>
    if nbit mask (8 * i + j) then lget data (8 * i + j) 0 else 0)

/-- The signature record of a checkpoint (R391). -/
def sigRecord (s : State) (f : Facet) (st : Step) : BitVec 512 :=
  BitVec.ofNat 512 (pack [(448, 64, f.misr.toNat), (384, 64, s.now), (352, 32, f.words), (320, 32, st.tick), (310, 10, st.entry),
    (301, 9, st.home), (300, 1, b2n st.checker), (298, 2, if f.cause.isSome then 2 else 0), (297, 1, b2n st.replay),
    (296, 1, b2n (st.trial || !f.debugLog.isEmpty)), (288, 8, (f.cause.map Cause.code).getD 0),
    (256, 32, (f.cause.map fun c => c.pc.toNat).getD 0)])

/-! ## Suspect and standby sites -/

/-- Site `f` is recorded as suspect (R431, R432). -/
def suspect (s : State) (f : Nat) : Bool := nbit (ofBytes (s.octs 0x4045 (dieOf f))) (f % 128)

/-- The suspect sites of a Prism, as site numbers. -/
def suspects (s : State) (d : Nat) : List Nat := (List.range 72).filter fun i => suspect s (128 * d + i)

/-- The condition of a missed lap of Prism `d` (R438). -/
def lapMissed (d : Nat) : Nat := d

/-- A degrading condition clears; the state follows at the next boundary (R7). -/
def undegrade (s : State) (c : Nat) : State := { s with dev := { s.dev with degrading := s.dev.degrading.filter (· != c) } }

/-! ## The latent-fault lap (R437) -/

/-- Every site of a Prism that is not suspect has been covered since its lap started. -/
def lapDone (s : State) (d : Nat) : Bool :=
  (List.range 72).all fun i => suspect s (128 * d + i) || tget s.safety.covered (128 * d + i) false

/-- A lap of a Prism starts at `t`, with nothing covered. Log entry 56 (DEDUCED). -/
def startLapAt (s : State) (d t : Nat) : State :=
  { s with safety := { s.safety with lapStart := tput s.safety.lapStart d t, covered := s.safety.covered.filter fun p => dieOf p.1 != d } }

/-- A lap of a Prism starts now. -/
def startLap (s : State) (d : Nat) : State := startLapAt s d s.now

/-- The instant by which a lap that started at `t` must have ended (R438). -/
def lapEnd (s : State) (t : Nat) : Nat := t + s.num 0x4041 0 * 1000000

/-- A lap ends once every site that is not suspect is covered: its time is kept, a missed lap's condition clears, and the next starts; one past its
deadline has been missed (R437, R438). -/
def checkLap (s : State) (d : Nat) : State :=
  match tfind s.safety.lapStart d with
  | none => s
  | some t => if !(lapDone s d) || lapEnd s t < s.now then s
    else startLap (undegrade (s.setNum 0x4042 d (s.now - t)) (lapMissed d)) d

/-! ## Suspects -/

/-- A site is recorded as suspect (R432); a lap that waited for it alone ends (R437). -/
def markSuspect (s : State) (f : Nat) : State :=
  let m := ofBytes (s.octs 0x4045 (dieOf f))
  if nbit m (f % 128) then s else checkLap (s.setOcts 0x4045 (dieOf f) (toBytes 9 (m + 2 ^ (f % 128)))) (dieOf f)

/-- A site of a Prism that runs the schedule is standby (R22). -/
def isStandby (s : State) (f : Nat) : Bool := s.work.standby.contains f

/-! ## Facet clocks and loads (R415, R518, R530) -/

/-- The power control of a die that has not measured: its clock at the maximum the dictionary gives. -/
def diePower (s : State) (d : Nat) : DiePower :=
  tget s.plant.power d { clock := if d < 4 then s.num 0x4404 0 else s.num 0x4407 (d - 4), recent := [], limited := none, lowered := false, told := false }

/-- The die target of a Prism in MHz (R518). -/
def dieTarget (s : State) (d : Nat) : Nat := (diePower s d).clock

/-- The throttle cap of a Facet site (R530). -/
def throttleCap (s : State) (f : Nat) : Nat := tget s.plant.caps f (s.num 0x4404 0)

/-- The clock of a Facet in MHz (R518). -/
def facetClock (s : State) (f : Nat) : Nat := Nat.min (dieTarget s (dieOf f)) (throttleCap s f)

/-- Mesh hops between two sites (R578). -/
def hops (a b : Nat) : Nat :=
  let r := ((a % 128 / 9 : Nat) : Int) - ((b % 128 / 9 : Nat) : Int)
  let c := ((a % 128 % 9 : Nat) : Int) - ((b % 128 % 9 : Nat) : Int)
  r.natAbs + c.natAbs

/-- The Lattice MAC utilisation of a site over the 10 µs before `stamp`, in percent, as numerator and denominator: its MACs, in 8,192ths of a cycle at
full rate, against those of the cycles of its clock (R29, R60, R415). -/
def macShare (s : State) (stamp f : Nat) : Nat × Nat :=
  let w := lsum Prod.snd ((s.facet f).macs.filter fun p => decide (p.1 ≤ stamp) && decide (stamp < p.1 + 10000))
  (100 * w, 8192 * (10 * facetClock s f))

/-- The mean utilisation of the mesh neighbours of a site, at most 100 (R75, R415). Log entry 59 (DEDUCED). -/
def siteLoad (s : State) (stamp f : Nat) : Nat :=
  let near := (((List.range 72).map (128 * dieOf f + ·)).filter fun g => hops f g == 1).map (macShare s stamp)
  let total := near.foldl (fun a p => (a.1 * p.2 + p.1 * a.2, a.2 * p.2)) (0, near.length)
  Nat.min 100 (rneDiv total.1 total.2)

/-! ## Judgement (R392, R394, R395, R400, R415) -/

/-- Two signature records are of one checkpoint: the same home, entry, tick and attempt (R391). -/
def sameCheckpoint (a b : BitVec 512) : Bool :=
  fld a 297 1 == fld b 297 1 && fld a 301 9 == fld b 301 9 && fld a 310 10 == fld b 310 10 && fld a 320 32 == fld b 320 32

/-- A record is of the checker copy. -/
def recChecker (r : BitVec 512) : Bool := r.getLsbD 300

/-- A record's copy was stopped by a cause. -/
def recStopped (r : BitVec 512) : Bool := fld r 298 2 == 2

/-- The copies match (R392). -/
def recMatch (m c : BitVec 512) : Bool :=
  fld m 298 2 == 0 && fld c 298 2 == 0 && fld m 448 64 == fld c 448 64 && fld m 352 32 == fld c 352 32 && fld m 320 32 == fld c 320 32 &&
  fld m 297 1 == fld c 297 1

/-- An imprecise cause (R71): it leaves the stores undefined (R72). -/
def imprecise (code : Nat) : Bool := code == 0x09 || code == 0x0A || code == 0x0C

/-- What is ordered for a paired checkpoint that does not match: a replay, and a suspect finding (R394). An imprecise cause in every
copy that stopped is taken first. Log entry 43 (DEDUCED). -/
def pairResponse (mStop cStop : Bool) (mc cc : Nat) (mpc cpc : Nat) : Bool × Bool :=
  if !mStop && !cStop then (true, true)
  else if (!mStop || imprecise mc) && (!cStop || imprecise cc) then (true, false)
  else if mStop && cStop && mc == cc && mpc == cpc then (false, false)
  else (true, true)

/-- The temperature of a site's diode and the voltage of its core rail, as the mismatch record takes them (R415). -/
def siteTemp (s : State) (f : Nat) : Nat := lowBits 16 ((tfind s.plant.spots f).map Spot.a |>.getD 0)

/-- The voltage read back from the core rail of a site's Prism in mV (R415, R513). -/
def siteVolt (s : State) (f : Nat) : Nat := s.num 0x4400 (4 * halfOf (dieOf f) + dieOf f % 2) / 65536

/-- A mismatch record (R415). -/
def mismatchRec (s : State) (m c : BitVec 512) (stamp : Nat) (msite csite : Nat) : Nat :=
  pack [(448, 64, stamp), (384, 64, fld m 448 64), (320, 64, fld c 448 64), (288, 32, fld m 320 32), (278, 10, fld m 310 10), (269, 9, fld m 301 9),
    (260, 9, msite), (251, 9, csite), (248, 3, 0), (232, 16, siteTemp s msite), (216, 16, siteTemp s csite), (204, 12, siteVolt s msite),
    (192, 12, siteVolt s csite), (184, 8, siteLoad s stamp msite), (176, 8, siteLoad s stamp csite), (168, 8, fld m 288 8),
    (160, 8, fld c 288 8)]

/-- The mismatch log written (R414, R415). -/
def logMismatch (s : State) (r : Nat) : State :=
  let i := s.num 0x4011 0
  s.setOcts 0x4010 i (toBytes 64 r) |>.setNum 0x4011 0 ((i + 1) % 32)

/-- The outcome of a logged mismatch updated, while its record still stands (R415). -/
def logOutcome (s : State) (i : Nat) (stamp outcome : Nat) : State :=
  let r := ofBytes (s.octs 0x4010 i)
  if nbits r 448 64 = stamp then s.setOcts 0x4010 i (toBytes 64 (r - nbits r 248 3 * 2 ^ 248 + outcome * 2 ^ 248)) else s

/-- The mismatch count of a site rises; at its limit the site is reported (R433). -/
def countMismatch (s : State) (f : Nat) : State :=
  let c := Nat.min 255 (s.num (0x4048 + dieOf f) (f % 128) + 1)
  let s1 := s.setNum (0x4048 + dieOf f) (f % 128) c
  if s.num 0x4044 0 ≤ c then raiseFault s1 s1.now c 0x0A (dieOf f) f 0x3F none else s1

/-- A site that is suspect and waits for its spare (R397, R432). -/
def orderSpare (s : State) (f : Nat) : State :=
  let s1 := markSuspect s f
  if s1.safety.spares.contains f || isStandby s1 f then s1 else { s1 with safety := { s1.safety with spares := s1.safety.spares ++ [f] } }

/-- Both Facets of a finding have concluded: the outcome is logged, and suspects wait for spares or both sites count a mismatch (R395,
R415, R433). -/
def concludeFinding (s : State) (x : Finding) : State :=
  match x.mpass, x.cpass with
  | some true, some true => countMismatch (countMismatch (logOutcome s x.logIx x.stamp 1) x.msite) x.csite
  | some false, some true => orderSpare (logOutcome s x.logIx x.stamp 2) x.msite
  | some true, some false => orderSpare (logOutcome s x.logIx x.stamp 3) x.csite
  | some false, some false => orderSpare (orderSpare (logOutcome s x.logIx x.stamp 4) x.msite) x.csite
  | _, _ => s

/-- A suspect finding ordered on both sites of a mismatched task (R395). One on the same sites whose replay is not ordered yet is joined,
with what its Facets have concluded (R399). Log entry 135 (DEDUCED). -/
def orderFinding (s : State) (o : Occ) (h stamp msite csite logIx : Nat) : State :=
  let f : Finding := { entry := o.entry, tick := o.tick, home := h, logIx := logIx, stamp := stamp, msite := msite, csite := csite,
                       mpass := none, cpass := none }
  match s.safety.findings.find? fun x => x.msite == msite && x.csite == csite with
  | none => { s with safety := { s.safety with findings := s.safety.findings ++ [f] } }
  | some x =>
    let g : Finding := { f with mpass := x.mpass, cpass := x.cpass }
    concludeFinding { s with safety := { s.safety with findings := s.safety.findings ++ [g] } } g

/-- The task of a home in an occurrence has been judged by one unit. -/
def setVerdict (s : State) (e n h : Nat) (main : Bool) (v : Bool) (stamp : Nat) : State :=
  modTask s e n h fun t => if main then { t with verdict := some v, vstamp := stamp } else { t with cverdict := some v, vstamp := stamp }

/-- The occurrence whose step a record belongs to. -/
def recOcc (s : State) (r : BitVec 512) : Option Occ :=
  s.sched.occs.find? fun o => o.entry == fld r 310 10 && o.tick % 2 ^ 32 == fld r 320 32 && o.tasks.any fun t => t.home == fld r 301 9

/-- The replay of one task has failed: the handle completes with the failure of the first attempt and the step is abandoned; the
occurrence has failed once no other replay of it can be accepted (R128, R241, R394). -/
def failTask (s : State) (e n h : Nat) : State :=
  match findOcc s e n with
  | none => s
  | some o =>
    let s1 := releaseViewOf (settle s e n (failure o).1 (failure o).2) e n h
    let s2 := modTask s1 e n h fun t => { t with failed := true }
    modOcc s2 e n fun o => { o with st := if o.tasks.all fun t => !t.replay || t.failed then .failed else o.st }

/-- The mismatches of a step whose findings have not concluded are logged as escalated (R415). -/
def escalate (s : State) (e n h : Nat) : State :=
  (s.safety.findings.filter fun f => f.entry == e && f.tick == n && f.home == h && (f.mpass.isNone || f.cpass.isNone)).foldl
    (fun a f => logOutcome a f.logIx f.stamp 5) s

/-- A paired replay that cannot be accepted raises `FLT_REPLAY_FAIL` as well (R394, R420). -/
def failReplay (s : State) (e n h stamp : Nat) : State :=
  raiseFault (failTask (escalate s e n h) e n h) stamp e 0x06 (dieOf h) (s.siteOf h) 0x3F (some (entSector (s.entRaw e)))

/-- What a mismatch at a unit brings: its count and fault, once for the pair the log record and the suspect finding, and for a replay
its failure (R392, R394, R415). The finding is of the occurrence that was judged. Log entry 46 (DEDUCED). -/
def mismatch (s : State) (unit : Nat) (m c : BitVec 512) (o : Occ) (replay first : Bool) : State :=
  let h := fld m 301 9
  let stamp := Nat.max (fld m 384 64) (fld c 384 64)
  let msite := s.siteOf h
  let csite := s.siteOf (checkerHome h)
  let s1 := raiseFault (s.count64 0x4003 unit 1) stamp o.entry 0x02 unit (if unit = dieOf h then msite else csite) 0x3F (some (entSector (s.entRaw o.entry)))
  if !first then s1
  else
    let i := s1.num 0x4011 0
    let s2 := logMismatch s1 (mismatchRec s1 m c stamp msite csite)
    if replay then failReplay (logOutcome s2 i stamp 5) o.entry o.tick h stamp
    else if (pairResponse (recStopped m) (recStopped c) (fld m 288 8) (fld c 288 8) (fld m 256 32) (fld c 256 32)).2 then
      orderFinding s2 o h stamp msite csite i
    else s2

/-- Both units have judged a task: verdicts that disagree are a Congruence fault of both (R392), and matching ones accept a replay
(R400). -/
def bothJudged (s : State) (o : Occ) (h : Nat) (att : Bool) : State :=
  match (findOcc s o.entry o.tick).bind fun p => p.tasks.find? fun t => t.home == h with
  | none => s
  | some t =>
    match t.verdict, t.cverdict with
    | some a, some b =>
      if a ≠ b then
        let sec := some (entSector (s.entRaw o.entry))
        let s1 := raiseFault s s.now o.entry 0x10 (dieOf h) 0x1FF 0x3F sec
        raiseFault s1 s1.now o.entry 0x10 (dieOf h ^^^ 2) 0x1FF 0x3F sec
      else if a && att then
        trySettle (modTask (s.count64 0x4004 (dieOf h) 1) o.entry o.tick h fun t => { t with accepted := true }) o.entry o.tick
      else trySettle s o.entry o.tick
    | _, _ => s

/-- A record names a checkpoint of an open occurrence: its task, and its attempt. -/
def recNamed (s : State) (r : BitVec 512) : Bool := (recOcc s r).any fun o => r.getLsbD 297 == decide (o.attempts = 2)

/-- Two records that a unit holds are of one checkpoint of a home (R392): they name it alike, or one of them, of the other copy, names none that is
open, as where its tick or attempt is wrong. Log entry 173 (DEDUCED). -/
def recPair (s : State) (a b : BitVec 512) : Bool :=
  recChecker a != recChecker b && (sameCheckpoint a b || (fld a 301 9 == fld b 301 9 && !(recNamed s a && recNamed s b)))

/-- One checkpoint judged by a unit that holds both records (R392). Records on trial are not judged: a difference abandons a join
(R407), and a tainted step's main copy is accepted alone, where it completed (R410). -/
def judgePair (s : State) (unit : Nat) (m c : BitVec 512) : State :=
  let h := fld m 301 9
  let stamp := Nat.max (fld m 384 64) (fld c 384 64)
  let by_ := if recNamed s m then m else c
  match recOcc s by_ with
  | none => s
  | some o =>
    let main := unit == dieOf h
    if m.getLsbD 296 || c.getLsbD 296 then
      if o.paired then
        let s1 := setVerdict s o.entry o.tick h main (!(recStopped m)) stamp
        let lost := o.tasks.any fun t => t.home == h && t.failed
        if recStopped m && by_.getLsbD 297 && !lost then failReplay s1 o.entry o.tick h stamp else bothJudged s1 o h (by_.getLsbD 297)
      else if recMatch m c then s
      else match s.safety.join with
        | .trial _ => { s with safety := { s.safety with join := .abandon h o.tick } }
        | _ => s
    else
      let other := (o.tasks.find? fun t => t.home == h).bind fun t => if main then t.cverdict else t.verdict
      let s1 := setVerdict s o.entry o.tick h main (recMatch m c) stamp
      let s2 := if recMatch m c then s1 else mismatch s1 unit m c o (by_.getLsbD 297) (other != some false)
      bothJudged s2 o h (by_.getLsbD 297)

/-- A unit takes a record, and judges the checkpoint once it holds both (R392). A second copy of a record that it holds is the same
record. -/
def takeRecord (s : State) (unit : Nat) (r : BitVec 512) : State :=
  let mine := s.safety.records.filter fun p => p.1 == unit
  if mine.any fun p => sameCheckpoint p.2 r && recChecker p.2 == recChecker r then s
  else match (mine.filter fun p => recPair s p.2 r && sameCheckpoint p.2 r) ++ mine.filter fun p => recPair s p.2 r with
    | [] => { s with safety := { s.safety with records := s.safety.records ++ [(unit, r)] } }
    | p :: _ =>
      let s1 := { s with safety := { s.safety with records := s.safety.records.erase p } }
      if recChecker r then judgePair s1 unit p.2 r else judgePair s1 unit r p.2

/-- The checkpoint of a copy: the completion tag is folded and its unit takes the record; the same record goes to the partner unit, where
it arrives as `SIGNATURE_RECORD` (R391). -/
def checkpoint (s : State) (site : Nat) : State :=
  let f := s.facet site
  match f.step with
  | none => s
  | some st =>
    if !st.paired then s
    else
      let f1 := foldF f [sigTag 0xF false f.words]
      let s1 := s.setFacet site f1
      takeRecord s1 (dieOf site) (sigRecord s1 f1 st)

end Sys2Proof.Machine
end

