-- ==== Sys2Proof/Machine/Causes.lean ====
section
/-! DEFINITION. A Facet's local store and accumulator with their poison (R49, R50, R74, R93, R306), what a cause does (R71-R73), and what the
debugger does to a paired step (R408-R410). -/

namespace Sys2Proof.Machine

/-! ## Stores of the Facet -/

/-- A byte of local store (R49); a store left undefined reads as free values (R72). -/
def lsByte (f : Facet) (a : Nat) : Byte :=
  match f.lsFree with
  | none => tget f.ls a 0
  | some k => tget f.ls a (Config.freeByte (k * 2 ^ 22 + a))

/-- `n` bytes of local store. -/
def lsRead (f : Facet) (a : Nat) : Nat → List Byte
  | 0 => []
  | n + 1 => lsByte f a :: lsRead f (a + 1) n

/-- A byte of local store written: the table lists no zero while the store is defined. -/
def lsPut (f : Facet) (a : Nat) (v : Byte) : Facet :=
  { f with ls := match f.lsFree with
    | none => tset f.ls a v 0
    | some _ => tput f.ls a v,
           wb := f.wb.filter (· != a / 64) }

/-- Bytes of local store written; poison unchanged. -/
def lsPuts (f : Facet) (a : Nat) : List Byte → Facet
  | [] => f
  | b :: r => lsPuts (lsPut f a b) (a + 1) r

/-- The line of a local-store address is poisoned. -/
def lsBad (f : Facet) (a : Nat) : Bool := twinBad (tget f.lsPoison (a / 64) (false, false))

/-- A line that a range touches is poisoned. -/
def lsBadIn (f : Facet) (a n : Nat) : Bool :=
  if n = 0 then false else (List.range ((a + n - 1) / 64 + 1 - a / 64)).any fun i => twinBad (tget f.lsPoison (a / 64 + i) (false, false))

/-- A range of some that an operation reads touches a poisoned line (R74). -/
def readsBad (f : Facet) (rs : List (Nat × Nat)) : Bool := rs.any fun r => lsBadIn f r.1 r.2

/-- The faulting address of a poisoned read (R72): that of the first byte, in the order in which the operands are listed, that lies in a
poisoned line; `row` where none does. Log entry 139 (DESIGN CHOICE). -/
def poisonAt (f : Facet) (rs : List (Nat × Nat)) (row : Nat) : Nat :=
  ((rs.flatMap fun r => (List.range r.2).map (r.1 + ·)).find? (lsBad f)).getD row

/-- The poison of line `l` set or cleared, in both of its bits (R301). -/
def lsSetPoison (f : Facet) (l : Nat) (p : Bool) : Facet := { f with lsPoison := tset f.lsPoison l (p, p) (false, false) }

/-- Bytes written over a range: lines written whole lose their poison (R306). -/
def lsWrite (f : Facet) (a : Nat) (bytes : List Byte) : Facet :=
  if bytes.isEmpty then f
  else
    let e := a + bytes.length
    (List.range ((e - 1) / 64 + 1 - a / 64)).foldl (fun g i =>
      let l := a / 64 + i
      if a ≤ 64 * l && 64 * l + 64 ≤ e then lsSetPoison g l false else g) (lsPuts f a bytes)

/-- Scattered bytes written by one operation: a line of which it writes all 64 bytes loses its poison (R306). -/
def lsScatter (f : Facet) (ws : List (Nat × Byte)) : Facet :=
  let g := ws.foldl (fun g w => lsPut g w.1 w.2) f
  (f.lsPoison.map Prod.fst).foldl (fun g l =>
    if (List.range 64).all fun i => ws.any fun w => w.1 == 64 * l + i then lsSetPoison g l false else g) g

/-- The key of an accumulator word: row r, column c (R50). -/
def accKey (r c : Nat) : Nat := 64 * r + c

/-- An accumulator word. -/
def accWord (f : Facet) (k : Nat) : Word :=
  match f.accFree with
  | none => tget f.acc k 0
  | some b => tget f.acc k (Config.freeWord (b * 2 ^ 20 + k))

/-- An accumulator word written; its poison ends. -/
def accPut (f : Facet) (k : Nat) (v : Word) : Facet :=
  { f with acc := (match f.accFree with
      | none => tset f.acc k v 0
      | some _ => tput f.acc k v),
           accPoison := tdel f.accPoison k }

/-- A held outlier contribution (R93). -/
def heldWord (f : Facet) (k : Nat) : Word :=
  match f.accFree with
  | none => tget f.held k 0
  | some b => tget f.held k (Config.freeWord (b * 2 ^ 20 + 2 ^ 19 + k))

/-- A held outlier contribution written. -/
def heldPut (f : Facet) (k : Nat) (v : Word) : Facet :=
  { f with held := match f.accFree with
    | none => tset f.held k v 0
    | some _ => tput f.held k v }

/-! ## Causes (R71-R73) -/

/-- A Facet whose stores are undefined from free values `k` on (R72). -/
def undefineStores (f : Facet) (k : Nat) : Facet :=
  { f with ls := [], lsPoison := [], lsFree := some k, wb := [], acc := [], accPoison := [], accFree := some k, held := [] }

/-- The lines of a stopped task's mover: reads are squashed, and a write that no controller has accepted is written or
not by a free choice (R72); carry writes and the requests of other agents stay. -/
def squashLines (s : State) (site : Nat) : State :=
  let keep := s.mem.reqs.zipIdx.filter fun p =>
    p.1.site ≠ site || p.1.carry || (p.1.write && (p.1.accepted || Config.freeBool (s.free + p.2)))
  { s with free := s.free + s.mem.reqs.length, mem := { s.mem with reqs := keep.map Prod.fst } }

/-- The signal log of a site, where an operation that never reached its unit has no status. -/
def sentLog (s : State) (site : Nat) : List SigEntry :=
  (s.sync.vops.filter fun v => v.site == site && v.rsp == none && v.op ≤ 3).foldl (fun l v => lmod l v.lix fun e => { e with status := 0xFFFF, await := false })
    (s.facet site).log

/-- The signal log of a main copy's step, and what its `vt.` instructions returned, are kept with its occurrence (R196, R198). -/
def keepLog (s : State) (site : Nat) : State :=
  match (s.facet site).step with
  | none => s
  | some st =>
    if st.checker then s
    else modTask s st.entry st.tick st.home fun t => { t with log := sentLog s site, vtres := (s.facet site).vtres }

/-- Writes that the debugger made reach the checker's local store in log order (R410). -/
def applyDebug (f : Facet) (l : List (Nat × List Byte)) : Facet := l.foldl (fun g w => lsWrite g w.1 w.2) f

/-- A checker that has reached its checkpoint receives the writes that wait for it (R410). -/
def takeDebug (f : Facet) : Facet := { applyDebug f f.debugLog with debugLog := [] }

/-- A signature record is of a step (R391). -/
def recordOf (r : BitVec 512) (st : Step) : Bool :=
  fld r 301 9 == st.home && fld r 310 10 == st.entry && fld r 320 32 == st.tick % 2 ^ 32

/-- A Facet executes a copy of a step, which has not reached its checkpoint. -/
def inStep (g : Facet) (st : Step) : Bool :=
  (g.run == .running || g.run == .ended) && match g.step with
    | some q => q.home == st.home && q.entry == st.entry && q.tick == st.tick
    | none => false

/-- The taint of a main copy's step (R410): its outputs stand alone, the record of the pair is marked, the checker receives the logged writes at
its checkpoint, and the step is counted. A carry write that the checker has begun gives way to its main copy's. -/
def taint (s : State) (site : Nat) (st : Step) : State :=
  let f := s.facet site
  let give (g : Facet) : Facet := if inStep g st then { g with debugLog := f.debugLog } else applyDebug g f.debugLog
  let chk := s.siteOf (checkerHome st.home)
  let s0 := s.modFacet chk fun g => if inStep g st then give g else { give g with carryTags := [] }
  let s1 := { s0 with mem := { s0.mem with reqs := s0.mem.reqs.filter fun r => !(r.site == chk && r.carry && !r.accepted) } }
  let mark (p : Nat × BitVec 512) : Nat × BitVec 512 := if recordOf p.2 st then (p.1, p.2 ||| BitVec.ofNat 512 (2 ^ 296)) else p
  let s2 := { s1 with safety := { s1.safety with records := s1.safety.records.map mark } }
  let s3 := modTask s2 st.entry st.tick st.home fun t => { t with tainted := true, chkCause := none }
  let s4 := modOcc s3 st.entry st.tick fun o => { o with stepFailed := o.tasks.any fun t => t.mainCause.isSome || t.chkCause.isSome }
  let s5 := s4.count32 0x4007 0 1
  nim s5 s5.now (dieOf site) site (some f.sector) 0x010B 1 false (ofBytes (toBytes 2 st.entry ++ toBytes 2 st.home ++ toBytes 8 st.tick))

/-- The checkpoint of a copy with what the debugger did to the step (R409, R410): a tainted main copy taints it, the checker is held while its
main copy is halted short of the checkpoint and released by it. -/
def debugPoint (s : State) (site : Nat) (st : Step) : State :=
  if !st.paired then s
  else if st.checker then
    let main := s.facet (s.siteOf st.home)
    s.modFacet site fun g => { takeDebug g with checkerHeld := main.halted && inStep main st }
  else
    let s1 := if (s.facet site).debugLog.isEmpty then s else taint s site st
    (s1.modFacet (s.siteOf (checkerHome st.home)) fun g => { g with checkerHeld := false }).modFacet site fun g => { g with debugLog := [] }

/-- A cause stops the step of a Facet site: operations, undeposited messages and Vertex operations on their way go, the cause is recorded and sent to
the Meridian, and the step completes as failed (R72, R73, R184, R193). Log entry 140 (DESIGN CHOICE). -/
def raiseAt (s : State) (site code : Nat) (pc operand : Word) : State :=
  let f := s.facet site
  match f.step with
  | none => s
  | some st =>
    let c : Cause := { stamp := s.now, code := code, pc := pc, operand := operand }
    let f1 := { f with run := .completed, cause := some c, ops := [], waits := [], carryTags := [], ended := s.now }
    let f2 := if imprecise code then undefineStores f1 s.free else f1
    let s1 := (((keepLog s site).takeFree 1).setFacet site f2)
    let s2 := { s1 with sync := { s1.sync with msgs := s1.sync.msgs.filter (fun m => m.origin != .send site),
                                               vops := s1.sync.vops.filter fun v => v.site != site } }
    let s3 := stepWatches (squashLines s2 site) site
    let s4 := if st.checker then s3 else barStop s3 st.home f.log
    let s5 := raiseFault s4 s.now code 0x01 (dieOf site) site 0x3F (some f.sector)
    let s6 := checkpoint s5 site
    if st.trial && st.checker then debugPoint s6 site st
    else
      let s7 := modTask s6 st.entry st.tick st.home fun t =>
        if st.checker then { t with chkCause := if t.tainted then none else some c, chkEnd := none } else { t with mainCause := some c, mainEnd := none }
      let s8 := modOcc s7 st.entry st.tick fun o => { o with stepFailed := o.tasks.any fun t => t.mainCause.isSome || t.chkCause.isSome }
      let s9 := debugPoint s8 site st
      if st.replay && !st.paired then failTask s9 st.entry st.tick st.home else s9

/-- A cause raised by the instruction that a Facet site runs now (R71). -/
def raise (s : State) (site code operand : Nat) : State :=
  raiseAt s site code (s.facet site).pc (BitVec.ofNat 32 operand)

end Sys2Proof.Machine
end

