-- ==== Sys2Proof/Machine/Operands.lean ====
section
/-! DEFINITION. What a Facet instruction reads and writes (R40-R55): registers, protected regions, tensor descriptors
(R51-R54), scale streams (R88, R89) and the run of one instruction with its stalls and causes (R46, R71, R180). -/

namespace Sys2Proof.Machine

/-! ## Registers -/

/-- Integer register `r`; x0 reads zero (R40). -/
def getX (f : Facet) (r : Nat) : Word := if r = 0 then 0 else lget f.x r 0

/-- The responses that a register waits for write it no more: a later instruction does (R46, R180). -/
def supersede (f : Facet) (r : Nat) : List (Nat × Nat) := f.waits.map fun w => if w.1 = r then (0, w.2) else w

/-- Integer register `r` written, whatever response it waited for; x0 discards it. -/
def setX (f : Facet) (r : Nat) (v : Word) : Facet :=
  if r = 0 then f else { f with x := lset f.x r v, waits := supersede f r, copies := f.copies.filter fun p => p.2 != r }

/-- First and size of the receive ring in bytes, from `fxring` (R55). -/
def ringRange (f : Facet) : Nat × Nat := (nbits f.ring 6 16 * 64, 64 * 2 ^ (nbits f.ring 28 4 + 4))

/-- First and size of the program region in bytes, from `fxprog` (R55). -/
def progRange (f : Facet) : Nat × Nat := (nbits f.prog 6 16 * 64, nbits f.prog 22 10 * 1024)

/-- A range overlaps the program region or the ring (R42). -/
def inProtected (f : Facet) (a n : Nat) : Bool :=
  overlap a n (ringRange f).1 (ringRange f).2 || overlap a n (progRange f).1 (progRange f).2

/-! ## Tensor descriptors (R51-R53) -/

/-- A tensor descriptor's fields (R51). -/
structure Tensor where
  base : Nat
  dim  : List Nat
  str  : List Int
  fmt  : Nat
  sref : Nat
  oref : Nat
  sblk : Nat
  sfmt : Nat
  deriving DecidableEq, Repr

/-- Scale block along dim0 (R51). -/
def blockOf (code : Nat) : Nat := if code = 0 then 32 else if code = 1 then 16 else 64

/-- The fields of a descriptor record (R51). -/
def tensorOf (r : BitVec 256) : Tensor :=
  { base := fld r 0 22, dim := [fld r 32 16, fld r 48 16, fld r 64 16, fld r 80 16],
    str := [sgn 24 (fld r 96 24), sgn 24 (fld r 120 24), sgn 24 (fld r 144 24), sgn 24 (fld r 168 24)],
    fmt := fld r 224 4, sref := fld r 192 16, oref := fld r 208 16, sblk := fld r 228 2, sfmt := fld r 230 1 }

/-- Extent of dimension `i`. -/
def Tensor.ext (t : Tensor) (i : Nat) : Nat := lget t.dim i 1

/-- The tensor carries a scale reference. -/
def Tensor.scaled (t : Tensor) : Bool := t.sref != 0xFFFF

/-- The tensor carries an outlier reference. -/
def Tensor.outlier (t : Tensor) : Bool := t.oref != 0xFFFF

/-- Bits of one element. -/
def Tensor.bits (t : Tensor) : Nat := (fmtOf t.fmt).bits

/-- Element offset of an index (R52). -/
def Tensor.off (t : Tensor) (i : List Nat) : Int :=
  (List.zip i t.str).foldl (fun a p => a + (p.1 : Int) * p.2) 0

/-- Byte address of an element, as an integer (R52). -/
def Tensor.addrI (t : Tensor) (i : List Nat) : Int :=
  if t.bits = 4 then (t.base : Int) + t.off i / 2 else (t.base : Int) + t.off i * (t.bits / 8 : Nat)

/-- Byte address of an element (R52). -/
def Tensor.addr (t : Tensor) (i : List Nat) : Nat := (t.addrI i).toNat

/-- Least and greatest byte address of the footprint, as integers (R46, R52). -/
def Tensor.span (t : Tensor) : Int × Int :=
  let ends := (List.zip t.dim t.str).map fun p => ((p.1 : Int) - 1) * p.2
  let lo := ends.foldl (fun a v => if v < 0 then a + v else a) 0
  let hi := ends.foldl (fun a v => if 0 < v then a + v else a) 0
  if t.bits = 4 then ((t.base : Int) + lo / 2, (t.base : Int) + hi / 2)
  else ((t.base : Int) + lo * (t.bits / 8 : Nat), (t.base : Int) + (hi + 1) * (t.bits / 8 : Nat) - 1)

/-- The footprint as a start and a length. -/
def Tensor.foot (t : Tensor) : Nat × Nat := (t.span.1.toNat, (t.span.2 - t.span.1 + 1).toNat)

/-- A descriptor record breaks no check of R53. -/
def descOk (r : BitVec 256) : Bool :=
  let t := tensorOf r
  fld r 231 25 == 0 && fld r 22 10 == 0 && t.sblk != 3 && decide (t.fmt < 0xC) && t.dim.all (· != 0) && t.base % 64 == 0 &&
  decide (0 ≤ t.span.1) && decide (t.span.2 < 0x300000) &&
  (t.sref == 0xFFFF || decide (t.sref < 49152)) && (t.oref == 0xFFFF || decide (t.oref < 49152))

/-- Descriptor register `r`: none when it is empty. -/
def descAt (f : Facet) (r : Nat) : Option Tensor := (lget f.d r none).map tensorOf

/-- The bits of an element (R52). -/
def elemCode (f : Facet) (t : Tensor) (i : List Nat) : Nat :=
  let a := t.addr i
  if t.bits = 4 then (if t.off i % 2 = 0 then (lsByte f a).toNat % 16 else (lsByte f a).toNat / 16)
  else ofBytes (lsRead f a (t.bits / 8))

/-- Every index of a tensor, dim0 fastest. -/
def Tensor.indices (t : Tensor) : List (List Nat) :=
  (List.range (t.ext 3)).flatMap fun l => (List.range (t.ext 2)).flatMap fun k =>
    (List.range (t.ext 1)).flatMap fun j => (List.range (t.ext 0)).map fun i => [i, j, k, l]

/-- One element written (R52): a nibble keeps its neighbour. -/
def elemPut (f : Facet) (t : Tensor) (i : List Nat) (v : Nat) : Facet :=
  let a := t.addr i
  if t.bits = 4 then
    let b := (lsByte f a).toNat
    lsPut f a (BitVec.ofNat 8 (if t.off i % 2 = 0 then b / 16 * 16 + v % 16 else v % 16 * 16 + b % 16))
  else lsPuts f a (toBytes (t.bits / 8) v)

/-- The bytes that an element occupies. -/
def elemBytes (t : Tensor) (i : List Nat) : List Nat :=
  (List.range (Nat.max 1 (t.bits / 8))).map (t.addr i + ·)

/-- Elements written by one operation, with poison ended where it writes whole lines (R306); 4-bit elements count
as writing their byte. -/
def elemsPut (f : Facet) (t : Tensor) (ws : List (List Nat × Nat)) : Facet :=
  let g := ws.foldl (fun g w => elemPut g t w.1 w.2) f
  (f.lsPoison.map Prod.fst).foldl (fun g l =>
    if (List.range 64).all fun b => ws.any fun w => (elemBytes t w.1).contains (64 * l + b) then lsSetPoison g l false else g) g

/-! ## Scales (R88, R89) -/

/-- Bytes of one scale. -/
def scaleSize (sfmt : Nat) : Nat := if sfmt = 0 then 1 else 2

/-- Format code of a scale. -/
def scaleFmt (sfmt : Nat) : Nat := if sfmt = 0 then 0xB else 0x9

/-- Blocks along dim0. -/
def Tensor.blocks (t : Tensor) : Nat := ceilDiv (t.ext 0) (blockOf t.sblk)

/-- Element number of a block's scale in a data tensor (R88). -/
def Tensor.scaleIdx (t : Tensor) (b i1 i2 i3 : Nat) : Nat := ((i3 * t.ext 2 + i2) * t.ext 1 + i1) * t.blocks + b

/-- Address of scale element `n`. -/
def Tensor.scaleAddr (t : Tensor) (n : Nat) : Nat := 64 * t.sref + n * scaleSize t.sfmt

/-- Bytes of the whole scale tensor. -/
def Tensor.scaleBytes (t : Tensor) : Nat := t.blocks * t.ext 1 * t.ext 2 * t.ext 3 * scaleSize t.sfmt

/-- The scale tensor's footprint lies in local store (R89). -/
def Tensor.scaleFits (t : Tensor) : Bool := !t.scaled || decide (64 * t.sref + t.scaleBytes ≤ 0x300000)

/-- The value of the scale element `n` of a tensor. -/
def scaleVal (f : Facet) (t : Tensor) (n : Nat) : Num :=
  decodeNum (scaleFmt t.sfmt) (ofBytes (lsRead f (t.scaleAddr n) (scaleSize t.sfmt)))

/-- The scale that applies to an element; one where the tensor carries none. -/
def elemScale (f : Facet) (t : Tensor) (i : List Nat) : Num :=
  if t.scaled then scaleVal f t (t.scaleIdx (lget i 0 0 / blockOf t.sblk) (lget i 1 0) (lget i 2 0) (lget i 3 0)) else Num.one

/-- The exact value of an element without its scale. -/
def elemNum (f : Facet) (t : Tensor) (i : List Nat) : Num := decodeNum t.fmt (elemCode f t i)

/-- The bytes that one element is read from. -/
def Tensor.elemRange (t : Tensor) (i : List Nat) : Nat × Nat := (t.addr i, Nat.max 1 (t.bits / 8))

/-- The bytes that one element's scale is read from. -/
def Tensor.scaleRange (t : Tensor) (n : Nat) : Nat × Nat := (t.scaleAddr n, scaleSize t.sfmt)

/-- What a tensor's elements and scales are read from. -/
def Tensor.reads (t : Tensor) : List (Nat × Nat) :=
  t.indices.map t.elemRange ++ if t.scaled then [(64 * t.sref, t.scaleBytes)] else []

/-- What a tensor's elements and scales are read from holds poison somewhere (R74). -/
def tensorBad (f : Facet) (t : Tensor) : Bool := !f.lsPoison.isEmpty && readsBad f t.reads

/-- A scale reference is allowed only with codes 0-2 and 5-9, an outlier reference only with 0-2 and 5-7 (R54). -/
def refsOk (t : Tensor) : Bool :=
  (!t.scaled || t.fmt ≤ 2 || (5 ≤ t.fmt && t.fmt ≤ 9)) && (!t.outlier || t.fmt ≤ 2 || (5 ≤ t.fmt && t.fmt ≤ 7))

/-! ## The run of one instruction -/

/-- What the checks and the effect of an instruction come to: a cause with its operand word (R71), or the Facet after. -/
inductive Eng where
  | cause (code operand : Nat)
  | good (f : Facet)
  deriving DecidableEq, Repr

/-- Elements counted into `fxstat`, each count held at 0xFFFF (R55, R82). -/
def countStat (f : Facet) (sat nan : Nat) : Facet :=
  { f with satc := Nat.min 0xFFFF (f.satc + sat), nanc := Nat.min 0xFFFF (f.nanc + nan) }

/-- Writes counted into `fxstat` (R82). -/
def countWr (f : Facet) (ws : List Wr) : Facet :=
  countStat f (ws.filter (·.sat)).length (ws.filter (·.nan)).length

/-- The budget of the step on a site has run out (R243). -/
def budgetOver (s : State) (site : Nat) : Bool :=
  let f := s.facet site
  match f.step with
  | none => false
  | some st => (f.run == .running || f.run == .ended) && decide (st.release + st.budget ≤ s.now)

/-- A Facet site executes instructions: its step runs within its budget, it is not halted, and its die runs (R43, R243, R408, R423). -/
def runs (s : State) (site : Nat) : Bool :=
  (s.facet site).run == .running && !(s.facet site).halted && s.dieUp (dieOf site) && s.dev.st != .off && !(budgetOver s site)

/-- An instruction stalls: it reads one of some registers that still wait for a Vertex unit (R180), a remote `vt.read`
of the site is out (register number 32; log entry 27), or a footprint of it overlaps the destination of an outstanding get (R46). -/
def stalls (f : Facet) (regs : List Nat) (foot : List (Nat × Nat)) : Bool :=
  regs.any (fun r => r != 0 && (f.waits.any (fun w => w.1 == r) || f.copies.any fun w => w.2 == r)) || f.waits.any (·.1 == 32) ||
  f.ops.any fun o => !o.write && foot.any fun p => overlap p.1 p.2 o.lo (o.hi - o.lo)

/-- The pc moved past a 32-bit instruction. -/
def advance (f : Facet) : Facet := { f with pc := f.pc + 4 }

/-- One engine instruction of a site (R46, R57, R71): no effect where the site executes nothing or stalls; `FX_ILLEGAL` when
its fields are not legal; its cause; or its effect with the pc moved on.
Log entries 7 (DESIGN CHOICE), 8 (DEDUCED), 23 (DESIGN CHOICE), 31 (DESIGN CHOICE). -/
def runEngine (s : State) (site : Nat) (legal : Bool) (regs : List Nat) (foot : Facet → List (Nat × Nat))
    (g : Facet → Eng) : State :=
  let f := s.facet site
  if !(runs s site) then s
  else if !legal then raise s site 0x01 0
  else if stalls f regs (foot f) then s
  else match g f with
    | .cause c o => raise s site c o
    | .good f1 => s.setFacet site (advance f1)

/-- A run of local store of `n` bytes at `a`, aligned to `n` (R58, R65). -/
def lsAligned (a n : Nat) : Bool := a % n == 0 && decide (a + n ≤ 0x300000)

/-- A descriptor field has bit 4 clear (R57). -/
def dReg (r : BitVec 5) : Bool := !(r.getLsbD 4)

/-- The footprints of named descriptor registers, with their scale tensors. -/
def feet (f : Facet) (ds : List Nat) : List (Nat × Nat) :=
  ds.flatMap fun r => match descAt f r with
    | none => []
    | some t => t.foot :: (if t.scaled then [(64 * t.sref, t.scaleBytes)] else [])

end Sys2Proof.Machine
end

