-- ==== Sys2Proof/Machine/Routes.lean ====
section
/-! DEFINITION. What a hub reaches (R28), regulator masters (R291, R292), residence of a task (R234), and the line requests of
a mover (R66, R67, R281). -/

namespace Sys2Proof.Machine

/-- A hub's requests reach the stack of a DRAM offset: the route's links are up (R28, R331). -/
def hubReach (s : State) (hub o : Nat) : Bool := routeUp s (4 + hub) (stackOf o)

/-- The regulator master of a sector's Facet traffic in a stack (R291, R292). -/
def masterOf (s : State) (sec stack : Nat) : Nat :=
  match (List.range 32).find? fun i => s.num 0x3412 (48 * stack + 16 + i) == sec with
  | some i => 16 + i
  | none => 15

/-- The task of a home is resident on its site and can receive (R70, R188, R234): placed, its die running, and not
in a slice switch or a copy. -/
def resident (s : State) (h : Nat) : Bool :=
  let site := s.siteOf h
  let f := s.facet site
  f.placed && (f.home == h || f.home == checkerHome h) && s.dieUp (dieOf site) && !f.copying &&
  (tfind s.work.switching (dieOf site)).isNone && (tfind s.work.switching (dieOf f.home)).isNone

/-- A new line request of a mover or an agent, with the next tag (R281). -/
def issueLine (s : State) (r : LineReq) : State :=
  { s.takeId with mem := { s.mem with reqs := s.mem.reqs ++ [{ r with tag := s.id }] } }

/-- Half-byte pairs (local, far) gathered by far line, lines ascending. -/
def byLine (pairs : List (Nat × Nat)) : Tab (List (Nat × Nat)) :=
  pairs.foldl (fun t p => tput t (p.2 / 128) (tget t (p.2 / 128) [] ++ [(p.1, p.2 % 128)])) []

/-- A half byte of local store. -/
def lsNibble (f : Facet) (n : Nat) : Nat := if n % 2 = 0 then (lsByte f (n / 2)).toNat % 16 else (lsByte f (n / 2)).toNat / 16

/-- A half byte of local store written. -/
def lsPutNibble (f : Facet) (n v : Nat) : Facet :=
  let b := (lsByte f (n / 2)).toNat
  lsPut f (n / 2) (BitVec.ofNat 8 (if n % 2 = 0 then b / 16 * 16 + v % 16 else v % 16 * 16 + b % 16))

/-- The line that a put writes: data, byte mask and poison. A byte of which the tensor covers one half only takes its other
half from a free value (log entry 3). Log entry 26 (DESIGN CHOICE). -/
def putLine (s : State) (f : Facet) (ps : List (Nat × Nat)) : List Byte × Nat × Bool :=
  let nib (k : Nat) : Option Nat := (ps.find? fun p => p.2 == k).map fun p => lsNibble f p.1
  let bytes := (List.range 64).map fun i =>
    match nib (2 * i), nib (2 * i + 1) with
    | none, none => (0, false)
    | lo, hi => (lo.getD ((Config.freeByte s.free).toNat % 16) + 16 * hi.getD ((Config.freeByte s.free).toNat / 16), true)
  (bytes.map fun b => BitVec.ofNat 8 b.1, ofBytes ((List.range 8).map fun i => BitVec.ofNat 8 (lsum (fun j => b2n (lget bytes (8 * i + j) (0, false)).2 * 2 ^ j) (List.range 8))),
   ps.any fun p => lsBad f (p.1 / 2))

/-- Where a mover's line goes: its translation, for a checker's put the mirror of it (R262, R386); none where it does not map. -/
def moverPlace (s : State) (f : Facet) (write : Bool) (l : Nat) : Option Nat :=
  match translate s f.sector (64 * l) write with
  | none => none
  | some o =>
    if write && (f.step.map Step.checker).getD false then (if inGranules (s.sec f.sector).record (mirrorOf o) 64 then some (mirrorOf o) else none)
    else some o

/-- The far lines of an operation, each with the half bytes it covers and its place. -/
def moverLines (s : State) (f : Facet) (write : Bool) (pairs : List (Nat × Nat)) : List (Nat × List (Nat × Nat) × Option Nat) :=
  (byLine pairs).map fun p => (p.1, p.2, moverPlace s f write p.1)

/-- The first line of an operation that does not map, or that no route reaches. Log entry 25 (DESIGN CHOICE). -/
def moverFault (s : State) (site : Nat) (offs : List (Nat × List (Nat × Nat) × Option Nat)) : Option Nat :=
  (offs.find? fun p => match p.2.2 with
    | none => true
    | some o => !(roundTrip s (dieOf site) (stackOf o))).map Prod.fst

/-- The request of one line of an operation. -/
def moverReq (s : State) (site op ch : Nat) (write : Bool) (p : Nat × List (Nat × Nat) × Option Nat) : LineReq :=
  let f := s.facet site
  let d := putLine s f p.2.1
  let o := p.2.2.getD 0
  { tag := 0, write := write, site := site, op := op, ch := ch, off := o, data := if write then d.1 else [],
    mask := if write then BitVec.ofNat 64 d.2.1 else 0, poison := write && d.2.2, ls := if write then [] else p.2.1,
    master := masterOf s f.sector (stackOf o), die := dieOf site, carry := false, sector := f.sector,
    gen := (s.sec f.sector).gen, accepted := false }

/-- The words that an operation folds (R390): for a put each line's tag, mask and data. -/
def moverFolds (s : State) (f : Facet) (write : Bool) (offs : List (Nat × List (Nat × Nat) × Option Nat)) : List Nat :=
  if write then offs.flatMap fun p =>
    let d := putLine s f p.2.1
    sigTag 1 d.2.2 (64 * p.1) :: d.2.1 :: lineWords d.1 d.2.1
  else []

/-- The Facet with an operation outstanding, the pc moved on. -/
def moverFacet (s : State) (site ch : Nat) (write : Bool) (pairs : List (Nat × Nat)) : Facet :=
  let f := s.facet site
  let offs := moverLines s f write pairs
  let op : MoverOp := { id := s.id, ch := ch, write := write, lo := (lmin (pairs.map fun p => p.1 / 2)).getD 0, hi := lmax (pairs.map fun p => p.1 / 2 + 1),
                        tags := (List.range offs.length).map (s.id + 1 + ·), pc := f.pc }
  foldF { advance f with ops := if offs.isEmpty then f.ops else f.ops ++ [op] } (moverFolds s f write offs)

/-- An operation of the mover issued: one line request for each far line (R48, R67, R281). -/
def moverStart (s : State) (site ch : Nat) (write : Bool) (pairs : List (Nat × Nat)) : State :=
  let s1 := (s.takeId.takeFree 1).setFacet site (moverFacet s site ch write pairs)
  (moverLines s (s.facet site) write pairs).foldl (fun a p => issueLine a (moverReq s site s.id ch write p)) s1

/-- An operation of the mover, or `FX_MOVER` at its first line that does not map or that no route reaches (R48, R67, R71). -/
def issueMover (s : State) (site ch : Nat) (write : Bool) (pairs : List (Nat × Nat)) : State :=
  match moverFault s site (moverLines s (s.facet site) write pairs) with
  | some l => raise s site 0x0A (64 * l)
  | none => moverStart s site ch write pairs

/-- Operations of a mover that are complete leave it; puts of one channel complete in issue order (R67). -/
def retireOps (ops : List MoverOp) : List MoverOp :=
  ops.foldl (fun kept o => if o.tags.isEmpty && !(o.write && kept.any fun k => k.write && k.ch == o.ch) then kept else kept ++ [o]) []

end Sys2Proof.Machine
end

