-- ==== Sys2Proof/Machine/Steps.lean ====
section
/-! DEFINITION. Schedule entries and their occurrences (R231, R241), the start of a step (R43), its restore (R151, R398), its
completion with the carry write (R44, R147, R148, R410), and what an outcome does to its handle (R241). -/

namespace Sys2Proof.Machine

/-- The last schedule event, kept for the host (R250). -/
def lastEvent (s : State) (stamp e what : Nat) : State :=
  s.setOcts 0x280C 0 (toBytes 8 stamp ++ toBytes 4 (stamp / s.tickNs) ++ toBytes 2 e ++ toBytes 2 what)

/-- A window fault of an occurrence (R244): counted, and sent to the Meridian. -/
def windowFault (s : State) (e n stamp : Nat) : State :=
  let d := entDie (s.entRaw e)
  let s1 := modOcc s e n fun o => { o with wfault := true }
  let s2 := lastEvent (s1.count32 0x280A d 1) stamp e 3
  raiseFault s2 stamp e 0x03 d 0x1FF 0x3F (some (entSector (s.entRaw e)))

/-- The occurrence after one more of its steps completed: its stage may be complete, early, in its window or late (R244). -/
def stageCheck (s : State) (e n : Nat) : State :=
  match findOcc s e n with
  | none => s
  | some o =>
    if o.st ≠ .released || o.stepFailed || !(o.tasks.all (taskEnded o)) then s
    else
      let s1 := modOcc s e n fun o => { o with st := .finished }
      if o.wfault then s1
      else if stageEnd o < tickStart s n + fld (s.entRaw e) 128 16 * 1000 then windowFault s1 e n (stageEnd o)
      else if tickStart s n + fld (s.entRaw e) 144 16 * 1000 ≤ stageEnd o then windowFault s1 e n (tickStart s n + fld (s.entRaw e) 144 16 * 1000 - 1)
      else s1

/-! ## Tasks, slices and carry sets -/

/-- The task of a home, or of the main home of a checker home (R385). -/
def taskOf (s : State) (h : Nat) : Option Task :=
  match tfind s.work.tasks h with
  | some t => some t
  | none => if pairedMain s h then tfind s.work.tasks (checkerHome h) else none
where
  /-- The other copy's home is a task of a loaded paired entry. -/
  pairedMain (s : State) (h : Nat) : Bool :=
    s.sched.entries.any fun p => entPair p.2.raw && entKind p.2.raw == 0 && (entHomes p.2.raw).contains (checkerHome h)

/-- The slice of a task that is resident on its Prism (R153). Log entry 40 (DEDUCED). -/
def residentSlice (s : State) (t : Task) : Nat := tget s.work.slice (dieOf t.home) 0

/-- Slice `i` of a task. -/
def sliceAt (t : Task) (i : Nat) : Slice := lget t.slices i { runs := [], maps := [], carry := none, bIsCommitted := false }

/-- Slice `i` of the task of home `h` changed. -/
def modSlice (s : State) (h i : Nat) (g : Slice → Slice) : State :=
  match tfind s.work.tasks h with
  | none => s
  | some t => { s with work := { s.work with tasks := tput s.work.tasks h { t with slices := lmod t.slices i g } } }

/-- Local-store addresses of a carry set's lines, in the order they are packed (R147). -/
def carryLines (c : Carry) : List Nat :=
  c.ranges.flatMap fun r => (List.range (r.2 / 64)).map fun i => r.1 + 64 * i

/-! ## The device's copies of runs in the areas of the Prisms (R151, R153, R166, R389) -/

/-- The 64-byte lines of some runs: where each stands in local store, and its bytes. -/
def runLines (l : List LsRun) : List (Nat × List Byte) :=
  l.flatMap fun r => (List.range (r.bytes.length / 64)).map fun i => (r.addr + 64 * i, (r.bytes.drop (64 * i)).take 64)

/-- The lines that the device keeps of a slice: of its constant runs and outlier maps, or of its volatile runs. A task of one slice needs
no copy of those (R166). -/
def keptLines (t : Task) (sl : Slice) (vol : Bool) : List (Nat × List Byte) :=
  if vol then (if t.slices.length < 2 then [] else runLines (sl.runs.filter (·.volatile)))
  else runLines (sl.runs.filter fun r => !r.volatile) ++ sl.maps

/-- The pages of the area of a task's Prism in its sector's image. -/
def areaPages (s : State) (t : Task) : List Nat :=
  match (tfind s.work.images t.sector).bind fun m => m.prisms.find? fun p => p.die == dieOf t.home with
  | none => []
  | some p => p.pages

/-- Lines of a slice in the area. -/
def keptCount (t : Task) (sl : Slice) : Nat := (keptLines t sl false).length + (keptLines t sl true).length

/-- The first line of slice `i` of a task in its area: tasks in ascending home, their slices in order. Log entry 148 (DESIGN CHOICE). -/
def sliceLine (s : State) (t : Task) (i : Nat) : Nat :=
  lsum (fun p => if p.2.sector == t.sector && dieOf p.1 == dieOf t.home && decide (p.1 < t.home) then lsum (keptCount p.2) p.2.slices else 0) s.work.tasks +
  lsum (keptCount t) (t.slices.take i)

/-- The kept lines of slice `i` of a task, each with its place in the area; an image without the area keeps none there. Log entry 39 (DEDUCED). -/
def copyPlaces (s : State) (t : Task) (i : Nat) (vol : Bool) : List ((Nat × List Byte) × Nat) :=
  let pages := areaPages s t
  let sl := sliceAt t i
  let first := sliceLine s t i + if vol then (keptLines t sl false).length else 0
  if pages.isEmpty then [] else (keptLines t sl vol).zipIdx.map fun p => (p.1, areaAt pages 0 (64 * (first + p.2)))

/-- A place in the area, or its mirror. -/
def sideOf (mirror : Bool) (o : Nat) : Nat := if mirror then mirrorOf o else o

/-- The Prism whose agent handles the areas and buffers of a task, or their mirrors (R281, R389). -/
def agentDie (t : Task) (mirror : Bool) : Nat := dieOf (if mirror then checkerHome t.home else t.home)

/-- The kept lines of a slice written to the area, or to its mirror, as the image gives them (R166, R389), as master 8. -/
def copyInit (s : State) (t : Task) (i : Nat) (vol mirror : Bool) : State :=
  (copyPlaces s t i vol).foldl (fun a p => agentWrite a (agentDie t mirror) (sideOf mirror p.2) p.1.2 false) s

/-- The volatile lines of a slice saved from a Facet's local store, poison with them (R153, R306). -/
def copySave (s : State) (f : Facet) (t : Task) (i : Nat) (mirror : Bool) : State :=
  (copyPlaces s t i true).foldl (fun a p => agentWrite a (agentDie t mirror) (sideOf mirror p.2) (lsRead f p.1.1 64) (lsBad f p.1.1)) s

/-- The places that a copy reads for a line of its own side: with `other` a line poisoned there is read from the other side too, which the
data then comes from (R398). -/
def linePlaces (s : State) (mirror other : Bool) (o : Nat) : List Nat :=
  let own := sideOf mirror o
  own :: if other && dramBad s own then [mirrorOf own] else []

/-- Where a copy takes a line from: the other side when its own is poisoned and the other is clean. -/
def lineSource (s : State) (mirror other : Bool) (o : Nat) : Nat :=
  let own := sideOf mirror o
  if dramBad s own && other && !(dramBad s (mirrorOf own)) then mirrorOf own else own

/-- A line of DRAM brought into a Facet's local store, poison with it (R306). -/
def lineIn (s : State) (f : Facet) (a src : Nat) : Facet := lsSetPoison (lsWrite f a (dramRead s src 64)) (a / 64) (dramBad s src)

/-- The kept lines of a slice brought into a Facet's local store, poison with them (R151, R153, R306); with `other` a line poisoned in its
own source comes from the other one. -/
def copyLoad (s : State) (f : Facet) (t : Task) (i : Nat) (vol mirror other : Bool) : Facet :=
  let ps := copyPlaces s t i vol
  if ps.isEmpty then (keptLines t (sliceAt t i) vol).foldl (fun g p => lsWrite g p.1 p.2) f
  else ps.foldl (fun g p => lineIn s g p.1.1 (lineSource s mirror other p.2)) f

/-- The places that `copyLoad` reads. -/
def copyReads (s : State) (t : Task) (i : Nat) (vol mirror other : Bool) : List Nat :=
  ((copyPlaces s t i vol).map Prod.snd).flatMap (linePlaces s mirror other)

/-- Lines that a Prism's agent reads. -/
def agentReads (s : State) (die : Nat) (offs : List Nat) : State := offs.foldl (fun a o => agentLine a die o false) s

/-- DRAM offset of line `i` of a carry buffer. -/
def carryAt (c : Carry) (second : Bool) (i : Nat) : Nat :=
  if second then areaAt c.pagesB (c.bufb % 4096) (64 * i) else areaAt c.pagesA (c.bufa % 4096) (64 * i)

/-- The carry set of the step on a site: that of its task's resident slice. -/
def siteCarry (s : State) (h : Nat) : Option (Carry × Bool) :=
  match tfind s.work.tasks h with
  | none => none
  | some t =>
    let sl := sliceAt t (residentSlice s t)
    sl.carry.map fun c => (c, sl.bIsCommitted)

/-- The device's write of one carry line, as master 8 (R281, R291). -/
def carryReq (s : State) (site off : Nat) (data : List Byte) (poison : Bool) : LineReq :=
  { tag := 0, write := true, site := site, op := 0, ch := 0, off := off, data := data, mask := BitVec.allOnes 64, poison := poison,
    ls := [], master := 8, die := dieOf site, carry := true, sector := (s.facet site).sector,
    gen := (s.sec (s.facet site).sector).gen, accepted := false }

/-- The carry write of a completed step begins (R148, R387): its lines go to the buffer that is not committed; to its mirror for a
checker copy, and to both where `both` (R406, R410). -/
def startCarry (s : State) (site : Nat) (c : Carry) (second checker both : Bool) : State :=
  let f := s.facet site
  let ls := carryLines c
  let one (mirror : Bool) (a : State) : State := ls.zipIdx.foldl (fun b p =>
    let o := carryAt c second p.2
    issueLine b (carryReq s site (if mirror then mirrorOf o else o) (lsRead f p.1 64) (lsBad f p.1))) a
  let s1 := one checker s
  let s2 := if both then one true s1 else s1
  s2.modFacet site fun f => { f with carryTags := (List.range (s2.id - s.id)).map (s.id + ·) }

/-- Words that the carry lines fold (R390). -/
def carryWords (f : Facet) (c : Carry) : List Nat :=
  (carryLines c).zipIdx.flatMap fun p => sigTag 5 (lsBad f p.1) (64 * p.2) :: lineWords (lsRead f p.1 64) (2 ^ 64 - 1)

/-- Mirroring of the carry writes of main copies that run single during a join (R406). -/
def joinMirrors (s : State) : Bool :=
  s.safety.join != .none

/-- The completion of an ended step (R44): everything it issued is complete, so it is reported, its watches go (R184), its carry
write starts (R148), and a paired copy reaches its checkpoint (R391). -/
def stepDone (s : State) (site : Nat) : State :=
  let f := s.facet site
  match f.step with
  | none => s
  | some st =>
    let tainted := st.paired && !f.debugLog.isEmpty
    let c := siteCarry s st.home
    let s1 := stepWatches (keepLog s site) site
    let s2 := match c with
      | none => s1
      | some (c, _) => s1.setFacet site (foldF f (carryWords f c))
    let s3 := s2.modFacet site fun g => { g with run := .completed, ended := s.now }
    let s4 := match c with
      | none => s3
      | some (c, b) =>
        if st.checker && (st.trial || tainted) then s3
        else startCarry s3 site c (!b) st.checker (!st.checker && (tainted || ((!st.paired || st.trial) && joinMirrors s)))
    let s5 := debugPoint (checkpoint s4 site) site st
    if st.trial && st.checker then s5
    else
      let s6 := modTask s5 st.entry st.tick st.home fun t =>
        if st.checker then { t with chkEnd := some s.now, chkCarryDone := c.isNone || tainted }
        else { t with mainEnd := some s.now, carryDone := c.isNone, accepted := st.replay && !st.paired }
      trySettle (stageCheck s6 st.entry st.tick) st.entry st.tick

/-- Everything that the ended step of a site issued is complete within its budget: operations and puts, its messages, its Vertex operations
(R44, R243). -/
def quiet (s : State) (site : Nat) : Bool :=
  let f := s.facet site
  f.run == .ended && !(budgetOver s site) && f.ops.isEmpty && f.waits.isEmpty && !(s.sync.msgs.any fun m => m.origin == .send site)

/-- The carry write of a completed step is globally complete (R148): every line of it is acknowledged. -/
def carryComplete (s : State) (site : Nat) : State :=
  let f := s.facet site
  match f.step with
  | none => s
  | some st =>
    if f.run ≠ .completed || f.cause.isSome || !f.carryTags.isEmpty then s
    else
      let s1 := modTask s st.entry st.tick st.home fun t =>
        if st.checker then { t with chkCarryDone := true } else { t with carryDone := true }
      trySettle s1 st.entry st.tick

/-! ## The start of a step (R43) and its restore (R151, R398) -/

/-- A Facet at the start of a step (R43); a replay has the log `old` of its first attempt beside its own (R197), and a paired main
copy the writes that the debugger has made since its last step (R410). -/
def startFacet (f : Facet) (t : Task) (st : Step) (arg : Nat) (old : List SigEntry) : Facet :=
  let tick := BitVec.ofNat 32 st.tick
  let x := lset (lset (lset (List.replicate 32 (0 : Word)) 2 (BitVec.ofNat 32 (fld t.decl 128 22))) 10 tick) 11 (BitVec.ofNat 32 arg)
  let g := { f with pc := BitVec.ofNat 32 (fld t.decl 32 22), x := x, d := List.replicate 16 none, acc := [], accPoison := [],
                    accFree := none, held := [], tile := Tile.zero, idleTile := Tile.zero, nanc := 0, satc := 0, run := .running,
                    step := some st, cause := none, waits := [], ops := [], log := [], oldLog := if st.replay then old else [],
                    issued := 0, vtres := [], copies := [], misr := BitVec.allOnes 64, words := 0, ended := 0, carryTags := [], halted := false,
                    checkerHeld := false, debugLog := if st.paired && !st.checker then f.debugLog else [] }
  foldF g [st.home + tick.toNat * 2 ^ 32]

/-- A local store that holds a slice's constant runs and outlier maps, and nothing else. -/
def putRuns (f : Facet) (sl : Slice) (constOnly : Bool) : Facet :=
  let g := (sl.runs.filter fun r => !constOnly || !r.volatile).foldl (fun g r => lsWrite g r.addr r.bytes) f
  sl.maps.foldl (fun g m => lsWrite g m.1 m.2) g

/-- The restore of a copy of home `h` on a site (R151, R398): its constant runs from the device's copy, and its carry ranges from the committed
buffer, or for a checker from the mirrors; a line poisoned in its own source is taken from the other, and the Boolean says that a carry line, or with
another source any line, was poisoned in all. Every other byte is undefined. -/
def restore (s : State) (site h : Nat) (checker other : Bool) : State × Bool :=
  match taskOf s h with
  | none => (s, false)
  | some t =>
    let i := residentSlice s t
    let sl := sliceAt t i
    let carry : List (Nat × Nat) := match sl.carry with
      | none => []
      | some c => (carryLines c).zipIdx.map fun p => (p.1, carryAt c sl.bIsCommitted p.2)
    let kept := copyPlaces s t i false
    let die := dieOf site
    let s0 := settleOwn s die ((carry.map Prod.snd).map (sideOf checker))
    let f0 := { s.facet site with ls := [], lsPoison := [], lsFree := some s.free, wb := [], debugLog := [] }
    let f1 := carry.foldl (fun g p => lineIn s0 g p.1 (lineSource s0 checker other p.2)) (copyLoad s0 f0 t i false checker other)
    let gone := (carry.any fun p => dramBad s0 (lineSource s0 checker other p.2)) || (other && kept.any fun p => dramBad s0 (lineSource s0 checker true p.2))
    let s1 := agentReads s0 die (copyReads s0 t i false checker other ++ (carry.map Prod.snd).flatMap (linePlaces s0 checker other))
    ((s1.takeFree 1).setFacet site f1, gone)

end Sys2Proof.Machine
end

