-- ==== Sys2Proof/Machine/SchedCheck.lean ====
section
/-! DEFINITION. The rules that a schedule entry keeps (R150, R152, R233, R385): checked at a load, and again when the tick or the
frame is written (R229). -/

namespace Sys2Proof.Machine

/-! ## Slice plans (R152, R166) -/

/-- The `PRISM` line that gives a Prism its slice plan: that of the lowest sector with a section for the die. Log entry 41 (DESIGN CHOICE). -/
def planOf (s : State) (d : Nat) : Option (BitVec 512) :=
  s.work.images.findSome? fun p => (p.2.prisms.find? fun q => q.die == d).map PrismSec.line

/-- Slices of a plan. -/
def planSlices (l : BitVec 512) : Nat := fld l 128 3 + 1

/-- First tick slot of slice `i`. -/
def planStart (l : BitVec 512) (i : Nat) : Nat := fld l (136 + 6 * i) 6

/-- Reservation of slice `i` in µs. -/
def planRsv (l : BitVec 512) (i : Nat) : Nat := fld l (192 + 16 * i) 16

/-- The slice that a plan names for a tick slot (R152). -/
def sliceForSlot (l : BitVec 512) (slot : Nat) : Nat :=
  ((List.range (planSlices l)).filter fun i => decide (planStart l i ≤ slot)).length - 1

/-- The slice that a Prism's plan names for a tick slot, 0 where it has no plan. -/
def dieSlice (s : State) (d slot : Nat) : Nat :=
  match planOf s d with
  | none => 0
  | some l => sliceForSlot l slot

/-! ## The rules of R233 -/

/-- First and end of an entry's reach in µs (R233). -/
def reach (r : BitVec 256) : Nat × Nat :=
  if entKind r = 0 then (fld r 80 16, fld r 112 16 + fld r 96 16) else (fld r 80 16, fld r 80 16 + fld r 96 16)

/-- Two entries' reaches overlap in one tick slot, a sporadic work entry counting only against reference figures (R233). -/
def clash (a b : BitVec 256) : Bool :=
  entSlot a == entSlot b && decide ((reach a).1 < (reach b).2) && decide ((reach b).1 < (reach a).2) &&
  !((entSpor a && entKind a == 0 && entKind b != 1) || (entSpor b && entKind b == 0 && entKind a != 1))

/-- The field rule of R233. -/
def fieldRule (s : State) (sec : Nat) (r : BitVec 256) : Bool :=
  let dest := fld r 201 9
  let repOk := if r.getLsbD 199 then (r.getLsbD 200 || (match tfind s.work.tasks dest with
      | some t => t.sector == sec && dest % 128 < 72
      | none => false))
    else fld r 200 10 == 0
  fld r 217 33 == 0 && fld r 210 6 == 0 && entKind r != 3 && decide (entSlot r < s.num 0x2801 0) && repOk

/-- The fit rule of R233 by kind. -/
def fitRule (s : State) (sec : Nat) (r : BitVec 256) : Bool :=
  let l := s.num 0x2800 0
  let start := fld r 80 16
  let budget := fld r 96 16
  let latest := fld r 112 16
  let wopen := fld r 128 16
  let wclose := fld r 144 16
  let idleFields := latest == 0 && wopen == 0 && wclose == 0 && fld r 192 4 == 0 && fld r 198 2 == 0
  match entKind r with
  | 0 =>
    !(entHomes r).isEmpty && (entHomes r).all (fun h => match tfind s.work.tasks h with
      | some t => t.sector == sec
      | none => false) &&
    decide (1 ≤ budget) && decide (start < latest) && decide (latest + budget ≤ l) && decide (wopen < wclose) && decide (wclose ≤ l) && decide (start < wclose)
  | 1 => !(entHomes r).isEmpty && decide (10 ≤ budget) && decide (budget ≤ 1000) && decide (start + budget ≤ l) && fld r 160 32 == 0 && idleFields
  | _ => (entHomes r).isEmpty && decide (1 ≤ fld r 160 32) && decide (fld r 160 32 ≤ 8) && decide (start + budget ≤ l) && decide (10 ≤ budget) && idleFields

/-- Homes that an entry occupies (R231). -/
def clashHomes (a b : BitVec 256) : Bool := (entHomes a).any ((entHomes b).contains ·)

/-- Every named home is covered by a reference figure in each slot of the frame (R233). -/
def refRule (s : State) (r : BitVec 256) : Bool :=
  entKind r != 0 || (entHomes r).all fun h => (List.range (s.num 0x2801 0)).all fun t =>
    s.sched.entries.any fun p => entKind p.2.raw == 1 && entSlot p.2.raw == t && (entHomes p.2.raw).contains h

/-- The checker homes of a paired entry are granted and free of conflict (R233, R385). -/
def pairRule (s : State) (e sec : Nat) (r : BitVec 256) : Bool :=
  !(entPair r) || entKind r != 0 || (entHomes r).all fun h =>
    let c := checkerHome h
    (s.sec sec).record.getLsbD (512 + 72 * (c / 128) + c % 128) && (tfind s.work.tasks c).isNone &&
    !(s.sched.entries.any fun p => p.1 != e && clash p.2.raw r && entKind p.2.raw != 2 &&
      ((entHomes p.2.raw).contains c || (entPair p.2.raw && (entHomes p.2.raw).any fun k => checkerHome k == c)))

/-- A task has local-store runs in a slice. -/
def hasRuns (s : State) (h i : Nat) : Bool :=
  match tfind s.work.tasks h with
  | none => false
  | some t => !(sliceAt t i).runs.isEmpty

/-- A task declares a carry set in some slice. -/
def hasCarry (s : State) (h : Nat) : Bool :=
  match tfind s.work.tasks h with
  | none => false
  | some t => t.slices.any fun l => l.carry.isSome

/-- R150 and R152: one step a tick for a task with a carry set, tasks only in their slices, and starts past the switch. Log entry 159 (DEDUCED). -/
def sliceRule (s : State) (e : Nat) (r : BitVec 256) : Bool :=
  let d := entDie r
  let i := dieSlice s d (entSlot r)
  let late := match planOf s d with
    | none => true
    | some l => planSlices l < 2 || entSlot r ≠ planStart l i || planRsv l i ≤ fld r 80 16
  late && (entKind r != 0 || (entHomes r).all fun h => hasRuns s h i &&
    (!(hasCarry s h) || !(s.sched.entries.any fun p => p.1 != e && entKind p.2.raw == 0 && entSlot p.2.raw == entSlot r && (entHomes p.2.raw).contains h)))

/-- The detail status of entry `e` of the table as it stands, zero when it keeps every rule of R233. -/
def entryDetail (s : State) (e : Nat) (r : BitVec 256) : Nat :=
  let sec := entSector r
  if 1024 ≤ e then 0x060A
  else if !(fieldRule s sec r) then 0x0604
  else if !(fitRule s sec r) then 0x0607
  else if s.sched.entries.any fun p => p.1 != e && entKind r != 2 && entKind p.2.raw != 2 && clash p.2.raw r && clashHomes p.2.raw r then 0x0605
  else if !(refRule s r) then 0x0606
  else if !(pairRule s e sec r) then 0x0609
  else if !(sliceRule s e r) then 0x0607
  else 0

/-- Every loaded entry keeps the rules (R229). -/
def tableFits (s : State) : Bool := s.sched.entries.all fun p => entryDetail s p.1 p.2.raw == 0

end Sys2Proof.Machine
end

