-- ==== Sys2Proof/Machine/Signals.lean ====
section
/-! DEFINITION. The message instructions (R65, R68-R70), the Vertex instructions with their signal log (R176-R182, R191, R196-R198),
and the arrival of messages and Vertex operations (R325, R326). -/

namespace Sys2Proof.Machine

/-! ## Messages (R68-R70) -/

/-- A Facet task of a sector is named (R9, R69). -/
def taskIn (s : State) (sec h : Nat) : Bool :=
  validSite h && match tfind s.work.tasks h with
    | some t => t.sector == sec
    | none => false

/-- The device runs paired entries in two copies: coupled, and no join is before its trial tick; a join that a record has spoiled is abandoned
at the next boundary only (R404, R406, R407). -/
def coupled (s : State) : Bool := s.num 0x4000 0 == 0 && (match s.safety.join with
  | .none => true
  | .trial t => decide (t ≤ s.tickNow)
  | .abandon _ _ => true
  | .copying _ => false)

/-- Home `h` is a task of a loaded paired work entry (R385). -/
def pairedHome (s : State) (h : Nat) : Bool :=
  s.sched.entries.any fun p => p.2.raw.getLsbD 195 && fld p.2.raw 196 2 == 0 && fld p.2.raw 72 2 == dieOf h && p.2.raw.getLsbD (h % 128) && decide (h % 128 < 72)

/-- The homes whose rings receive a message to a home: both copies of a paired task while coupled (R386). -/
def receivers (s : State) (h : Nat) : List Nat :=
  if pairedHome s h && coupled s then [h, checkerHome h] else [h]

/-- The ring of a home has a free entry and its task is resident (R70). -/
def ringFree (s : State) (h : Nat) : Bool :=
  let f := s.facet (s.siteOf h)
  resident s h && decide (f.put - f.got < 2 ^ (nbits f.ring 28 4 + 4))

/-- A message can be deposited now (R70, R386). -/
def depositOk (s : State) (m : Msg) : Bool := !m.away && (receivers s m.dest).all (ringFree s)

/-- The 64 bytes of a message as delivered (R68). -/
def msgBytes (m : Msg) : List Byte :=
  toBytes 8 (pack [(48, 16, m.seq), (40, 8, m.len), (32, 8, m.cls), (16, 9, m.src), (0, 9, m.dest)]) ++ m.bytes.take 56

/-- A message deposited in the ring of one home. -/
def depositIn (s : State) (h : Nat) (m : Msg) : State :=
  s.modFacet (s.siteOf h) fun f =>
    let a := (ringRange f).1 + 64 * (f.put % 2 ^ (nbits f.ring 28 4 + 4))
    let g := lsWrite f a (msgBytes m)
    { lsSetPoison g (a / 64) m.poison with put := f.put + 1 }

/-- An earlier message holds this one back: the same sender to the same destination, or one of the same Facet that is held
(R69, R70). -/
def heldBack (s : State) (m : Msg) : Bool :=
  s.sync.msgs.any fun e => decide (e.id < m.id) && e.origin == m.origin && (match m.origin with
    | .send _ => e.dest == m.dest || (!e.away && !(depositOk s e))
    | _ => false)

/-- A message deposited once its conditions hold; one with a retired sector generation is squashed (R70, R265). -/
def deposit (s : State) (id : Nat) : State :=
  match s.sync.msgs.find? fun m => m.id == id with
  | none => s
  | some m =>
    if m.gen ≠ (s.sec m.sector).gen then dropMsg s id
    else if !(depositOk s m) || heldBack s m then s
    else delivered ((receivers s m.dest).foldl (fun a h => depositIn a h m) (dropMsg s id)) m

/-- `MESSAGE_DEPOSIT` (R70). -/
def execMessageDeposit (id : Nat) (s : State) : Res := ok (deposit s id)

/-- A message reaches its destination's die (R325); with a retired generation it is squashed at the ingress (R265), and while a link of its
route is down it does not arrive (R28). -/
def msgArrive (s : State) (id : Nat) : State :=
  match s.sync.msgs.find? fun m => m.id == id with
  | none => s
  | some m =>
    if m.gen ≠ (s.sec m.sector).gen then dropMsg s id
    else if !(devReach s m.seat m.dest) then s
    else { s with sync := { s.sync with msgs := s.sync.msgs.map fun e => if e.id = id then { e with away := false } else e } }

/-- `MSG` (R325). -/
def execMsg (id : Nat) (s : State) : Res := ok (msgArrive s id)

/-- The header doubleword of a message descriptor (R69). -/
def sendHead (f : Facet) (a : Nat) : Nat := ofBytes ((lsRead f a 64).take 8)

/-- A descriptor names a task of the sector, a class below 32 and 1 to 56 bytes, and its reserved bits are zero (R69). -/
def sendOk (s : State) (f : Facet) (a : Nat) : Bool :=
  let h := sendHead f a
  taskIn s f.sector (nbits h 0 9) && decide (nbits h 32 8 < 32) && nbits h 40 8 != 0 && decide (nbits h 40 8 ≤ 56) && nbits h 9 7 == 0 && nbits h 25 7 == 0

/-- The Facet once its message is folded, the pc moved on (R387, R390). -/
def sendFacet (f : Facet) (a : Nat) : Facet :=
  let h := sendHead f a
  let len := nbits h 40 8
  let clean := toBytes 8 (pack [(40, 8, len), (32, 8, nbits h 32 8), (0, 9, nbits h 0 9)]) ++ (((lsRead f a 64).drop 8).take len) ++ List.replicate (56 - len) 0
  foldF (advance f) (sigTag 2 (lsBad f a) 0 :: lineWords clean (2 ^ 64 - 1))

/-- The message that a descriptor spells, with the next sequence number of its destination and class (R68, R69). -/
def sendMsg (s : State) (site a : Nat) : Msg :=
  let f := s.facet site
  let h := sendHead f a
  let dest := nbits h 0 9
  let cls := nbits h 32 8
  { id := s.id, seat := dieOf site, pc := f.pc, src := f.home, dest := dest, cls := cls, len := nbits h 40 8, seq := tget f.seqs (dest * 256 + cls) 0, bytes := (lsRead f a 64).drop 8,
    poison := lsBad f a, away := decide (dieOf site ≠ dieOf (s.siteOf dest)), sector := f.sector, gen := (s.sec f.sector).gen, origin := .send site }

/-- A sequence number taken and the message's fold kept (R68, R390). -/
def sendTaken (s : State) (site a : Nat) : State :=
  let m := sendMsg s site a
  s.takeId.setFacet site { sendFacet (s.facet site) a with seqs := tput (s.facet site).seqs (m.dest * 256 + m.cls) ((m.seq + 1) % 65536) }

/-- A message on its way (R69). -/
def sendStart (s : State) (site a : Nat) : State :=
  let s1 := sendTaken s site a
  { s1 with sync := { s1.sync with msgs := s1.sync.msgs ++ [sendMsg s site a] } }

/-- An earlier message of the site waits for its ring, on its own die (R69, R70). -/
def sendHeld (s : State) (site : Nat) : Bool :=
  s.sync.msgs.any fun m => m.origin == .send site && !m.away && !(depositOk s m)

/-- `ms.send` of a site (R69, R70, R387). -/
def sendRun (s : State) (site : Nat) (rs1 : BitVec 5) : State :=
  let f := s.facet site
  let a := (getX f rs1.toNat).toNat
  match f.step with
  | none => s
  | some st =>
    if !(runs s site) || stalls f [rs1.toNat] [(a, 64)] then s
    else if !st.checker && sendHeld s site then s
    else if !(lsAligned a 64) then raise s site 0x02 a
    else if !(sendOk s f a) then raise s site 0x08 (sendHead f a)
    else if st.checker then s.setFacet site (sendFacet f a)
    else if routeUp s (dieOf site) (dieOf (s.siteOf (sendMsg s site a).dest)) then sendStart s site a
    else raiseAt (sendTaken s site a) site 0x0A f.pc (BitVec.ofNat 32 (sendMsg s site a).dest)

/-- `MS_SEND` (R69). -/
def execMsSend (site : Nat) (rs1 : BitVec 5) (s : State) : Res := ok (sendRun s site rs1)

/-- The address of the oldest unconsumed ring entry (R65). -/
def ringHead (f : Facet) : Nat := (ringRange f).1 + 64 * (f.got % 2 ^ (nbits f.ring 28 4 + 4))

/-- `ms.recv` and `ms.poll` (R65): with an empty ring the one stalls, the other returns all ones. -/
def recvRun (s : State) (site : Nat) (poll : Bool) (rd : BitVec 5) : State :=
  let f := s.facet site
  if !(runs s site) || stalls f [] [] then s
  else if f.got = f.put then
    (if poll then s.setFacet site (advance (setX f rd.toNat 0xFFFFFFFF)) else s)
  else s.setFacet site (advance (setX f rd.toNat (BitVec.ofNat 32 (ringHead f))))

/-- `MS_RECV` (R65). -/
def execMsRecv (site : Nat) (rd : BitVec 5) (s : State) : Res := ok (recvRun s site false rd)

/-- `MS_POLL` (R65). -/
def execMsPoll (site : Nat) (rd : BitVec 5) (s : State) : Res := ok (recvRun s site true rd)

/-- `ms.ack`: the oldest unconsumed entry is released (R65). -/
def ackRun (s : State) (site : Nat) : State :=
  let f := s.facet site
  if !(runs s site) || stalls f [] [] then s
  else s.setFacet site (advance (if f.got = f.put then f else { f with got := f.got + 1 }))

/-- `MS_ACK` (R65). -/
def execMsAck (site : Nat) (s : State) : Res := ok (ackRun s site)

/-! ## Vertex instructions (R65, R176-R198) -/

/-- The seat of the unit that an operation goes to. -/
def vtSeat (op ref : Nat) (w : BitVec 128) : Nat :=
  match op with
  | 3 => barSeat (barKey ref)
  | 4 => refUnit (fld w 32 32)
  | _ => refUnit ref

/-- A `vt.` operation of a home as its unit applies it: 1 post, 2 set, 3 arrival, 4 watch, 5 read. It answers a status, for a read
the value, and the state. Log entry 29 (DESIGN CHOICE). -/
def vtApply (s0 : State) (op sec home site ref value : Nat) (w : BitVec 128) : Nat × Nat × State :=
  let s := unitTook s0 (vtSeat op ref w) home
  match op with
  | 1 => let r := vtPostOn s sec ref value; (r.1, r.1, r.2)
  | 2 => let r := vtSetOn s sec ref value; (r.1, r.1, r.2)
  | 3 => let r := barArrive s sec home ref; (r.1, r.1, r.2)
  | 4 =>
    let dk := fld w 28 2
    let dest := fld w 0 9
    if fld w 30 2 = 3 || 2 ≤ dk || fld w 9 19 ≠ 0 || (dk = 0 && !(taskIn s sec dest)) then (0x0507, 0x0507, s)
    else
      let r := vtRegister s { id := 0, unit := 0, ref := fld w 32 32, cond := fld w 30 2, cmp := fld w 64 32, cookie := fld w 96 32,
                              dkind := dk, dest := dest, sector := sec, site := some site, handle := none, wake := none }
      (r.1, r.1, r.2)
  | _ =>
    let st := refStatus s sec ref
    (st, (s.vobj (refKey ref)).value.toNat, s)

/-- A `vt.` operation applied by its unit at the instant at which it reaches it (R179). -/
def vtReach (s : State) (op sec home site ref value : Nat) (w : BitVec 128) : Nat × Nat × State :=
  let r := vtApply { s with now := unitStamp s (vtSeat op ref w) home } op sec home site ref value w
  (r.1, r.2.1, { r.2.2 with now := s.now })

/-- Two copies of one attempt of a step. -/
def sameAttempt (g : Facet) (st : Step) : Bool :=
  match g.step with
  | none => false
  | some q => q.home == st.home && q.entry == st.entry && q.tick == st.tick && q.replay == st.replay

/-- What a main copy's instruction of number `ix` returned, to its step or to the one that has ended (R198); none while it has not. -/
def mainResult (s : State) (st : Step) (ix : Nat) : Option (Option Word) :=
  let m := s.facet (s.siteOf st.home)
  if sameAttempt m st then tfind m.vtres ix
  else ((findOcc s st.entry st.tick).bind fun o => o.tasks.find? fun t => t.home == st.home).bind fun t => tfind t.vtres ix

/-- The register of a checker that waits for its main copy's instruction of number `ix`. -/
def takeCopy (g : Facet) (ix : Nat) (v : Word) : Facet :=
  match tfind g.copies ix with
  | none => g
  | some r => { g with x := lset g.x r v, copies := tdel g.copies ix }

/-- What an instruction of number `ix` of a site returned is kept, and given to the checker's copy of its step that waits for it (R198). -/
def setResult (s : State) (site ix : Nat) (v : Option Word) : State :=
  let s1 := s.modFacet site fun f => { f with vtres := tput f.vtres ix v }
  match (s.facet site).step, v with
  | some st, some w =>
    if st.checker then s1 else s1.modFacet (s.siteOf (checkerHome st.home)) fun g => if sameAttempt g st then takeCopy g ix w else g
  | _, _ => s1

/-- The log entry of a signal gets the status that its unit gave (R196). -/
def logStatus (f : Facet) (op lix st : Nat) : Facet :=
  if 3 < op then f
  else { f with log := lmod f.log lix fun e => { e with status := st, took := e.took || (st == 0 && op != 3), await := e.await && st == 0 } }

/-- The Facet with a signal entered in its log (R196). -/
def vtLogged (f : Facet) (op ref value : Nat) : Facet :=
  { f with log := if 3 < op then f.log else f.log ++ [{ op := op, ref := ref, value := value, status := 0, took := false, await := op == 3, body := 0 }] }

/-- A refused `vt.read` of a site: `FX_OPERAND`, and its checker's copy is refused as well (R71, R198). -/
def readRefused (s : State) (site ix ref : Nat) (pc : Word) : State :=
  raiseAt ((setResult s site ix none).modFacet site fun g => { g with issued := ix + 1 }) site 0x05 pc (BitVec.ofNat 32 ref)

/-- An operation applied at once on the site's die (R180); a refused `vt.read` raises `FX_OPERAND`. -/
def vtLocal (s : State) (site op rd ref value : Nat) (w : BitVec 128) : State :=
  let f := s.facet site
  let r := vtReach (s.setFacet site (vtLogged f op ref value)) op f.sector f.home site ref value w
  if op = 5 && r.1 ≠ 0 then readRefused r.2.2 site f.issued ref f.pc
  else
    let s1 := r.2.2.modFacet site fun g => { logStatus (advance (setX g rd (BitVec.ofNat 32 r.2.1))) op f.log.length r.1 with issued := g.issued + 1 }
    setResult s1 site f.issued (some (BitVec.ofNat 32 r.2.1))

/-- An operation on its way to a unit of another die; a `vt.read` holds its site until it is answered (R180, R326). -/
def vtAway (s : State) (site op rd ref value : Nat) (w : BitVec 128) : State :=
  let f := s.facet site
  let v : Vop := { tag := s.id, pc := f.pc, op := op, key := f.home, unit := vtSeat op ref w, ref := ref, value := value, watch := w, site := site, rd := rd,
                   home := f.home, sector := f.sector, gen := (s.sec f.sector).gen, ix := f.issued, lix := f.log.length, rsp := none }
  let f1 := vtLogged f op ref value
  let f2 := { (if op = 5 then f1 else advance f1) with issued := f.issued + 1, waits := supersede f rd ++ [(if op = 5 then 32 else rd, s.id)] }
  let s1 := s.takeId.setFacet site f2
  { s1 with sync := { s1.sync with vops := s1.sync.vops ++ [v] } }

/-- The unit of an operation is on the site's die, or is a hub. -/
def vtNear (site op ref : Nat) (w : BitVec 128) : Bool :=
  let seat := vtSeat op ref w
  decide (seat = dieOf site) || decide (6 ≤ seat)

/-- An operation sent to its unit: applied at once on the site's die, or on its way to another (R180, R326). Log entry 27 (DEDUCED). -/
def vtSend (s : State) (site op rd ref value : Nat) (w : BitVec 128) : State :=
  if vtNear site op ref w then vtLocal s site op rd ref value w
  else if !(roundTrip s (dieOf site) (vtSeat op ref w)) then raise s site 0x0A ref
  else vtAway s site op rd ref value w

/-- A result given to a `vt.` instruction without its being sent (R196-R198). Log entry 28 (DEDUCED). -/
def vtGive (s : State) (site rd : Nat) (v : Word) (g : Facet → Facet) : State :=
  setResult (s.modFacet site fun f => g { advance (setX f rd v) with issued := f.issued + 1 }) site (s.facet site).issued (some v)

/-- A checker's `vt.` instruction whose main copy has not returned: the step goes on, and the register waits (R180, R198). -/
def vtCopy (f : Facet) (rd : Nat) : Facet :=
  let kept := f.copies.filter fun p => p.2 != rd
  { advance f with issued := f.issued + 1, copies := if rd = 0 then kept else kept ++ [(f.issued, rd)] }

/-- Words that a `vt.` instruction folds (R390), `bad` for a record in a poisoned line; `vt.read` folds none. -/
def vtFold (op ref value : Nat) (w : BitVec 128) (bad : Bool) : List Nat :=
  if op ≤ 3 then [sigTag 3 false 0, ref + value * 2 ^ 32]
  else if op = 4 then [sigTag 4 bad 0, fld w 0 64, fld w 64 64]
  else []

/-- A replay diverges: nothing more is sent, the step stops in both copies, and a paired step's fault is reported (R197, R420). -/
def diverge (s : State) (site : Nat) (st : Step) : State :=
  let s1 := raise s site 0x0C 0
  if !st.paired then s1
  else
    let other := s.siteOf (if st.checker then st.home else checkerHome st.home)
    let s2 := if (s1.facet other).step.isSome && (s1.facet other).run == .running then raiseAt s1 other 0x0C (s1.facet other).pc 0 else s1
    raiseFault s2 s.now st.entry 0x06 (dieOf site) site 0x3F (some (s.facet site).sector)

/-- A `vt.` instruction of a site (R47, R65, R180, R196-R198). -/
def vtRun (s : State) (site op : Nat) (rd rs1 rs2 : BitVec 5) : State :=
  let f := s.facet site
  let x1 := (getX f rs1.toNat).toNat
  let ref := if op = 4 then 0 else x1
  let value := if op ≤ 2 then (getX f rs2.toNat).toNat else 0
  let w := if op = 4 then BitVec.ofNat 128 (ofBytes (lsRead f x1 16)) else 0
  match f.step with
  | none => s
  | some st =>
    if !(runs s site) || stalls f [rs1.toNat, rs2.toNat] (if op = 4 then [(x1, 16)] else []) then s
    else if op ≤ 3 && (f.ops.any (·.write) || s.sync.msgs.any fun m => m.origin == .send site) then s
    else if op = 4 && !(lsAligned x1 16) then raise s site 0x02 x1
    else
      let s1 := s.setFacet site (foldF f (vtFold op ref value w (lsBad f x1)))
      if st.checker then
        match mainResult s st f.issued with
        | none => if op = 5 then s else s1.modFacet site fun g => vtCopy g rd.toNat
        | some none => raise s site 0x05 ref
        | some (some v) => vtGive s1 site rd.toNat v id
      else if 3 < op then vtSend s1 site op rd.toNat ref value w
      else if 256 ≤ f.log.length then vtGive s1 site rd.toNat 0x050B id
      else
        match (if st.replay then f.oldLog[f.log.length]? else none) with
        | none => vtSend s1 site op rd.toNat ref value w
        | some e =>
          if e.op ≠ op || e.ref ≠ ref || e.value ≠ value then diverge s site st
          else if !e.took then vtSend s1 site op rd.toNat ref value w
          else
            let s2 := vtGive s1 site rd.toNat (BitVec.ofNat 32 e.status) fun g => { g with log := g.log ++ [e] }
            if op = 3 then devMsg s2 (vtSeat 3 ref w) f.home 34 16 e.body .barrier f.sector else s2

/-- `VT_POST_INSN` (R176). -/
def execVtPostInsn (site : Nat) (rd rs1 rs2 : BitVec 5) (s : State) : Res := ok (vtRun s site 1 rd rs1 rs2)

/-- `VT_SET_INSN` (R177). -/
def execVtSetInsn (site : Nat) (rd rs1 rs2 : BitVec 5) (s : State) : Res := ok (vtRun s site 2 rd rs1 rs2)

/-- `VT_READ` (R178). -/
def execVtRead (site : Nat) (rd rs1 : BitVec 5) (s : State) : Res := ok (vtRun s site 5 rd rs1 0)

/-- `VT_WATCH_INSN` (R182). -/
def execVtWatchInsn (site : Nat) (rd rs1 : BitVec 5) (s : State) : Res := ok (vtRun s site 4 rd rs1 0)

/-- `VT_BAR` (R191). -/
def execVtBar (site : Nat) (rd rs1 : BitVec 5) (s : State) : Res := ok (vtRun s site 3 rd rs1 0)

/-- An earlier operation of the same source has not reached the unit of this one (R179). -/
def vopBehind (s : State) (v : Vop) : Bool :=
  s.sync.vops.any fun u => u.site == v.site && u.unit == v.unit && u.rsp == none && decide (u.tag < v.tag)

/-- A remote operation reaches its unit and is applied at its stamp, in the order of its source (R179, R326); a retired generation is squashed
(R265). -/
def vopArrive (s : State) (tag : Nat) : State :=
  match s.sync.vops.find? fun v => v.tag == tag && v.rsp == none with
  | none => s
  | some v =>
    if v.gen ≠ (s.sec v.sector).gen then { s with sync := { s.sync with vops := s.sync.vops.filter fun u => u.tag != tag } }
    else if vopBehind s v || !(unitTakes s v.unit v.home) then s
    else
      let r := vtApply s v.op v.sector v.home v.site v.ref v.value v.watch
      let s1 := if (s.facet v.site).waits.any fun p => p.2 == tag then r.2.2.modFacet v.site fun f => logStatus f v.op v.lix r.1 else r.2.2
      { s1 with sync := { s1.sync with vops := s1.sync.vops.map fun u => if u.tag = tag then { u with rsp := some (r.1, r.2.1) } else u } }

/-- `VOP` (R326). -/
def execVop (tag : Nat) (s : State) : Res := ok (vopArrive s tag)

/-- A response reaches the issuing site and writes its register; a refused `vt.read` raises `FX_OPERAND` (R65, R180, R326). -/
def vrspArrive (s : State) (tag : Nat) : State :=
  match s.sync.vops.find? fun v => v.tag == tag && v.rsp != none with
  | none => s
  | some v =>
    let s1 := { s with sync := { s.sync with vops := s.sync.vops.filter fun u => u.tag != tag } }
    match v.rsp with
    | none => s1
    | some (st, val) =>
      if !((s.facet v.site).waits.any fun p => p.2 == tag) then s1
      else
        let rd := (((s.facet v.site).waits.find? fun p => p.2 == tag).map Prod.fst).getD 0
        let s2 := s1.modFacet v.site fun f => { f with waits := f.waits.filter fun p => p.2 != tag }
        if v.op = 5 && st ≠ 0 then readRefused s2 v.site v.ix v.ref v.pc
        else setResult (s2.modFacet v.site fun f =>
          if v.op = 5 then advance (setX f v.rd (BitVec.ofNat 32 val)) else setX f rd (BitVec.ofNat 32 val)) v.site v.ix (some (BitVec.ofNat 32 val))

/-- `VRSP` (R326). -/
def execVrsp (tag : Nat) (s : State) : Res := ok (vrspArrive s tag)

end Sys2Proof.Machine
end

