-- ==== Sys2Proof/Machine/Started.lean ====
section
/-! DEFINITION. What every started command does first (R219, R220, R265): its handle must hold a started command of its row. -/

namespace Sys2Proof.Machine

/-- The slot that a handle names, when it holds a started command with the row's code whose sector generation is current. -/
def startedCmd (s : State) (h code : Nat) : Option (Nat × Slot) :=
  let x := s.slot (slotOf h)
  if s.holds h && x.st == .inflight && x.cmd == .started && x.code == code && x.sgen == (s.sec x.sector).gen then some (slotOf h, x)
  else none

/-- A buffer that a command latched lies in a stack that its hub does not reach, or a unit that it acts on is one (R331). -/
def cmdCut (s : State) (x : Slot) : Bool :=
  (x.pages.any fun p => !(hubReach s x.hub p.2)) || (cmdUnits s x).any fun u => decide (u < 6) && !(routeUp s (4 + x.hub) u)

/-- The effect `g` of a started command in slot `i`; one whose input held poison completes with `ST_CMD_POISON` instead (R223), one
whose requests would take a link that is down with `ST_CMD_ENGINE` (R331). Log entry 136 (DEDUCED). -/
def runSlot (s : State) (i : Nat) (x : Slot) (g : State → Nat → Slot → State) : State :=
  if x.bad then done s i 0x010D 0 else if cmdCut s x then done s i 0x010E 0 else g s i x

/-- The command of a handle whose context has been torn down, where its effect is still to come and its sector generation is current
(R224, R265). -/
def tornCmd (s : State) (h code : Nat) : Option Slot :=
  (s.cmds.torn.find? fun p => p.1 == h && p.2.code == code && p.2.sgen == (s.sec p.2.sector).gen).map Prod.snd

/-- An action on the command of a handle whose context has been torn down (R224): its effect stands, and nothing of its slot, which may be
another's by now, is touched. The command stays open while it still waits. -/
def runTorn (s : State) (h : Nat) (x : Slot) (act : State → State) : State :=
  let i := slotOf h
  let s1 := act (s.setSlot i x)
  let y := s1.slot i
  let rest := s1.cmds.torn.filter fun p => p.1 != h
  let s2 := s1.setSlot i (s.slot i)
  { s2 with cmds := { s2.cmds with torn := if effectOpen y then rest ++ [(h, y)] else rest } }

/-- The effect `g` of the started command of a handle; a handle that names no started command of this row changes nothing. -/
def runCmd (s : State) (h code : Nat) (g : State → Nat → Slot → State) : State :=
  match startedCmd s h code with
  | some (i, x) => runSlot s i x g
  | none => match tornCmd s h code with
    | some x => if x.cmd = .started then runTorn s h x fun a => runSlot a (slotOf h) x g else s
    | none => s

/-- Word `i` of a command's input list. -/
def inWord (x : Slot) (i : Nat) : Nat := leAt x.input (4 * i) 4

/-- The first `n` words of a command's input list. -/
def inWords (x : Slot) (n : Nat) : List Nat := (List.range n).map (inWord x)

/-- A command writes its result buffer through the pages that it latched (R212). -/
def outWrite (s : State) (x : Slot) (va : Nat) (bytes : List Byte) : State := pagedWrite s x.pages va bytes

/-- A buffer that a command's body names (R211, R212): address, length, whether it is written, and whether its bytes are an input
list that acceptance reads. -/
structure Buf where
  va    : Nat
  len   : Nat
  write : Bool
  input : Bool
  deriving DecidableEq, Repr

/-- Fields of a body outside those listed as (lowest bit, width) are zero. -/
def onlyFields (b : BitVec 384) (fs : List (Nat × Nat)) : Bool :=
  (List.range 384).all fun i => !(b.getLsbD i) || fs.any fun f => decide (f.1 ≤ i) && decide (i < f.1 + f.2)

/-- A command that acts on the unit of another die than its hub waits until the forwarded descriptor has arrived (R219). -/
def awaitsFwd (x : Slot) (seat : Nat) : Bool := seat != 4 + x.hub && !x.fwd

/-- A forwarded descriptor arrives at the unit of another die (R219, R325), over links that are up (R331); a retired generation is squashed
(R265). -/
def fwdArrive (s : State) (h : Nat) : State :=
  let x := s.slot (slotOf h)
  if cmdCut s x then s
  else if s.holds h && x.st == .inflight && (x.cmd == .started || x.cmd == .waiting) && x.sgen == (s.sec x.sector).gen then
    s.setSlot (slotOf h) { x with fwd := true }
  else { s with cmds := { s.cmds with torn := s.cmds.torn.map fun p => if p.1 = h then (h, { p.2 with fwd := true }) else p } }

/-- `FWD` (R219). -/
def execFwd (h : Nat) (s : State) : Res := ok (fwdArrive s h)

end Sys2Proof.Machine
end

