-- ==== Sys2Proof/Machine/Images.lean ====
section
/-! DEFINITION. Placement images: `IMG_LOAD` and `IMG_UNLOAD` (R157-R171), and a task as it is placed on a site (R149, R162). -/

namespace Sys2Proof.Machine

/-! ## Header and directory (R158-R160) -/

/-- A directory entry. -/
structure Section where
  kind : Nat
  arg  : Nat
  off  : Nat
  len  : Nat
  scrc : Nat
  resv : Nat
  deriving DecidableEq, Repr

/-- The header as a number. -/
def imgHdr (img : List Byte) : Nat := leAt img 0 64

/-- Length that a header states. -/
def imgLength (hdr : Nat) : Nat := nbits hdr 192 64

/-- Bytes of the image that a header announces: its length where R157 allows it, else the header alone. -/
def imgSpan (hdr : Nat) : Nat := if 128 ≤ imgLength hdr && imgLength hdr ≤ 2 ^ 36 then imgLength hdr else 64

/-- A header keeps R157 and R158. -/
def imgHeaderOk (img : List Byte) : Bool :=
  let h := imgHdr img
  let n := imgLength h
  nbits h 0 32 == 0x4950584B && nbits h 32 16 == 0x3280 && nbits h 48 16 == 1 && nbits h 64 64 == 0 && decide (1 ≤ nbits h 144 16) &&
  decide (nbits h 144 16 ≤ 4096) && n % 64 == 0 && decide (128 ≤ n) && decide (n ≤ 2 ^ 36) &&
  crc32c (img.take 20 ++ List.replicate 4 0 ++ (img.drop 24).take 40) == nbits h 160 32

/-- The directory of an image. -/
def imgSections (img : List Byte) : List Section :=
  (List.range (nbits (imgHdr img) 144 16)).map fun i =>
    let e := leAt img (64 + 32 * i) 32
    { kind := nbits e 0 16, arg := nbits e 32 32, off := nbits e 64 64, len := nbits e 128 64, scrc := nbits e 224 32,
      resv := nbits e 16 16 + nbits e 192 32 }

/-- The bytes of a section. -/
def secBody (img : List Byte) (c : Section) : List Byte := (img.drop c.off).take c.len

/-- The sections of one type, in directory order. -/
def secsOf (l : List Section) (k : Nat) : List Section := l.filter (·.kind == k)

/-- The home that a section's argument names. -/
def secHome (c : Section) : Nat := nbits c.arg 0 9

/-- The slice that a section's argument names. -/
def secSlice (c : Section) : Nat := nbits c.arg 16 3

/-- No two sections of a type carry the same argument. -/
def argsUnique (l : List Section) : Bool := (l.map Section.arg).eraseDups.length == l.length

/-- A section's argument has the form of its type (R160). -/
def argOk (c : Section) : Bool :=
  match c.kind with
  | 1 => decide (1 ≤ c.arg) && decide (c.arg ≤ 256)
  | 2 => c.arg == secHome c + 65536 * secSlice c
  | 3 => c.arg == secHome c + 65536 * secSlice c
  | 4 => c.arg == secHome c + 65536 * secSlice c
  | 5 => decide (c.arg < 512)
  | 6 => c.arg == 0
  | 7 => decide (c.arg < 4)
  | 8 => decide (1 ≤ c.arg) && decide (c.arg ≤ 1024)
  | 9 => c.arg == 0
  | _ => false

/-- The task table of an image. -/
def imgTasks (img : List Byte) : List (BitVec 256) :=
  match (secsOf (imgSections img) 1).head? with
  | none => []
  | some c => (List.range c.arg).map fun i => BitVec.ofNat 256 (leAt (secBody img c) (32 * i) 32)

/-- Home of a task entry (R161). -/
def tHome (t : BitVec 256) : Nat := fld t 0 9

/-- The directory keeps R159 and R160. -/
def imgDirOk (img : List Byte) : Bool :=
  let l := imgSections img
  let n := l.length
  let ts := imgTasks img
  let dies := (ts.map fun t => dieOf (tHome t)).eraseDups
  let named (c : Section) : Bool := ts.any fun t => tHome t == secHome c
  l.all (fun c => c.resv == 0 && decide (1 ≤ c.len) && c.off % 64 == 0 && decide (64 + 32 * n ≤ c.off) && decide (c.off + c.len ≤ imgLength (imgHdr img)) &&
    argOk c && crc32c (secBody img c) == c.scrc) &&
  (l.zipIdx.all fun a => l.zipIdx.all fun b => a.2 == b.2 || !(overlap a.1.off a.1.len b.1.off b.1.len)) &&
  (secsOf l 1).length == 1 && (secsOf l 9).length ≤ 1 && [2, 3, 4, 5, 7].all (fun k => argsUnique (secsOf l k)) &&
  [2, 3, 4, 5].all (fun k => (secsOf l k).all named) && (secsOf l 7).all (fun c => dies.contains c.arg) &&
  dies.all fun d => (secsOf l 7).any fun c => c.arg == d

/-! ## Bodies -/

/-- The runs of a body: bits [127:0] of each header and the data, until the body ends (R162). -/
def runsOf : Nat → List Byte → (Nat → Option (Nat × Nat × Nat)) → Option (List (Nat × Nat × List Byte))
  | 0, _, _ => none
  | n + 1, b, f =>
    if b.isEmpty then some []
    else match f (leAt b 0 64) with
      | none => none
      | some (k, a, len) =>
        if len = 0 || len % 64 ≠ 0 || b.length < 64 + len then none
        else (runsOf n (b.drop (64 + len)) f).map ((k, a, (b.drop 64).take len) :: ·)

/-- Header of a local-store run (R162). -/
def lsHead (h : Nat) : Option (Nat × Nat × Nat) :=
  let a := nbits h 0 32
  if h / 2 ^ 66 ≠ 0 || 2 ≤ nbits h 64 2 || a % 64 ≠ 0 || 0x300000 < a + nbits h 32 32 then none else some (nbits h 64 2, a, nbits h 32 32)

/-- Header of a sector-memory run (R162). -/
def dramHead (h : Nat) : Option (Nat × Nat × Nat) :=
  if h / 2 ^ 128 ≠ 0 || nbits h 0 64 % 64 ≠ 0 then none else some (0, nbits h 0 64, nbits h 64 64)

/-- The local-store runs of a task and slice. -/
def lsRuns (img : List Byte) (h i : Nat) : Option (List LsRun) :=
  match (secsOf (imgSections img) 2).find? fun c => secHome c == h && secSlice c == i with
  | none => some []
  | some c => (runsOf (c.len / 64 + 1) (secBody img c) lsHead).map fun l => l.map fun r => { volatile := r.1 == 1, addr := r.2.1, bytes := r.2.2 }

/-- The outlier maps of a task and slice: destination address and line; none when the body breaks R163. -/
def lsMaps (img : List Byte) (h i : Nat) : Option (List (Nat × List Byte)) :=
  match (secsOf (imgSections img) 3).find? fun c => secHome c == h && secSlice c == i with
  | none => some []
  | some c =>
    let b := secBody img c
    let n := leAt b 0 2
    let rows := ceilDiv n 32
    if leAt b 2 62 ≠ 0 || n = 0 || 4096 < n || b.length ≠ 64 * (1 + rows + n) then none
    else
      let dst := (List.range n).map fun j => leAt b (64 + 2 * j) 2
      if !(dst.all fun d => decide (d < 49152)) || leAt b (64 + 2 * n) (64 * rows - 2 * n) ≠ 0 then none
      else some (dst.zipIdx.map fun d => (64 * d.1, (b.drop (64 * (1 + rows + d.2))).take 64))

/-- A map line keeps R90 and R163, whatever its tile. Log entry 161 (DESIGN CHOICE). -/
def mapLineOk (b : List Byte) : Bool :=
  let m := ofBytes b
  let cnt := nbits m 64 4
  nbits m 112 400 == 0 && nbits m 68 12 == 0 && decide (cnt ≤ 8) && nbits m 80 16 < 49152 && nbits m 96 16 < 49152 &&
  (List.range 7).all (fun j => decide (cnt ≤ j + 1) || decide (nbits m (8 * j) 8 < nbits m (8 * (j + 1)) 8)) &&
  nbits m (8 * cnt) (64 - 8 * cnt) == 0

/-- Ranges of a list given as start and length do not overlap. -/
def apart : List (Nat × Nat) → Bool
  | [] => true
  | a :: r => r.all (fun b => !(overlap a.1 a.2 b.1 b.2)) && apart r

/-- Program region of a task entry (R161). -/
def tProg (t : BitVec 256) : Nat × Nat := (fld t 64 22, fld t 86 10 * 1024)

/-- Receive ring of a task entry. -/
def tRing (t : BitVec 256) : Nat × Nat := (fld t 96 22, 64 * 2 ^ (fld t 120 4 + 4))

/-- The batch area that an image binds for a home (R165). -/
def imgBatch (img : List Byte) (h : Nat) : List (Nat × Nat) :=
  ((secsOf (imgSections img) 5).filter fun c => c.arg == h).map fun c => (nbits (leAt (secBody img c) 0 64) 192 22, 4160)

/-- The `PRISM` line of a die in an image. -/
def imgPrism (img : List Byte) (d : Nat) : BitVec 512 :=
  match (secsOf (imgSections img) 7).find? fun c => c.arg == d with
  | none => 0
  | some c => BitVec.ofNat 512 (leAt (secBody img c) 0 64)

/-- A task entry keeps R161. -/
def taskOk (s : State) (sec : Nat) (img : List Byte) (t : BitVec 256) : Bool :=
  let h := tHome t
  let stack := (fld t 160 22, fld t 128 22 - fld t 160 22)
  let rs := [tProg t, tRing t, stack] ++ imgBatch img h
  let plan := (planOf s (dieOf h)).getD (imgPrism img (dieOf h))
  fld t 182 74 == 0 && fld t 150 10 == 0 && fld t 124 4 == 0 && fld t 118 2 == 0 && fld t 54 10 == 0 && fld t 19 13 == 0 && fld t 9 7 == 0 &&
  decide (h % 128 < 72) && (s.sec sec).record.getLsbD (512 + 72 * (h / 128) + h % 128) && decide (fld t 120 4 ≤ 6) && decide (1 ≤ fld t 86 10) &&
  fld t 64 6 == 0 && fld t 96 6 == 0 && fld t 160 6 == 0 && fld t 128 4 == 0 && decide (fld t 160 22 < fld t 128 22) && fld t 32 22 % 2 == 0 &&
  decide ((tProg t).1 ≤ fld t 32 22) && decide (fld t 32 22 < (tProg t).1 + (tProg t).2) && rs.all (fun r => decide (r.1 + r.2 ≤ 0x300000)) && apart rs &&
  fld t 16 3 == fld (imgPrism img (dieOf h)) 128 3 && fld t 16 3 == fld plan 128 3

/-- The task table keeps R161. -/
def tasksOk (s : State) (sec : Nat) (img : List Byte) : Bool :=
  let ts := imgTasks img
  let hs := ts.map tHome
  (secsOf (imgSections img) 1).all (fun c => c.len == 32 * c.arg) && ts.all (taskOk s sec img) && hs.eraseDups.length == hs.length &&
  (List.range 4).all fun d => decide ((hs.filter fun h => dieOf h == d).length ≤ 64)

/-- Bytes of a list of ranges that lie in a region. -/
def within (reg : Nat × Nat) (l : List LsRun) : Nat :=
  lsum (fun r => Nat.min (r.addr + r.bytes.length) (reg.1 + reg.2) - Nat.max r.addr reg.1) l

/-- The runs of a task and slice keep R162. Log entry 160 (DESIGN CHOICE). -/
def sliceRunsOk (img : List Byte) (t : BitVec 256) (i : Nat) : Bool :=
  match lsRuns img (tHome t) i with
  | none => false
  | some l =>
    let const := l.filter fun r => !r.volatile
    let inside (r : LsRun) : Bool := decide ((tProg t).1 ≤ r.addr) && decide (r.addr + r.bytes.length ≤ (tProg t).1 + (tProg t).2)
    apart ((tRing t) :: l.map fun r => (r.addr, r.bytes.length)) &&
    (l.isEmpty || (within (tProg t) const == (tProg t).2 && const.all fun r => inside r || !(overlap r.addr r.bytes.length (tProg t).1 (tProg t).2)))

/-- The sector-memory runs of an image; none when a body breaks R162. -/
def imgDramRuns (img : List Byte) : Option (List (Nat × List Byte)) :=
  (secsOf (imgSections img) 6).foldr (fun c acc =>
    match acc, runsOf (c.len / 64 + 1) (secBody img c) dramHead with
    | some l, some r => some (r.map (fun x => (x.2.1, x.2.2)) ++ l)
    | _, _ => none) (some [])

/-- The outlier maps of a task and slice keep R163. -/
def sliceMapsOk (img : List Byte) (t : BitVec 256) (i : Nat) : Bool :=
  match lsMaps img (tHome t) i, lsRuns img (tHome t) i with
  | some m, some r => m.all (fun x => mapLineOk x.2) && apart (m.map fun x => (x.1, 64)) &&
      m.all fun x => r.all fun y => !(overlap x.1 64 y.addr y.bytes.length)
  | _, _ => false

/-- The carry declaration of a task and slice, with its buffers' pages: outer none when it breaks R147 or R164. -/
def imgCarry (s : State) (sec : Nat) (img : List Byte) (t : BitVec 256) (i : Nat) : Option (Option Carry) :=
  match (secsOf (imgSections img) 4).find? fun c => secHome c == tHome t && secSlice c == i with
  | none => some none
  | some c =>
    let b := secBody img c
    let a := leAt b 0 8
    let z := leAt b 8 8
    let n := nbits (leAt b 16 1) 0 5
    let rs := (List.range n).map fun j => (leAt b (64 + 8 * j) 4, leAt b (68 + 8 * j) 4)
    let total := lsum Prod.snd rs
    let vol := ((lsRuns img (tHome t) i).getD []).filter (·.volatile)
    let shape := b.length == 192 && leAt b 16 48 == n && decide (1 ≤ n) && decide (n ≤ 16) && leAt b (64 + 8 * n) (128 - 8 * n) == 0 &&
      rs.all (fun r => r.1 % 64 == 0 && r.2 % 64 == 0 && decide (0 < r.2) && vol.any fun v => decide (v.addr ≤ r.1) && decide (r.1 + r.2 ≤ v.addr + v.bytes.length)) &&
      apart ([tProg t, tRing t] ++ rs) && decide (total ≤ 0x300000) && a % 64 == 0 && z % 64 == 0 && !(overlap a total z total)
    match latchPages s sec a total true, latchPages s sec z total true with
    | some pa, some pz => if shape then some (some { bufa := a, bufb := z, pagesA := pageOffsets pa, pagesB := pageOffsets pz, ranges := rs }) else none
    | _, _ => none

/-- The KV binding of a task; outer none when it breaks R165. -/
def imgBind (img : List Byte) (h : Nat) : Option (Option KvBind) :=
  match (secsOf (imgSections img) 5).find? fun c => c.arg == h with
  | none => some none
  | some c =>
    let b := secBody img c
    let v := leAt b 0 64
    if b.length ≠ 64 || nbits v 4 60 ≠ 0 || v / 2 ^ 214 ≠ 0 || nbits v 64 64 % 64 ≠ 0 || nbits v 128 64 % 64 ≠ 0 || nbits v 192 22 % 64 ≠ 0 ||
       0x300000 < nbits v 192 22 + 4160 then none
    else some (some { pool := nbits v 0 4, tab0 := nbits v 64 64, tab1 := nbits v 128 64, area := nbits v 192 22 })

/-- Bytes of the runs and maps that the Prism's area of a die must hold (R166). -/
def areaNeed (img : List Byte) (d slices : Nat) : Nat :=
  lsum (fun t => lsum (fun i =>
    let runs := (lsRuns img (tHome t) i).getD []
    lsum (fun r => if r.volatile && slices < 2 then 0 else r.bytes.length) runs + 64 * ((lsMaps img (tHome t) i).getD []).length) (List.range slices))
    ((imgTasks img).filter fun t => dieOf (tHome t) == d)

/-- The `PRISM` section of a die with its latched area; none when it breaks R152 or R166. -/
def imgPrismSec (s : State) (sec : Nat) (img : List Byte) (c : Section) : Option PrismSec :=
  let l := BitVec.ofNat 512 (leAt (secBody img c) 0 64)
  let n := planSlices l
  let area := fld l 0 64
  let bytes := fld l 64 64
  let plan := (planOf s c.arg).getD l
  let shape := c.len == 64 && fld l 320 192 == 0 && fld l 184 8 == 0 && fld l 131 5 == 0 && planStart l 0 == 0 &&
    (List.range 8).all (fun i => decide (i < n) || (planStart l i == 0 && planRsv l i == 0)) &&
    (List.range (n - 1)).all (fun i => decide (planStart l i < planStart l (i + 1))) &&
    (List.range n).all (fun i => decide (planStart l i < s.num 0x2801 0) && decide (planRsv l i < s.num 0x2800 0)) &&
    area % 4096 == 0 && decide (areaNeed img c.arg n ≤ bytes) && (List.range 8).all (fun i => planStart plan i == planStart l i)
  match latchPages s sec area bytes true with
  | none => none
  | some p => if shape && p.all (fun q => stackOf q.2 == c.arg) then some { die := c.arg, line := l, pages := pageOffsets p } else none

/-! ## The load (R170) -/

/-- The tasks of an image as state. -/
def imgTaskState (s : State) (sec : Nat) (img : List Byte) : List Task :=
  (imgTasks img).map fun t =>
    { sector := sec, home := tHome t, decl := t, bind := (imgBind img (tHome t)).getD none, initial := true,
      slices := (List.range (fld t 16 3 + 1)).map fun i =>
        { runs := (lsRuns img (tHome t) i).getD [], maps := (lsMaps img (tHome t) i).getD [], carry := (imgCarry s sec img t i).getD none,
          bIsCommitted := false } }

/-- The placement key of the hub's firmware and whether a signature is required (R168, R504). -/
def placePolicy (s : State) (hub : Nat) : Option (List Byte × Bool) := (lget s.plant.hubs hub HubBoot.fresh).placeKey

/-- The signature check (R168, R504). -/
def imgSignatureOk (s : State) (hub : Nat) (img : List Byte) : Bool :=
  match placePolicy s hub with
  | none => true
  | some (key, required) =>
    match (secsOf (imgSections img) 9).head? with
    | none => !required
    | some c => c.len == 3309 && mldsaVerify key (img.take 64) (secBody img c)

/-- The status of the checks before the schedule sections, zero when all pass: header, digest, signature, directory, then the sections
in ascending type order (R170, R171). Log entry 42 (DEDUCED). Log entry 151 (DESIGN CHOICE). Log entry 162 (DESIGN CHOICE). -/
def imgCheck (s : State) (hub sec : Nat) (img : List Byte) : Nat :=
  let secs := secsOf (imgSections img)
  let ts := imgTasks img
  let slices (t : BitVec 256) : List Nat := List.range (fld t 16 3 + 1)
  let sliceNamed (k : Nat) : Bool := (secs k).all fun c => ts.all fun t => tHome t != secHome c || decide (secSlice c ≤ fld t 16 3)
  if !(imgHeaderOk img) then 0x0151
  else if shake256 ((img.drop 64).take (imgLength (imgHdr img) - 64)) ≠ toBytes 32 (nbits (imgHdr img) 256 256) then 0x0152
  else if !(imgSignatureOk s hub img) then 0x0153
  else if !(imgDirOk img) then 0x0154
  else if !(tasksOk s sec img) then 0x0155
  else if !(sliceNamed 2) then 0x0159
  else if !(ts.all fun t => (slices t).all fun i => sliceRunsOk img t i) then 0x0156
  else if !(sliceNamed 3) then 0x0159
  else if !(ts.all fun t => (slices t).all fun i => sliceMapsOk img t i) then 0x0157
  else if !(sliceNamed 4) then 0x0159
  else if !(ts.all fun t => (slices t).all fun i => (imgCarry s sec img t i).isSome) then 0x0158
  else if !(ts.all fun t => (imgBind img (tHome t)).isSome) then 0x015C
  else match imgDramRuns img with
    | none => 0x0156
    | some rs =>
      if !(rs.all fun r => (latchPages s sec r.1 r.2.length true).isSome) then 0x015B
      else if !((secs 7).all fun c => (imgPrismSec s sec img c).isSome) then 0x0159
      else if !((secs 8).all fun c => c.len == 32 * c.arg) then 0x015A
      else 0

/-- The entries of the image's `SCHED` sections, each with its position in its section (R167). -/
def imgEntries (img : List Byte) : List (Nat × BitVec 256) :=
  (secsOf (imgSections img) 8).flatMap fun c => (List.range c.arg).map fun i => (i, BitVec.ofNat 256 (leAt (secBody img c) (32 * i) 32))

/-- An entry placed at an index of the table with its sector (R231). -/
def placeEntry (s : State) (sec i : Nat) (r : BitVec 256) : State :=
  let e : SchEntry := { raw := r ||| BitVec.ofNat 256 (sec * 2 ^ 250), en := r.getLsbD 216, change := [], armed := none }
  { s with sched := { s.sched with entries := tput s.sched.entries i e } }

/-- The lowest free indices of the table; past 1,023 they only show that the table is full. -/
def freeIndices (s : State) (n : Nat) : List Nat := ((List.range (1024 + n)).filter fun i => (s.ent i).isNone).take n

/-- A loaded image's tasks, areas and runs in force, its schedule entries apart (R170), and the device's copies in the areas (R166). -/
def imgApply (s : State) (sec : Nat) (img : List Byte) : State :=
  let ts := imgTaskState s sec img
  let ps := (secsOf (imgSections img) 7).filterMap (imgPrismSec s sec img)
  let runs := (imgDramRuns img).getD []
  let s1 := runs.foldl (fun a r => match latchPages s sec r.1 r.2.length true with
    | none => a
    | some p => countPaged (pagedWrite a p r.1 r.2) p r.1 r.2.length 8 true) s
  let im : Image := { digest := toBytes 32 (nbits (imgHdr img) 256 256), homes := ts.map Task.home, prisms := ps }
  let s2 := { s1 with work := { s1.work with tasks := ts.foldl (fun t k => tput t k.home k) s1.work.tasks, images := tput s1.work.images sec im } }
  ts.foldl (fun a t => (List.range t.slices.length).foldl (fun b i => copyInit (copyInit b t i false false) t i true false) a) s2

/-- The first entry of a fragment that breaks a rule: its position and detail (R233). -/
def firstBad (s : State) (sec : Nat) : List ((Nat × BitVec 256) × Nat) → Option (Nat × Nat)
  | [] => none
  | p :: r =>
    let d := if 1024 ≤ p.2 then 0x060A else if entSector p.1.2 ≠ 0 then 0x0604 else entryDetail s p.2 (p.1.2 ||| BitVec.ofNat 256 (sec * 2 ^ 250))
    if d ≠ 0 then some (p.1.1, d) else firstBad s sec r

/-- `IMG_LOAD` (R169-R171, R233): nothing is applied unless every check passes. -/
def imgLoad (s : State) (h : Nat) : State :=
  runCmd s h 0x50 fun s i x =>
    let va := fld x.body 320 64
    let hdr := ofBytes (pagedRead s x.pages va 64)
    let img := pagedRead s x.pages va (imgSpan hdr)
    if (tfind s.work.images x.sector).isSome then done s i 0x0150 0
    else if pagedBad s x.pages va (imgSpan hdr) then done (countPaged s x.pages va (imgSpan hdr) 8 false) i 0x010D 0
    else
      let st := imgCheck s x.hub x.sector img
      let r := countPaged s x.pages va (imgSpan hdr) 8 false
      if st ≠ 0 then done r i st 0
      else
        let s1 := imgApply r x.sector img
        let es := imgEntries img
        let placed := es.zip (freeIndices s es.length)
        let s2 := placed.foldl (fun a p => placeEntry a x.sector p.2 p.1.2) s1
        match firstBad s2 x.sector placed with
        | some (pos, d) => done (r.setNum 0x2805 0 (d * 65536 + pos)) i 0x015A 0
        | none => done s2 i 0 0

/-- `IMG_LOAD` (R170). -/
def execImgLoad (h : Nat) (s : State) : Res := ok (imgLoad s h)

/-! ## Placing and removing tasks -/

/-- A task of home `h` placed on a site with its local store as it is at entry to OPERATIONAL: its runs, and zero elsewhere (R162);
its counts start afresh (R68). -/
def placeTask (s : State) (site h : Nat) : State :=
  match taskOf s h with
  | none => s
  | some t =>
    let old := s.facet site
    let f := { Facet.empty with home := t.home, sector := t.sector, placed := true,
                                ring := pack [(28, 4, fld t.decl 120 4), (6, 16, fld t.decl 96 22 / 64)],
                                prog := pack [(22, 10, fld t.decl 86 10), (6, 16, fld t.decl 64 22 / 64)],
                                timeh := old.timeh, figure := old.figure, testNs := old.testNs, finding := old.finding }
    let s1 := s.setFacet site (putRuns f (sliceAt t (residentSlice s t)) false)
    { s1 with work := { s1.work with site := tput s1.work.site h site } }

/-- The initial carry contents of a slice written to buffer A, and to its mirror where asked; A is committed (R149, R389). -/
def writeInitial (s : State) (t : Task) (i : Nat) (mirror : Bool) : State :=
  let sl := sliceAt t i
  match sl.carry with
  | none => s
  | some c =>
    let f := putRuns Facet.empty sl false
    let s1 := (carryLines c).zipIdx.foldl (fun a p =>
      let o := carryAt c false p.2
      let put (b : State) (m : Bool) : State := agentWrite b (agentDie t m) (sideOf m o) (lsRead f p.1 64) false
      if mirror then put (put a false) true else put a false) s
    modSlice s1 t.home i fun l => { l with bIsCommitted := false }

/-- A task runs in two copies, so that the device keeps its mirrors (R387, R389). -/
def mirrored (s : State) (h : Nat) : Bool := pairedHome s h && s.num 0x4000 0 == 0

/-- The carry sets and the device's copies of a task as they are at entry to OPERATIONAL, in the mirrors too while coupled (R149, R153, R389). -/
def initialCopies (s : State) (t : Task) : State :=
  let both := mirrored s t.home
  (List.range t.slices.length).foldl (fun a i =>
    let a1 := copyInit (writeInitial a t i both) t i true false
    if both then copyInit (copyInit a1 t i false true) t i true true else a1) s

/-- What held a message to a task that has ceased to exist is freed as if it had been deposited (R188). -/
def discardFor (s : State) (h : Nat) : State :=
  (s.sync.msgs.filter fun m => m.dest == h && m.src == 0x1FF).foldl (fun a m => delivered (dropMsg a m.id) m) s

/-- A home leaves its site. -/
def unplace (s : State) (h : Nat) : State :=
  let s1 := s.modFacet (s.siteOf h) fun f => if f.placed && (f.home == h || f.home == checkerHome h) then { f with placed := false, run := .idle, step := none } else f
  { s1 with work := { s1.work with site := tdel s1.work.site h } }

/-- An armed trigger of an entry that leaves the table, which completes at its due time (R242): entry, tick, due time and handle. -/
def orphanOf (s : State) (p : Nat × SchEntry) : List (Nat × Nat × Nat × Nat) :=
  match p.2.armed with
  | none => []
  | some (n, h) => [(p.1, n, tickStart s n + fld p.2.raw 80 16 * 1000, h)]

/-- The `SCH_ENABLE` commands that name an entry and have not acted yet (R248). -/
def enablesOf (s : State) (e : Nat) : List Nat :=
  (s.cmds.slots.filter fun p => p.2.st == .inflight && p.2.code == 0xC1 && (p.2.cmd == .queued || p.2.cmd == .started) && fld p.2.body 0 10 == e).map Prod.fst

/-- The entries of a sector leave the table; a waiting `SCH_ENABLE` of one completes (R248), and the trigger of one that is armed waits for its
due time (R242). -/
def dropEntries (s : State) (sec : Nat) : State :=
  let es := s.sched.entries.filter fun p => entSector p.2.raw == sec
  let s1 := es.foldl (fun a p => (enablesOf a p.1).foldl (fun b i => finish b i 0x0601 0 b.now)
    (p.2.change.foldl (fun b c => finishH b c.2 0x0601 0 b.now) a)) s
  { s1 with sched := { s1.sched with entries := s1.sched.entries.filter fun p => entSector p.2.raw != sec,
                                     occs := s1.sched.occs.filter fun o => !(es.any fun p => p.1 == o.entry),
                                     orphans := s1.sched.orphans ++ es.flatMap (orphanOf s) } }

/-- `IMG_UNLOAD` (R169, R188, R248). -/
def imgUnload (s : State) (h : Nat) : State :=
  runCmd s h 0x51 fun s i x =>
    match tfind s.work.images x.sector with
    | none => done s i 0x0150 0
    | some im =>
      let s1 := dropEntries s x.sector
      let s2 := im.homes.foldl (fun a h =>
        let a1 := discardFor (unplace (unplace a h) (checkerHome h)) h
        { a1 with work := { a1.work with tasks := tdel a1.work.tasks h } }) s1
      done { s2 with work := { s2.work with images := tdel s2.work.images x.sector } } i 0 0

/-- `IMG_UNLOAD` (R169). -/
def execImgUnload (h : Nat) (s : State) : Res := ok (imgUnload s h)

end Sys2Proof.Machine
end

