-- ==== Sys2Proof/Machine/Mover.lean ====
section
/-! DEFINITION. The mover instructions (R65-R67) and the page walker (R133-R136). -/

namespace Sys2Proof.Machine

/-- Half bytes of one element. -/
def Tensor.nibs (t : Tensor) : Nat := t.bits / 4

/-- First half byte of a local element (R52). -/
def Tensor.nib (t : Tensor) (i : List Nat) : Nat :=
  if t.bits = 4 then 2 * t.addr i + (t.off i % 2).toNat else 2 * t.addr i

/-- Half-byte pairs of a tensor and its scales against a far record (R66, R88). -/
def farPairs (t : Tensor) (r : BitVec 256) : List (Nat × Nat) :=
  (t.indices.flatMap fun i =>
    let far := 2 * (fld r 0 64 + lget i 1 0 * fld r 64 32 + lget i 2 0 * fld r 96 32 + lget i 3 0 * fld r 128 32) + lget i 0 0 * t.nibs
    (List.range t.nibs).map fun k => (t.nib i + k, far + k)) ++
  (if t.scaled then (List.range (2 * t.scaleBytes)).map fun k => (128 * t.sref + k, 2 * fld r 192 64 + k) else [])

/-- A far record obeys R66 for a tensor. -/
def farOk (t : Tensor) (a : Nat) (r : BitVec 256) : Bool :=
  lsAligned a 32 && fld r 160 32 == 0 && fld r 48 16 == 0 && fld r 0 6 == 0 && fld r 64 6 == 0 && fld r 96 6 == 0 && fld r 128 6 == 0 &&
  (if t.scaled then fld r 192 64 != 0 else fld r 192 64 == 0)

/-- `dm.get` or `dm.put` of a site (R65-R67). -/
def moveRun (s : State) (site ch : Nat) (write : Bool) (rd rs1 : BitVec 5) : State :=
  let f := s.facet site
  let a := (getX f rs1.toNat).toNat
  let r := BitVec.ofNat 256 (ofBytes (lsRead f a 32))
  if !(runs s site) then s
  else if !(dReg rd) then raise s site 0x01 0
  else if stalls f [rs1.toNat] ((a, 32) :: feet f [rd.toNat]) || 32 ≤ f.ops.length then s
  else match descAt f rd.toNat with
    | none => raise s site 0x03 0
    | some t =>
      if !(refsOk t) || !(t.scaleFits) then raise s site 0x04 a
      else if !(farOk t a r) then raise s site 0x05 a
      else if !write && (inProtected f t.foot.1 t.foot.2 || (t.scaled && inProtected f (64 * t.sref) t.scaleBytes)) then raise s site 0x07 t.base
      else issueMover s site ch write (farPairs t r)

/-- `DM_GET` (R66). -/
def execDmGet (site : Nat) (ch : BitVec 4) (rd rs1 : BitVec 5) (s : State) : Res := ok (moveRun s site ch.toNat false rd rs1)

/-- `DM_PUT` (R67). -/
def execDmPut (site : Nat) (ch : BitVec 4) (rd rs1 : BitVec 5) (s : State) : Res := ok (moveRun s site ch.toNat true rd rs1)

/-- `dm.wait`: stalls while a named channel has an outstanding put (R65). -/
def waitRun (s : State) (site : Nat) (rs1 : BitVec 5) : State :=
  let f := s.facet site
  let m := getX f rs1.toNat
  if !(runs s site) || stalls f [rs1.toNat] [] then s
  else if fld m 16 16 ≠ 0 then raise s site 0x05 m.toNat
  else if f.ops.any fun o => o.write && m.getLsbD o.ch then s
  else s.setFacet site (advance f)

/-- `DM_WAIT` (R65). -/
def execDmWait (site : Nat) (rs1 : BitVec 5) (s : State) : Res := ok (waitRun s site rs1)

/-! ## The page walker (R119, R133-R135) -/

/-- `x` rounded up to a multiple of 64 (R119). -/
def c64 (x : Nat) : Nat := ceilDiv x 64 * 64

/-- Bytes of the elements of one part of a page (R119). -/
def pageKd (p : Pool) : Nat := c64 (16 * p.heads * p.dim * (fmtOf p.fmt).bits / 8)

/-- Bytes of one part of a page with its scales (R119). -/
def pageHalf (p : Pool) : Nat := pageKd p + c64 (16 * p.heads * (p.dim / 32) * scaleSize p.sfmt)

/-- Half-byte pairs of one head-row: D elements and their scales (R119, R135). -/
def kvPairs (p : Pool) (t : Tensor) (plane part h0 h i token page : Nat) : List (Nat × Nat) :=
  let start := lget p.bases plane 0 + page * (2 * pageHalf p) + part * pageHalf p
  let hj := (h0 + h) * 16 + token % 16
  ((List.range p.dim).flatMap fun d => (List.range t.nibs).map fun k => (t.nib [d, i, h, 0] + k, 2 * start + (hj * p.dim + d) * t.nibs + k)) ++
  ((List.range (p.dim / 32)).flatMap fun b => (List.range (2 * scaleSize p.sfmt)).map fun k =>
    (2 * t.scaleAddr (t.scaleIdx b i h 0) + k, 2 * (start + pageKd p + (hj * (p.dim / 32) + b) * scaleSize p.sfmt) + k))

/-- The pool and the view that a task's launch view names (R124, R134). -/
def kvView (s : State) (f : Facet) : Option (Pool × View) :=
  match (f.step.bind Step.view).bind fun v => findView s v with
  | none => none
  | some (k, v) => (tfind s.kv k).map fun p => (p, v)

/-- A tensor descriptor has the format, the extents and the scales of a pool's pages (R135). -/
def kvTensorOk (p : Pool) (t : Tensor) : Bool :=
  t.fmt == p.fmt && t.ext 0 == p.dim && t.ext 3 == 1 && t.scaled && t.sblk == 0 && t.sfmt == p.sfmt && !t.outlier && t.scaleFits

/-- The row of a view that a record names. -/
def kvRow (v : View) (r : BitVec 256) : BatchRow :=
  lget v.rows (fld r 40 8) { seq := 0, klen := 0, qlen := 0, win := 0, sel := [], pages := [] }

/-- A page record is aligned, holds no reserved bit and names tokens, heads, a plane and a row of the view; a scatter names only tokens of
the row's query (R134, R135). -/
def kvRecOk (p : Pool) (v : View) (t : Tensor) (a : Nat) (r : BitVec 256) : Bool :=
  let row := kvRow v r
  let e := fld r 54 18 + t.ext 1
  lsAligned a 32 && fld r 72 184 == 0 && fld r 3 29 == 0 && decide (fld r 40 8 < v.rows.length) && decide (fld r 32 8 < p.bases.length) &&
  decide (fld r 48 6 + t.ext 2 ≤ p.heads) && decide (e ≤ if r.getLsbD 2 then row.sel.length else row.klen) &&
  (!(r.getLsbD 1) || (!(r.getLsbD 2) && decide (row.klen - row.qlen ≤ fld r 54 18)))

/-- The token that index `i` of dimension 1 stands for: selected rows take it from the selection (R134). -/
def kvToken (v : View) (r : BitVec 256) (i : Nat) : Nat :=
  if r.getLsbD 2 then lget (kvRow v r).sel (fld r 54 18 + i) 0 else fld r 54 18 + i

/-- The page of a token, where the view holds one (R124, R135). -/
def kvPage (v : View) (r : BitVec 256) (i : Nat) : Option Nat :=
  ((kvRow v r).pages.find? fun e => e.1 == kvToken v r i / 16).map Prod.snd

/-- Half-byte pairs of a whole `dm.kv`, head by head and token by token (R135). -/
def kvAll (p : Pool) (v : View) (t : Tensor) (r : BitVec 256) : List (Nat × Nat) :=
  (List.range (t.ext 2)).flatMap fun h => (List.range (t.ext 1)).flatMap fun i =>
    kvPairs p t (fld r 32 8) (fld r 0 1) (fld r 48 6) h i (kvToken v r i) ((kvPage v r i).getD 0)

/-- `dm.kv` of a site (R133-R135): a gather counts as a get, a scatter as a put. -/
def kvRun (s : State) (site ch : Nat) (rd rs1 : BitVec 5) : State :=
  let f := s.facet site
  let a := (getX f rs1.toNat).toNat
  let r := BitVec.ofNat 256 (ofBytes (lsRead f a 32))
  if !(runs s site) then s
  else if !(dReg rd) then raise s site 0x01 0
  else if stalls f [rs1.toNat] ((a, 32) :: feet f [rd.toNat]) || 32 ≤ f.ops.length then s
  else match descAt f rd.toNat with
    | none => raise s site 0x03 0
    | some t =>
      match kvView s f with
      | none => raise s site 0x05 a
      | some (p, v) =>
        if !(kvTensorOk p t) then raise s site 0x04 a
        else if !(kvRecOk p v t a r) then raise s site 0x05 a
        else if !(r.getLsbD 1) && (inProtected f t.foot.1 t.foot.2 || inProtected f (64 * t.sref) t.scaleBytes) then raise s site 0x07 t.base
        else if (List.range (t.ext 1)).any fun i => (kvPage v r i).isNone then raise s site 0x0A a
        else issueMover s site ch (r.getLsbD 1) (kvAll p v t r)

/-- `DM_KV` (R135). -/
def execDmKv (site : Nat) (ch : BitVec 4) (rd rs1 : BitVec 5) (s : State) : Res := ok (kvRun s site ch.toNat rd rs1)

end Sys2Proof.Machine
end

