-- ==== Sys2Proof/Machine/Pools.lean ====
section
/-! DEFINITION. KV pools (R118-R142): commands, held changes, frees, and the view of a step (R122-R129). -/

namespace Sys2Proof.Machine

/-! ## Geometry and free stack -/

/-- Bytes of a control area (R120). -/
def controlBytes (pages seqs : Nat) : Nat := ceilDiv (65536 + seqs * 65792 + pages * 12) 4096 * 4096

/-- Pages on the free stack. -/
def freeCount (p : Pool) : Nat := p.pushed.length + (p.pages - p.fresh)

/-- The free stack popped: its top, then the lowest page never popped (R121). -/
def popPage (p : Pool) : Option (Nat × Pool) :=
  match p.pushed with
  | q :: r => some (q.1, { p with pushed := r })
  | [] => if p.fresh < p.pages then some (p.fresh, { p with fresh := p.fresh + 1 }) else none

/-- A page pushed at an instant among those pushed at the same instant, the lowest on top (R121). -/
def pushAt (t n : Nat) : List (Nat × Nat) → List (Nat × Nat)
  | [] => [(n, t)]
  | q :: r => if q.2 = t && q.1 < n then q :: pushAt t n r else (n, t) :: q :: r

/-- A page changed. -/
def setPage (p : Pool) (n : Nat) (x : Page) : Pool := { p with page := tput p.page n x }

/-- A page becomes FREE at an instant. -/
def pageFree (p : Pool) (t n : Nat) : Pool :=
  { setPage p n { pageAt p n with st := .free } with pushed := pushAt t n p.pushed }

/-- A LIVE page freed (R132): at once without pins, FREEING otherwise. -/
def dropPage (p : Pool) (t n : Nat) : Pool :=
  if (pageAt p n).pins = 0 then pageFree p t n else setPage p n { pageAt p n with st := .freeing }

/-- A sequence that has never been opened. -/
def KvSeq.closed : KvSeq := { isOpen := false, since := 0, was := false, pt := [], globals := [], gChanged := none, gPrev := [] }

/-- Sequence `q` of a pool. -/
def seqAt (p : Pool) (q : Nat) : KvSeq := tget p.seq q KvSeq.closed

/-- A page-table entry that has never been set. -/
def PtEntry.invalid : PtEntry := { page := none, changed := none, prev := none }

/-- Entry `i` of a sequence. -/
def entAt (k : KvSeq) (i : Nat) : PtEntry := tget k.pt i PtEntry.invalid

/-- An entry changed at an instant: the value it supersedes is kept (R131), the first one of the instant. -/
def setEntry (k : KvSeq) (t i : Nat) (v : Option Nat) : KvSeq :=
  let e := entAt k i
  if e.page = v then k
  else { k with pt := tput k.pt i { page := v, changed := some t, prev := if e.changed = some t then e.prev else e.page } }

/-- The global list changed at an instant (R131). -/
def setGlobals (k : KvSeq) (t : Nat) (g : List Nat) : KvSeq :=
  if k.globals = g then k
  else { k with globals := g, gChanged := some t, gPrev := if k.gChanged = some t then k.gPrev else k.globals }

/-- A sequence opens or closes at an instant; what it was before the instant's first change stays known (R125). -/
def setOpen (k : KvSeq) (t : Nat) (v : Bool) : KvSeq := { k with isOpen := v, since := t, was := if k.since = t then k.was else k.isOpen }

/-- A map count moved. -/
def addMaps (p : Pool) (n : Nat) (up : Bool) : Pool :=
  setPage p n { pageAt p n with maps := if up then (pageAt p n).maps + 1 else (pageAt p n).maps - 1 }

/-- A pool with one entry of a sequence set, its map counts following. -/
def mapEntry (p : Pool) (t q i : Nat) (v : Option Nat) : Pool :=
  let old := (entAt (seqAt p q) i).page
  let p1 := match old with
    | none => p
    | some n => addMaps p n false
  let p2 := match v with
    | none => p1
    | some n => addMaps p1 n true
  { p2 with seq := tput p2.seq q (setEntry (seqAt p2 q) t i v) }

/-! ## Checks and effects of `KV_MAP` and `KV_SEQ` -/

/-- The page that a list element names, if it is valid (R139). Log entry 157 (DESIGN CHOICE). -/
def elemPage (w : Nat) : Option Nat := if nbit w 31 then some (nbits w 0 24) else none

/-- Entries that a held command sets: `KV_MAP` from its list, a close every valid entry. -/
def changes (p : Pool) (k : HeldKv) : List (Nat × Option Nat) :=
  if k.op = 4 then k.items.zipIdx.map fun w => (k.first + w.2, elemPage w.1)
  else if k.op = 1 || k.op = 2 then ((seqAt p k.seq).pt.filter fun e => e.2.page.isSome).map fun e => (e.1, none)
  else []

/-- The pool after the entries of a command are set. -/
def applyMaps (p : Pool) (t q : Nat) (cs : List (Nat × Option Nat)) : Pool := cs.foldl (fun a c => mapEntry a t q c.1 c.2) p

/-- Positions ascend strictly below a limit. -/
def rising (lim : Nat) : List Nat → Bool
  | [] => true
  | [a] => decide (a < lim)
  | a :: b :: r => decide (a < b) && rising lim (b :: r)

/-- The status of a `KV_MAP` or `KV_SEQ` on a pool as it stands (R139, R142), zero when it passes. Log entry 158 (DESIGN CHOICE). -/
def seqCheck (p : Pool) (k : HeldKv) : Nat :=
  if p.seqs ≤ k.seq then 0x0383
  else if (k.op = 0 && (seqAt p k.seq).isOpen) || (k.op ≠ 0 && !(seqAt p k.seq).isOpen) then 0x0383
  else if k.op = 4 then
    let ps := k.items.filterMap elemPage
    if k.items.any fun w => nbits w 24 7 ≠ 0 then 0x0384
    else if ps.any (fun n => decide (p.pages ≤ n)) then 0x0384
    else if ps.any (fun n => (pageAt p n).st != .live) then 0x0385
    else if ((applyMaps p 0 k.seq (changes p k)).page).any fun e => decide (65535 < e.2.maps) then 0x0387
    else 0
  else if k.op = 3 then
    (if (k.items.any fun w => nbits w 18 14 ≠ 0) || !(rising 262144 k.items) then 0x0384 else 0)
  else 0

/-- A step holds a view whose latch is before a previous change (R131). -/
def viewBefore (p : Pool) (t : Option Nat) : Bool :=
  match t with
  | none => false
  | some t => p.views.any fun v => decide (v.latch < t)

/-- The command must be held now: an entry or global list that it changes has a superseded value that a view still needs (R131). -/
def mustHold (p : Pool) (k : HeldKv) : Bool :=
  ((changes p k).any fun c => (entAt (seqAt p k.seq) c.1).page != c.2 && viewBefore p (entAt (seqAt p k.seq) c.1).changed) ||
  ((k.op = 3 || k.op = 0) && (seqAt p k.seq).globals != k.items && viewBefore p (seqAt p k.seq).gChanged)

/-- The pages that a command frees when it applies: for a close with free, those whose map count falls to zero (R139). -/
def freesOf (p : Pool) (k : HeldKv) : List Nat :=
  if k.op = 2 then
    let q := applyMaps p 0 k.seq (changes p k)
    ((changes p k).filterMap fun c => (entAt (seqAt p k.seq) c.1).page).eraseDups.filter fun n =>
      (pageAt q n).maps == 0 && (pageAt q n).st == .live
  else []

/-- The pool after a command applies at an instant. -/
def applySeq (p : Pool) (t : Nat) (k : HeldKv) : Pool :=
  let p1 := applyMaps p t k.seq (changes p k)
  let q := seqAt p1 k.seq
  let p2 := match k.op with
    | 0 => { p1 with seq := tput p1.seq k.seq (setOpen (setGlobals q t []) t true) }
    | 1 => { p1 with seq := tput p1.seq k.seq (setOpen q t false) }
    | 2 => { p1 with seq := tput p1.seq k.seq (setOpen q t false) }
    | 3 => { p1 with seq := tput p1.seq k.seq (setGlobals q t k.items) }
    | _ => p1
  (sortBy (fun n => p.pages - n) (freesOf p k)).foldl (fun a n => dropPage a t n) p2

/-- Pages of a list that are not FREE yet. -/
def stillFreeing (p : Pool) (ns : List Nat) : List Nat := ns.filter fun n => (pageAt p n).st == .freeing

/-- Pool `n`. -/
def State.pool (s : State) (n : Nat) : Option Pool := tfind s.kv n

/-- Pool `n` replaced. -/
def State.setPool (s : State) (n : Nat) (p : Pool) : State := { s with kv := tput s.kv n p }

/-- Pool `n` replaced, and its control area written (R120, R270). -/
def State.keepPool (s : State) (n : Nat) (p : Pool) : State := touchArea (s.setPool n p) p.area

/-- A `KV_MAP` or `KV_SEQ` applied at this instant: the state after, and whether its handle is complete with a status, or still
waits for its frees (R132, R139). -/
def applyNow (s : State) (n : Nat) (p : Pool) (k : HeldKv) : State × Option Nat :=
  let st := seqCheck p k
  if st ≠ 0 then (s.keepPool n p, some st)
  else
    let p1 := applySeq p s.now k
    let left := stillFreeing p1 (freesOf p k)
    if left.isEmpty then (s.keepPool n p1, some 0)
    else (s.keepPool n { p1 with freeing := p1.freeing ++ [(k.handle, left)] }, none)

/-! ## The rows -/

/-- An earlier command of the pool has not been taken yet, a started one of a context that has been torn down among them (R130, R221, R224). -/
def poolWaits (s : State) (x : Slot) : Bool :=
  let torn := (s.cmds.torn.filter fun p => p.2.sgen == (s.sec p.2.sector).gen).map Prod.snd
  ((s.cmds.slots.filter fun p => p.2.st == .inflight).map Prod.snd ++ torn).any fun y =>
    (y.cmd == .queued || y.cmd == .started) && decide (0x60 ≤ y.code) && decide (y.code ≤ 0x65) && fld y.body 0 4 == fld x.body 0 4 &&
    decide (y.order < x.order)

/-- A pool command taken in posting order (R130): the pool that it names must exist and belong to the sector (R142). -/
def poolCmd (s : State) (h code : Nat) (g : State → Nat → Slot → Nat → Pool → State) : State :=
  runCmd s h code fun s i x =>
    if poolWaits s x then s
    else
      let n := fld x.body 0 4
      match s.pool n with
      | none => done s i 0x0380 0
      | some p => if p.sector ≠ x.sector then done s i 0x0380 0 else g s i x n p

/-- Areas of a new pool do not overlap: planes pairwise, and the control area (R140). -/
def planesApart (bases : List Nat) (plane caddr area : Nat) : Bool :=
  let bs := sortBy id bases
  (List.range (bs.length - 1)).all (fun i => decide (lget bs i 0 + plane ≤ lget bs (i + 1) 0)) &&
  bs.all fun b => !(overlap b plane caddr area)

/-- The pool that a `KV_POOL_CREATE` describes, created at `t` (R140). -/
def newPool (t : Nat) (x : Slot) : Pool :=
  let b := x.body
  let planes := fld b 84 8 + 1
  { since := t, sector := x.sector, pages := fld b 104 24 + 1, seqs := fld b 92 12 + 1, heads := fld b 78 6 + 1, dim := 32 * (fld b 75 3 + 1),
    fmt := fld b 71 4, sfmt := fld b 70 1, bases := (List.range planes).map fun i => leAt x.input (8 * i) 8, caddr := fld b 320 64,
    area := (x.pages.filter fun p => decide (fld b 320 64 ≤ p.1) && decide (p.1 < fld b 320 64 + controlBytes (fld b 104 24 + 1) (fld b 92 12 + 1))).map Prod.snd,
    page := [], pushed := [], fresh := 0, seq := [], held := [], freeing := [], views := [] }

/-- `KV_POOL_CREATE` (R140, R260). -/
def poolCreate (s : State) (h : Nat) : State :=
  runCmd s h 0x60 fun s i x =>
    let n := fld x.body 0 4
    let p := newPool s.now x
    if poolWaits s x then s
    else if (s.pool n).isSome || !((s.sec x.sector).record.getLsbD (32 + n)) then done s i 0x0380 0
    else if (p.bases.any fun b => b % 64 != 0) || !(planesApart p.bases (p.pages * (2 * pageHalf p)) p.caddr (controlBytes p.pages p.seqs)) then
      done s i 0x0381 0
    else done (s.keepPool n p) i 0 0

/-- `KV_POOL_CREATE` (R140). -/
def execKvPoolCreate (h : Nat) (s : State) : Res := ok (poolCreate s h)

/-- `KV_POOL_DESTROY` (R139): refused while a task binds the pool, a page is pinned or a command is held. -/
def poolDestroy (s : State) (h : Nat) : State :=
  poolCmd s h 0x61 fun s i _ n p =>
    let bound := s.work.tasks.any fun t => match t.2.bind with
      | some b => b.pool == n
      | none => false
    if bound || (p.page.any fun e => decide (0 < e.2.pins)) || !p.held.isEmpty || !p.freeing.isEmpty then done s i 0x038B 0
    else done { s with kv := tdel s.kv n } i 0 0

/-- `KV_POOL_DESTROY` (R139). -/
def execKvPoolDestroy (h : Nat) (s : State) : Res := ok (poolDestroy s h)

/-- `n` pages popped to LIVE with map count 0: their numbers and the pool after. -/
def popPages : Nat → Pool → List Nat × Pool
  | 0, p => ([], p)
  | n + 1, p => match popPage p with
    | none => ([], p)
    | some (k, q) =>
      let r := popPages n (setPage q k { st := .live, maps := 0, pins := 0 })
      (k :: r.1, r.2)

/-- `KV_ALLOC` (R139). -/
def kvAlloc (s : State) (h : Nat) : State :=
  poolCmd s h 0x62 fun s i x n p =>
    let c := fld x.body 53 11
    if freeCount p < c then done s i 0x0382 0
    else
      let r := popPages c p
      done (outWrite (s.keepPool n r.2) x (fld x.body 320 64) (r.1.flatMap (toBytes 4))) i 0 0

/-- `KV_ALLOC` (R139). -/
def execKvAlloc (h : Nat) (s : State) : Res := ok (kvAlloc s h)

/-- A `KV_MAP` or `KV_SEQ` taken: applied at once, or held behind an earlier held one of its sequence or for a view (R130, R131). -/
def takeSeq (s : State) (i n : Nat) (p : Pool) (k : HeldKv) : State :=
  if p.held.any fun e => e.seq == k.seq then waitOn (s.keepPool n { p with held := p.held ++ [k] }) i
  else
    let st := seqCheck p k
    if st ≠ 0 then done s i st 0
    else if mustHold p k then waitOn (s.keepPool n { p with held := p.held ++ [k] }) i
    else
      let r := applyNow s n p k
      match r.2 with
      | some st => done r.1 i st 0
      | none => waitOn r.1 i

/-- `KV_MAP` (R131, R139). -/
def kvMap (s : State) (h : Nat) : State :=
  poolCmd s h 0x63 fun s i x n p =>
    takeSeq s i n p { handle := h, op := 4, seq := fld x.body 24 12, first := fld x.body 39 14, items := inWords x (fld x.body 53 11) }

/-- `KV_MAP` (R131). -/
def execKvMap (h : Nat) (s : State) : Res := ok (kvMap s h)

/-- `KV_FREE` (R132): a page listed twice is not LIVE the second time. Log entries 35 (DEDUCED) and 158 (DESIGN CHOICE). -/
def kvFree (s : State) (h : Nat) : State :=
  poolCmd s h 0x64 fun s i x n p =>
    let ps := inWords x (fld x.body 53 11)
    if ps.any fun w => p.pages ≤ w then done s i 0x0384 0
    else if ps.any fun w => 0 < (pageAt p w).maps then done s i 0x0386 0
    else if ps.any (fun w => (pageAt p w).st != .live) || ps.eraseDups.length ≠ ps.length then done s i 0x0385 0
    else
      let p1 := (sortBy (fun w => p.pages - w) ps).foldl (fun a w => dropPage a s.now w) p
      let left := stillFreeing p1 ps
      if left.isEmpty then done (s.keepPool n p1) i 0 0
      else waitOn (s.keepPool n { p1 with freeing := p1.freeing ++ [(h, left)] }) i

/-- `KV_FREE` (R132). -/
def execKvFree (h : Nat) (s : State) : Res := ok (kvFree s h)

/-- `KV_SEQ` with an operation (R139); a handle whose command has another operation is of another row. -/
def kvSeq (s : State) (h op : Nat) : State :=
  poolCmd s h 0x65 fun s i x n p =>
    if fld x.body 4 2 ≠ op then s
    else takeSeq s i n p { handle := h, op := op, seq := fld x.body 24 12, first := 0, items := inWords x (fld x.body 53 11) }

/-- `KV_SEQ_OPEN` (R139). -/
def execKvSeqOpen (h : Nat) (s : State) : Res := ok (kvSeq s h 0)

/-- `KV_SEQ_CLOSE` (R139). -/
def execKvSeqClose (h : Nat) (s : State) : Res := ok (kvSeq s h 1)

/-- `KV_SEQ_CLOSE_FREE` (R139). -/
def execKvSeqCloseFree (h : Nat) (s : State) : Res := ok (kvSeq s h 2)

/-- `KV_SEQ_SET_GLOBALS` (R139). -/
def execKvSeqSetGlobals (h : Nat) (s : State) : Res := ok (kvSeq s h 3)

/-- The held commands of a pool applied in posting order: one that must still be held keeps the later ones of its sequence (R130,
R131). -/
def applyHeld (s : State) (n : Nat) : List HeldKv → List HeldKv → State
  | [], _ => s
  | k :: r, kept =>
    match s.pool n with
    | none => s
    | some p =>
      if (kept.any fun e => e.seq == k.seq) || (seqCheck p k == 0 && mustHold p k) then applyHeld s n r (kept ++ [k])
      else
        let a := applyNow s n { p with held := p.held.filter fun e => e.handle != k.handle } k
        applyHeld (match a.2 with
          | some st => finishH a.1 k.handle st 0 s.now
          | none => a.1) n r kept

/-- `KV_HELD_APPLY` (R131): no effect while every held command still depends on a view. -/
def execKvHeldApply (pool : Nat) (s : State) : Res := ok (match s.pool pool with
  | none => s
  | some p => applyHeld s pool p.held [])

/-- A page becomes FREE once its last pin has gone (R132), which may complete a free or a close. -/
def kvPageFree (s : State) (n page : Nat) : State :=
  match s.pool n with
  | none => s
  | some p =>
    if (pageAt p page).st ≠ .freeing || (pageAt p page).pins ≠ 0 then s
    else
      let p1 := pageFree p s.now page
      let fr := p1.freeing.map fun e => (e.1, e.2.filter (· != page))
      let emptied := (fr.filter fun e => e.2.isEmpty).map Prod.fst
      emptied.foldl (fun a h => finishH a h 0 0 s.now) (s.keepPool n { p1 with freeing := fr.filter fun e => !e.2.isEmpty })

/-- `KV_PAGE_FREE` (R132). -/
def execKvPageFree (pool page : Nat) (s : State) : Res := ok (kvPageFree s pool page)

/-! ## Acceptance (R139-R142, R211) -/

/-- The status of a pool command's body at acceptance (R140, R141): fields it does not use are zero, its counts are in range; a
list address off its alignment counts as a reserved bit. Log entry 34 (DEDUCED). -/
def poolBody (code : Nat) (b : BitVec 384) : Nat :=
  let count := fld b 53 11
  let op := fld b 4 2
  match code with
  | 0x60 =>
    if !(onlyFields b [(0, 4), (70, 58), (256, 128)]) then 0x0102
    else if fld b 320 12 ≠ 0 || fld b 256 6 ≠ 0 || !([0, 1, 6].contains (fld b 71 4)) then 0x0381 else 0
  | 0x61 => if onlyFields b [(0, 4)] then 0 else 0x0102
  | 0x62 => if !(onlyFields b [(0, 4), (53, 11), (326, 58)]) then 0x0102 else if count = 0 || 1024 < count then 0x0388 else 0
  | 0x63 =>
    if !(onlyFields b [(0, 4), (24, 12), (39, 25), (326, 58)]) then 0x0102
    else if count = 0 || 1024 < count then 0x0388
    else if 16384 < fld b 39 14 + count then 0x0384 else 0
  | 0x64 => if !(onlyFields b [(0, 4), (53, 11), (326, 58)]) then 0x0102 else if count = 0 || 1024 < count then 0x0388 else 0
  | _ =>
    if op = 3 then (if !(onlyFields b [(0, 6), (24, 12), (53, 11), (326, 58)]) then 0x0102 else if 64 < count then 0x0388 else 0)
    else if !(onlyFields b [(0, 6), (24, 12), (53, 11)]) then 0x0102
    else if count ≠ 0 then 0x0388 else 0

/-- The buffers of a pool command (R211). -/
def poolBufs (code : Nat) (b : BitVec 384) : List Buf :=
  let list (w : Bool) : List Buf := [{ va := fld b 320 64, len := 4 * fld b 53 11, write := w, input := !w }]
  match code with
  | 0x60 => [{ va := fld b 256 64, len := 8 * (fld b 84 8 + 1), write := false, input := true },
             { va := fld b 320 64, len := controlBytes (fld b 104 24 + 1) (fld b 92 12 + 1), write := true, input := false }]
  | 0x61 => []
  | 0x62 => list true
  | _ => list false

/-! ## The view of a step (R122-R128) -/

/-- The page of an entry as a latch at this instant sees it: a change of this instant is not included (R125). Log entry 37 (DEDUCED). -/
def entrySeen (now : Nat) (k : KvSeq) (i : Nat) : Option Nat :=
  let e := entAt k i
  if e.changed = some now then e.prev else e.page

/-- The global list as a latch sees it. -/
def globalsSeen (now : Nat) (k : KvSeq) : List Nat := if k.gChanged = some now then k.gPrev else k.globals

/-- A sequence is open as a latch sees it: as it was before this instant (R125). -/
def openSeen (now : Nat) (k : KvSeq) : Bool := if k.since = now then k.was else k.isOpen

/-- The selection of a row (R127). -/
def selection (k : Nat) (win : Nat) (globals : List Nat) : List Nat :=
  if win = 0 then List.range k
  else
    let lo := k - win
    globals.filter (fun g => decide (g < lo)) ++ (List.range (k - lo)).map (lo + ·)

/-- A page pinned by a latch: one that a command of this instant freed, which the view does not include, leaves the free stack and becomes FREE
again with its last pin (R125, R129, R132). -/
def pinPage (p : Pool) (n : Nat) : Pool :=
  let x := pageAt p n
  let q := if x.st == .free then { p with pushed := p.pushed.filter fun e => e.1 != n } else p
  setPage q n { x with st := if x.st == .free then .freeing else x.st, pins := x.pins + 1 }

/-- A row of the batch table keeps R124's ranges. -/
def rowOk (p : Pool) (w : Nat) : Bool :=
  let klen := nbits w 12 19
  nbits w 115 13 == 0 && nbits w 78 18 == 0 && nbits w 51 13 == 0 && !(nbit w 31) && decide (1 ≤ klen) && decide (klen ≤ 262144) &&
  decide (nbits w 32 19 ≤ klen) && decide (nbits w 64 14 ≤ 8192) && decide (nbits w 0 12 < p.seqs)

/-- A latched row: its selection, and the pages that cover it. -/
def latchRow (now : Nat) (p : Pool) (w : Nat) : BatchRow :=
  let q := nbits w 0 12
  let k := seqAt p q
  let sel := selection (nbits w 12 19) (nbits w 64 14) (globalsSeen now k)
  { seq := q, klen := nbits w 12 19, qlen := nbits w 32 19, win := nbits w 64 14, sel := sel,
    pages := ((List.range (ceilDiv (nbits w 12 19) 16)).filterMap fun e => (entrySeen now k e).map fun n => (e, n)) }

/-- What a latch comes to (R126): a status that fails the step, or the state with the view held, and its
identifier. -/
inductive Latch where
  | fail (status : Nat)
  | view (s : State) (id : Nat)
  deriving DecidableEq, Repr

/-- The view that a step of home `h` latches at this instant through its binding (R123, R125-R128). Log entry 36 (DEDUCED). -/
def latchView (s : State) (h entry tick : Nat) (b : KvBind) (sector : Nat) : Latch :=
  match s.pool b.pool with
  | none => .fail 0x0380
  | some p =>
    if p.sector ≠ sector || p.since = s.now then .fail 0x0380
    else
      let table := if tick % 2 = 0 then b.tab0 else b.tab1
      match latchPages s sector table 4160 false with
      | none => .fail 0x0389
      | some pg =>
        let raw := pagedRead s pg table 4160
        let hdr := leAt raw 0 64
        let n := nbits hdr 0 9
        let ws := (List.range n).map fun i => leAt raw (64 + 16 * i) 16
        let seqs := ws.map fun w => nbits w 0 12
        if pagedBad s pg table 4160 then .fail 0x0389
        else if 256 < n || hdr / 512 ≠ 0 || !(ws.all (rowOk p)) || seqs.eraseDups.length ≠ n || !(seqs.all fun q => openSeen s.now (seqAt p q)) then .fail 0x0389
        else
          let rows := ws.map (latchRow s.now p)
          let need (r : BatchRow) : List Nat := (r.sel.map (· / 16)).eraseDups
          if rows.any fun r => (need r).any fun e => (r.pages.find? fun x => x.1 == e).isNone then .fail 0x038A
          else
            let pins := (rows.flatMap fun r => (r.pages.filter fun x => (need r).contains x.1).map Prod.snd).eraseDups
            let p1 := pins.foldl pinPage p
            let rowBytes := (ws.zip rows).flatMap fun x => toBytes 16 (x.1 % 2 ^ 96 + x.2.sel.length * 2 ^ 96)
            let bytes := raw.take 64 ++ rowBytes ++ raw.drop (64 + 16 * n)
            let v : View := { id := s.id, home := h, entry := entry, tick := tick, latch := s.now, rows := rows, pins := pins,
                              area := b.area, bytes := bytes }
            .view (s.takeId.keepPool b.pool { p1 with views := p1.views ++ [v] }) s.id

end Sys2Proof.Machine
end

