-- ==== Sys2Proof/Machine/SectorCmds.lean ====
section
/-! DEFINITION. Sectors: the record and its checks (R258, R259), creation, reset and destruction (R266-R269), translation
invalidation (R263), and dirty logging (R270, R271). -/

namespace Sys2Proof.Machine

/-! ## Bodies (R257, R272, R273) -/

/-- The highest sector number of the mode (R252). -/
def maxSector (s : State) : Nat := if s.num 0x3000 0 = 0 then 15 else 63

/-- The status of a sector command's body posted from a sector (R257, R273, R275). Log entry 49 (DESIGN CHOICE). -/
def sectorBody (s : State) (code from_ : Nat) (b : BitVec 384) : Nat :=
  let n := fld b 0 6
  let op := fld b 6 2
  let addr := fld b 320 64
  let va := fld b 256 64
  let npg := fld b 224 32
  let used := if code = 0x40 then [(0, 6), (320, 64)] else if code = 0x43 then [(0, 6), (224, 96)]
    else if code = 0x44 then (if op = 1 then [(0, 8), (320, 64)] else [(0, 8)]) else [(0, 6)]
  let invalOk := va % 4096 == 0 && decide (va < 2 ^ 48) && (npg == 0xFFFFFFFF || (decide (1 ≤ npg) && decide (va + npg * 4096 ≤ 2 ^ 48)))
  if from_ ≠ 0 && (code ≠ 0x43 || n ≠ from_) then 0x0208
  else if !(onlyFields b used) || addr % 64 ≠ 0 || (code == 0x43 && !invalOk) then 0x020A
  else if (n = 0 && code ≠ 0x43) || maxSector s < n then 0x0201
  else if code = 0x44 && op = 3 then 0x020B
  else 0

/-- The granules of a record, ascending. -/
def granules (rec : BitVec 1536) : List Nat := (List.range 256).filter (granted rec)

/-- The buffers of a sector command (R272). -/
def sectorBufs (s : State) (code : Nat) (b : BitVec 384) : List Buf :=
  if code = 0x40 then [{ va := fld b 320 64, len := 192, write := false, input := true }]
  else if code = 0x44 && fld b 6 2 = 1 then
    [{ va := fld b 320 64, len := 8192 * (granules (s.sec (fld b 0 6)).record).length, write := true, input := false }]
  else []

/-! ## The record (R258, R259) -/

/-- A window range of a record: first and count. -/
def winRange (rec : BitVec 1536) (hub : Nat) : Nat × Nat := if hub = 0 then (fld rec 96 8, fld rec 104 9) else (fld rec 120 8, fld rec 128 9)

/-- Check 3 of R259. -/
def recShape (rec : BitVec 1536) : Bool :=
  [(1032, 504), (180, 12), (137, 7), (113, 7), (89, 7), (48, 16), (21, 11)].all (fun f => fld rec f.1 f.2 == 0) &&
  decide (fld rec 1024 4 ≤ 8) && decide (fld rec 1028 4 ≤ 8) && (List.range 4).all (fun d => decide (fld rec (992 + 8 * d) 8 ≤ 64)) &&
  decide (16 ≤ fld rec 76 13) && decide (fld rec 76 13 ≤ 4096) && fld rec 76 4 == 0 && fld rec 64 4 == 0 &&
  decide (fld rec 64 12 + fld rec 76 13 ≤ 4096) && decide ((winRange rec 0).1 + (winRange rec 0).2 ≤ 256) &&
  decide ((winRange rec 1).1 + (winRange rec 1).2 ≤ 256) && !(granules rec).isEmpty && troot rec % 4096 == 0 && granted rec (troot rec / 2 ^ 28)

/-- The sectors that hold grants, other than `n`. -/
def otherRecs (s : State) (n : Nat) : List (BitVec 1536) :=
  (s.sectors.filter fun p => p.1 != n && p.2.st != .free).map fun p => p.2.record

/-- The process identifier of a record. -/
def recPid (rec : BitVec 1536) : Nat := fld rec 0 20

/-- Check 4 of R259. -/
def pidOk (s : State) (n : Nat) (rec : BitVec 1536) : Bool :=
  if s.num 0x3000 0 = 0 then recPid rec != 0 && (otherRecs s n).all fun o => recPid o != recPid rec
  else if n = 0 then recPid rec != 0 else recPid rec == 0

/-- Check 5 of R259 against one other record. -/
def recApart (a b : BitVec 1536) : Bool :=
  (fld a 512 288 &&& fld b 512 288) == 0 && (fld a 256 256 &&& fld b 256 256) == 0 && (fld a 32 16 &&& fld b 32 16) == 0 &&
  !(overlap (fld a 64 12) (fld a 76 13) (fld b 64 12) (fld b 76 13)) &&
  [0, 1].all fun h => !(overlap (winRange a h).1 (winRange a h).2 (winRange b h).1 (winRange b h).2)

/-- The share of a record in stack `k` (R258). -/
def recShare (rec : BitVec 1536) (k : Nat) : Nat := fld rec (192 + 16 * k) 16

/-- The sector capacity of a stack (R295). -/
def sectorCap (s : State) (k : Nat) : Nat := 12288 - lsum (fun m => s.num 0x3410 (16 * k + m)) (List.range 15)

/-- Check 6 of R259, with the masters of R292. -/
def capacityOk (s : State) (n : Nat) (rec : BitVec 1536) : Bool :=
  let all := rec :: otherRecs s n
  let homes (r : BitVec 1536) (d : Nat) : Nat := ((List.range 72).filter fun i => r.getLsbD (512 + 72 * d + i)).length
  (List.range 4).all (fun d => decide (lsum (fun r => homes r d) all ≤ 64) && decide (lsum (fun r => fld r (992 + 8 * d) 8) all ≤ 64) &&
    decide (lsum (fun r => recShare r d) all ≤ sectorCap s d) && decide ((all.filter fun r => recShare r d != 0).length ≤ 32)) &&
  (List.range 6).all (fun u => decide (lsum (fun r => fld r (800 + 16 * u) 16) all ≤ unitSize u) &&
    decide (lsum (fun r => fld r (896 + 16 * u) 16) all ≤ unitWatches u)) &&
  decide (lsum (fun r => fld r 1024 4) all ≤ 8) && decide (lsum (fun r => fld r 1028 4) all ≤ 8)

/-- Checks 3 to 6 of R259 on a record of sector `n`. -/
def recordStatus (s : State) (n : Nat) (rec : BitVec 1536) : Nat :=
  if !(recShape rec) then 0x0203
  else if !(pidOk s n rec) then 0x0204
  else if !((otherRecs s n).all (recApart rec)) then 0x0205
  else if !(capacityOk s n rec) then 0x0206
  else 0

/-- The masters that a sector holds are freed in every stack (R292), and its shares in force end. -/
def freeMasters (s : State) (n : Nat) : State :=
  (List.range 4).foldl (fun a k => (List.range 32).foldl (fun b i =>
    if b.num 0x3412 (48 * k + 16 + i) = n then b.setNum 0x3412 (48 * k + 16 + i) 0xFF else b) a)
    { s with mem := { s.mem with bw := s.mem.bw.filter fun p => p.1 / 4 != n } }

/-- The lowest free master of each stack in which a record has a share (R292). -/
def grantMasters (s : State) (n : Nat) (rec : BitVec 1536) : State :=
  (List.range 4).foldl (fun a k =>
    if recShare rec k = 0 then a
    else match (List.range 32).find? fun i => a.num 0x3412 (48 * k + 16 + i) == 0xFF with
      | none => a
      | some i => a.setNum 0x3412 (48 * k + 16 + i) n) s

/-! ## Creation -/

/-- The wake logs of a sector count from 0 (R473). -/
def freshLogs (s : State) (n : Nat) : State := { s with host := { s.host with wlog := tdel (tdel s.host.wlog n) (64 + n) } }

/-- `SEC_CREATE` (R259, R272). -/
def secCreate (s : State) (h : Nat) : State :=
  runCmd s h 0x40 fun s i x =>
    let n := fld x.body 0 6
    let r := BitVec.ofNat 1536 (ofBytes (x.input.take 192))
    if n = 0 || maxSector s < n then done s i 0x0201 0
    else if (s.sec n).st ≠ .free then done s i 0x0202 0
    else
      let st := recordStatus s n r
      if st ≠ 0 then done s i st 0
      else
        let s1 := s.setSec n { st := .active, gen := 0, record := r, dirtyOn := false, drain := none, timedOut := false, resume := 0 }
        done (grantMasters (freshLogs s1 n) n r) i 0 0

/-- `SEC_CREATE` (R259). -/
def execSecCreate (h : Nat) (s : State) : Res := ok (secCreate s h)

/-! ## Reset and destruction (R266, R269) -/

/-- Something of a sector carries a generation (R550). -/
def genInUse (s : State) (n g : Nat) : Bool :=
  s.mem.reqs.any (fun r => r.sector == n && r.gen == g) || s.sync.msgs.any (fun m => m.sector == n && m.gen == g) ||
  s.sync.vops.any (fun v => v.sector == n && v.gen == g) || s.cmds.slots.any fun p => p.2.sector == n && p.2.sgen == g && p.2.st == .inflight

/-- The sites of the steps that an occurrence holds withheld, both copies of a paired one (R38, R399). -/
def heldSites (s : State) (o : Occ) : List Nat :=
  if o.st == .withheld || o.st == .replayOrdered then
    (o.tasks.filter fun t => !t.committed && !t.failed).flatMap fun t => s.siteOf t.home :: (if o.paired then [s.siteOf (checkerHome t.home)] else [])
  else []

/-- A withheld step stops with `FX_STOPPED` (R72, R266 step 3): its cause goes to the Meridian, and its stores are undefined where its Facet
runs no other step. Log entry 52 (DEDUCED). -/
def stopHeld (n : Nat) (s : State) (site : Nat) : State :=
  let f := s.facet site
  let c : Cause := { stamp := s.now, code := 0x0C, pc := f.pc, operand := 0 }
  let s1 := if f.run == .running || f.run == .ended then s
    else (s.takeFree 1).setFacet site { undefineStores f s.free with cause := some c }
  raiseFault s1 s1.now 0x0C 0x01 (dieOf site) site 0x3F (some n)

/-- The steps of a sector stop with `FX_STOPPED`, their handles go without a report and their views are released (R266 step 3); what an
occurrence that is over tells the next boundary stays. -/
def stopSteps (s : State) (n : Nat) : State :=
  let mine (o : Occ) : Bool := entSector (s.entRaw o.entry) == n && o.st != .closed && o.st != .shed
  -- the step handles go first, so that no stop reports one
  let s1 := ((s.cmds.slots.filter fun p => p.2.kind == 2 && p.2.sector == n && p.2.st != .free).map Prod.fst).foldl freeSlot s
  let s2 := { s1 with sched := { s1.sched with occs := s1.sched.occs.map fun o => if mine o then { o with handle := none } else o } }
  let sites := (s2.work.facets.filter fun p => p.2.sector == n && p.2.placed && p.2.step.isSome).map Prod.fst
  let s3 := sites.foldl (fun a f =>
    let live := (a.facet f).run == .running || (a.facet f).run == .ended
    let a1 := if live then raiseAt a f 0x0C (a.facet f).pc 0 else a
    a1.modFacet f fun x => { x with run := .idle, step := none, carryTags := [] }) s2
  let s4 := ((s3.sched.occs.filter mine).flatMap (heldSites s3)).foldl (stopHeld n) s3
  let s5 := (s4.sched.occs.filter mine).foldl (fun a o => releaseViews a o.entry o.tick) s4
  { s5 with sched := { s5.sched with occs := s5.sched.occs.filter fun o => !(mine o) } }

/-- The armed occurrences of a sector go; a trigger whose context stands completes as shed (R242). -/
def disarm (s : State) (n : Nat) : State :=
  s.sched.entries.foldl (fun a p =>
    match p.2.armed with
    | none => a
    | some (t, h) =>
      if entSector p.2.raw ≠ n then a
      else
        let a1 := finishH a h 0x0603 (BitVec.ofNat 32 t) a.now
        { a1 with sched := { a1.sched with entries := tput a1.sched.entries p.1 { p.2 with armed := none } } }) s

/-- What a sector's retired objects, watches and barriers leave (R266 step 5). -/
def freeLost (s : State) (n : Nat) : State :=
  let s1 := (s.sync.objs.filter fun p => p.2.sector == n && p.2.st == .lost).foldl (fun a p => a.setVobj p.1 { a.vobj p.1 with st := .free }) s
  let s2 := (s1.sync.bars.filter fun p => p.2.sector == n && p.2.live).foldl (fun a p => barDestroy a p.1) s1
  { s2 with sync := { s2.sync with watches := s2.sync.watches.filter fun w => w.sector != n } }

/-- Steps 1 to 5 of R266 at this instant, for a command that then waits for the drain. Log entry 52 (DEDUCED). -/
def retireSector (s : State) (n h : Nat) (destroy : Bool) : State :=
  let x := s.sec n
  -- contexts are torn down before the generation moves, so that their objects are written (R224, R266 step 2)
  let s1 := tearDownIf s fun c => c.sector == n
  let s2 := freeLost (disarm (stopSteps s1 n) n) n
  let s3 := { s2 with kv := s2.kv.filter fun p => p.2.sector != n }
  s3.setSec n { x with st := .resetting, gen := (x.gen + 1) % 65536, drain := some (s.now, h, destroy), timedOut := false,
                       dirtyOn := x.dirtyOn && !destroy }

/-- `SEC_RESET` (R266, R550): held while a request still carries the generation that it would set. -/
def secReset (s : State) (h : Nat) : State :=
  runCmd s h 0x42 fun s i x =>
    let n := fld x.body 0 6
    if (s.sec n).st ≠ .active then done s i 0x0202 0
    else if genInUse s n (((s.sec n).gen + 1) % 65536) then s
    else waitOn (retireSector s n h false) i

/-- `SEC_DESTROY` (R269). -/
def secDestroy (s : State) (h : Nat) : State :=
  runCmd s h 0x41 fun s i x =>
    let n := fld x.body 0 6
    if (s.sec n).st ≠ .active then done s i 0x0202 0
    else if (tfind s.work.images n).isSome || s.kv.any (fun p => p.2.sector == n) then done s i 0x0207 0
    else if genInUse s n (((s.sec n).gen + 1) % 65536) then s
    else waitOn (retireSector s n h true) i

/-- `SEC_DESTROY` (R269). -/
def execSecDestroy (h : Nat) (s : State) : Res := ok (secDestroy s h)

/-- A request of a retired generation of a sector is past its controller's acceptance (R266 step 6). -/
def oldPast (s : State) (n : Nat) (r : LineReq) : Bool := r.sector == n && r.accepted && r.gen != (s.sec n).gen

/-- The stream entries of a destroyed sector become disabled (R347). -/
def disableStreams (s : State) (n : Nat) : State :=
  (List.range 128).foldl (fun a k =>
    let e := slice (a.octs 0x2100 k) 0 32
    if nbit (ofBytes e) 0 && nbits (ofBytes e) 78 6 == n then
      let a1 := a.setOcts 0x2100 k (toBytes 32 (ofBytes e - 1))
      let z := a1.sense
      { a1 with sense := { z with frames := tdel z.frames k, closing := z.closing.filter (fun f => f.1 != k),
                                  stopping := z.stopping.filter (fun m => m != k), inbuf := z.inbuf.filter (fun l => l.entry != k) } }
    else a) s

/-- The effect of a waiting command is done (R217). -/
def doneH (s : State) (h status : Nat) (result : Word) : State :=
  if s.holds h && (s.slot (slotOf h)).cmd == .waiting then done s (slotOf h) status result else s

/-- The tasks of a reset sector as at entry to OPERATIONAL, both copies of a paired one while coupled (R149, R266 step 7, R389). -/
def restoreSector (s : State) (n : Nat) : State :=
  (s.work.tasks.filter fun p => p.2.sector == n).foldl (fun a p =>
    let h := p.1
    let place (b : State) (k : Nat) : State := if b.operating && b.dieUp (dieOf (b.siteOf k)) then placeTask b (b.siteOf k) k else b
    let a1 := place a h
    initialCopies (if mirrored a h then place a1 (checkerHome h) else a1) p.2) s

/-- The first frame-opening tick that begins after this instant (R266). -/
def nextFrame (s : State) : Nat := (s.tickNow / s.num 0x2801 0 + 1) * s.num 0x2801 0

/-- `DRAIN_END` (R266 steps 6-8, R269): no effect while a request of a retired generation is past acceptance. Log entry 51 (DEDUCED). -/
def drainEnd (s : State) (n : Nat) : State :=
  let x := s.sec n
  match x.drain with
  | none => s
  | some (_, h, destroy) =>
    if s.mem.reqs.any (oldPast s n) then s
    else if destroy then
      let s1 := freeMasters (disableStreams s n) n
      doneH (s1.setSec n { x with st := .free, drain := none, dirtyOn := false }) h 0 0
    else
      let s1 := restoreSector s n
      doneH ((s1.setSec n { x with st := .active, drain := none, resume := nextFrame s }).count32 0x3012 n 1) h 0 0

/-- `DRAIN_END` (R266). -/
def execDrainEnd (n : Nat) (s : State) : Res := ok (drainEnd s n)

/-- `DRAIN_TIMEOUT` (R268): a fault for each controller that still holds an old request, once the bound has passed. -/
def drainTimeout (s : State) (n : Nat) : State :=
  let x := s.sec n
  match x.drain with
  | none => s
  | some (t, _, _) =>
    if x.timedOut || s.now < t + 50000 then s
    else
      let held := (List.range 4).filter fun k => s.mem.reqs.any fun r => oldPast s n r && stackOf r.off == k
      (held.foldl (fun a k => raiseFault a a.now 0 0x12 k 0x1FF 0x3F (some n)) s).setSec n { x with timedOut := true }

/-- `DRAIN_TIMEOUT` (R268). -/
def execDrainTimeout (n : Nat) (s : State) : Res := ok (drainTimeout s n)

/-! ## Translations and dirty logging -/

/-- `SEC_INVAL` (R263, R272): the model translates at each access and caches nothing, so nothing stale is left. -/
def secInval (s : State) (h : Nat) : State :=
  runCmd s h 0x43 fun s i x => if (s.sec (fld x.body 0 6)).st = .active then done s i 0 0 else done s i 0x0202 0

/-- `SEC_INVAL` (R263). -/
def execSecInval (h : Nat) (s : State) : Res := ok (secInval s h)

/-- The dirty bits of a record's granules cleared. -/
def clearDirty (s : State) (rec : BitVec 1536) : State :=
  { s with mem := { s.mem with dirty := s.mem.dirty.filter fun p => !(granted rec (p.1 / 65536)) } }

/-- The effect of a started `SEC_DIRTY` with operation `op` on an ACTIVE sector (R271). -/
def dirtyCmd (s : State) (h op : Nat) (g : State → Nat → Slot → Nat → State) : State :=
  runCmd s h 0x44 fun s i x =>
    let n := fld x.body 0 6
    if fld x.body 6 2 ≠ op then s
    else if (s.sec n).st ≠ .active then done s i 0x0202 0
    else g s i x n

/-- `SEC_DIRTY` op 0 (R271). -/
def execSecDirtyStart (h : Nat) (s : State) : Res :=
  ok (dirtyCmd s h 0 fun s i _ n => done ((clearDirty s (s.sec n).record).setSec n { s.sec n with dirtyOn := true }) i 0 0)

/-- The harvest of a sector: 8 KiB per granule, ascending (R271). -/
def harvest (s : State) (rec : BitVec 1536) : List Byte :=
  (granules rec).flatMap fun g => (List.range 8192).map fun b =>
    BitVec.ofNat 8 (lsum (fun j => b2n (tget s.mem.dirty (65536 * g + 8 * b + j) false) * 2 ^ j) (List.range 8))

/-- `SEC_DIRTY` op 1 (R271). -/
def execSecDirtyHarvest (h : Nat) (s : State) : Res :=
  ok (dirtyCmd s h 1 fun s i x n =>
    if !(s.sec n).dirtyOn then done s i 0x020B 0
    else
      let bytes := harvest s (s.sec n).record
      done (outWrite (clearDirty s (s.sec n).record) x (fld x.body 320 64) bytes) i 0 0)

/-- `SEC_DIRTY` op 2 (R271). -/
def execSecDirtyStop (h : Nat) (s : State) : Res :=
  ok (dirtyCmd s h 2 fun s i _ n => done (s.setSec n { s.sec n with dirtyOn := false }) i 0 0)

end Sys2Proof.Machine
end

