-- ==== Sys2Proof/Machine/Firmware.lean ====
section
/-! DEFINITION. Firmware images and their verification (R489-R493), and what a hub takes from one that passes (R494, R504). -/

namespace Sys2Proof.Machine

/-- The header of a firmware image (R490). -/
def fwHdr (img : List Byte) : Nat := leAt img 0 128

/-- Bytes before the signature. -/
def fwClen (img : List Byte) : Nat := nbits (fwHdr img) 224 32

/-- Components of an image. -/
def fwNcomp (img : List Byte) : Nat := nbits (fwHdr img) 152 8

/-- Security version of an image. -/
def fwSvn (img : List Byte) : Nat := nbits (fwHdr img) 144 8

/-- The image identity (R490). -/
def fwIdentity (img : List Byte) : List Byte := shake256 (img.take 128)

/-- Check 2 of R493. -/
def fwHeaderOk (s : State) (img : List Byte) : Bool :=
  let h := fwHdr img
  let serial := nbits h 64 64
  nbits h 0 32 == 0x5746584B && nbits h 32 16 == 0x3280 && nbits h 48 16 == 1 && nbits h 160 32 == 0 && nbits h 256 512 == 0 &&
  crc32c (img.take 24 ++ List.replicate 4 0 ++ (img.drop 28).take 100) == nbits h 192 32 && (fwNcomp img == 5 || fwNcomp img == 6) &&
  fwClen img % 64 == 0 && decide (128 + 32 * fwNcomp img ≤ fwClen img) && decide (fwClen img ≤ 6288128) &&
  decide (fwClen img + 3309 ≤ img.length) && (serial == 0 || serial == s.dev.serial)

/-- The directory of an image. -/
def fwDir (img : List Byte) : List Section :=
  (List.range (fwNcomp img)).map fun i =>
    let e := leAt img (128 + 32 * i) 32
    { kind := nbits e 0 16, arg := nbits e 32 32, off := nbits e 64 64, len := nbits e 128 64, scrc := nbits e 224 32,
      resv := nbits e 16 16 + nbits e 192 32 }

/-- The signing key that an image carries at directory index 0. -/
def fwKey (img : List Byte) : Option (List Byte) :=
  match (fwDir img).head? with
  | none => none
  | some c => if c.kind = 1 && c.len = 1952 && c.off + 1952 ≤ fwClen img then some (secBody img c) else none

/-- The fuses of a hub. -/
def State.hubBoot (s : State) (hub : Nat) : HubBoot := lget s.plant.hubs hub HubBoot.fresh

/-- A hub runs: its boot ROM has verified an image and nothing has halted it (R25, R492). -/
def hubRuns (s : State) (h : Nat) : Bool := let p := (s.hubBoot h).phase; p == 2 || p == 3 || p == 4

/-- A hub's boot state changed. -/
def State.modHub (s : State) (hub : Nat) (g : HubBoot → HubBoot) : State :=
  { s with plant := { s.plant with hubs := lmod s.plant.hubs hub g } }

/-- Key hash `k` is programmed and not revoked (R492). -/
def keyLive (x : HubBoot) (k : Nat) : Bool :=
  (lget x.hashes k []).any (· != 0) && !(nbit x.revoked k)

/-- The key-hash slot that an image's key matches (check 3 of R493). -/
def fwSlot (x : HubBoot) (img : List Byte) : Option Nat :=
  match fwKey img with
  | none => none
  | some k => (List.range 4).find? fun i => keyLive x i && lget x.hashes i [] == shake256 k

/-- The bytes of the only component of a type. -/
def fwComp (img : List Byte) (k : Nat) : List Byte := ((secsOf (fwDir img) k).head?.map (secBody img)).getD []

/-- Check 7 of R493. -/
def fwCompsOk (img : List Byte) : Bool :=
  let l := fwDir img
  let place := fwComp img 6
  l.all (fun c => c.resv == 0 && c.arg == 0 && decide (1 ≤ c.len) && c.off % 64 == 0 && decide (128 + 32 * l.length ≤ c.off) &&
    decide (c.off + c.len ≤ fwClen img) && decide (1 ≤ c.kind) && decide (c.kind ≤ 6) && crc32c (secBody img c) == c.scrc) &&
  (l.zipIdx.all fun a => l.zipIdx.all fun b => a.2 == b.2 || !(overlap a.1.off a.1.len b.1.off b.1.len)) &&
  [1, 2, 3, 4, 5].all (fun k => (secsOf l k).length == 1) && (secsOf l 6).length ≤ 1 &&
  ((secsOf l 6).isEmpty || (place.length == 2016 && leAt place 1952 64 / 2 == 0))

/-- The status of checks 2 to 7 of R493 run by a hub, zero when all pass. -/
def fwCheck (s : State) (hub : Nat) (img : List Byte) : Nat :=
  let x := s.hubBoot hub
  if !(fwHeaderOk s img) then 0x0910
  else if (fwSlot x img).isNone then 0x0911
  else if !(mldsaVerify ((fwKey img).getD []) (img.take 128) ((img.drop (fwClen img)).take 3309)) then 0x0912
  else if shake256 ((img.drop 128).take (fwClen img - 128)) ≠ toBytes 32 (nbits (fwHdr img) 768 256) then 0x0913
  else if fwSvn img < x.rollback then 0x0914
  else if !(fwCompsOk img) then 0x0915
  else 0

/-- A verified image becomes the firmware of a hub: it lies in the top 6 MiB of the hub's SRAM, and its placement key and policy are
taken (R494, R504). -/
def takeImage (s : State) (hub : Nat) (img : List Byte) : State :=
  let place := fwComp img 6
  let s1 := sramWrite s hub 0x01A00000 (img.take (fwClen img + 3309))
  s1.modHub hub fun x =>
    { x with phase := 2, svn := fwSvn img, slot := (fwSlot x img).getD 0, image := some (fwIdentity img), recovery := [],
             placeKey := if place.isEmpty then none else some (place.take 1952, nbit (leAt place 1952 1) 0) }

end Sys2Proof.Machine
end

