-- ==== Sys2Proof/Machine/Links.lean ====
section
/-! DEFINITION. Chord links: the layout of flits, what a sender keeps and resends (R324-R329), persistent errors and what a link that goes down
brings (R330-R332, R421). -/

namespace Sys2Proof.Machine

/-- The seats at the two ends of a link (R460). -/
def linkEnds (l : Nat) : Nat × Nat :=
  match l with
  | 0 => (0, 1) | 1 => (2, 3) | 2 => (0, 2) | 3 => (1, 3) | 12 => (4, 5) | 13 => (5, 6)
  | _ => if l < 8 then (l - 4, 4) else (l - 8, 5)

/-- The modules of a link, from its payload rate (R324). -/
def linkModules (l : Nat) : Nat := if l < 4 then 4 else if l = 13 then 1 else 2

/-- The module of a link that carries the flit of a sequence, when it is sent and when it is replayed (R328). -/
def flitModule (l q : Nat) : Nat := q % linkModules l

/-- The seats at which a direction of a link begins and ends. -/
def dirStart (l d : Nat) : Nat := if d = 0 then (linkEnds l).1 else (linkEnds l).2

/-- See `dirStart`. -/
def dirEnd (l d : Nat) : Nat := if d = 0 then (linkEnds l).2 else (linkEnds l).1

/-- A link of the table. -/
def State.link (s : State) (l : Nat) : Link := tget s.chord.links l Link.fresh

/-- A link replaced. -/
def State.setLink (s : State) (l : Nat) (x : Link) : State := { s with chord := { s.chord with links := tput s.chord.links l x } }

/-- The credits that a receiver's empty buffer gives (R327). -/
def fullCredits : List Nat := [64, 64, 64, 16]

/-- A direction of a link that has just trained. -/
def LinkDir.start : LinkDir :=
  { next := 0, unacked := [], replay := [], credits := fullCredits, ackAt := 0, expect := 0, nak := none, fresh := false, fails := 0, sendNak := false,
    buffer := [], freed := [0, 0, 0, 0] }

/-- A direction of a link: 0 from its first end of R460 to its second, 1 back. -/
def State.dir (s : State) (l d : Nat) : LinkDir := tget s.chord.dirs (2 * l + d) LinkDir.start

/-- A direction changed. -/
def State.modDir (s : State) (l d : Nat) (g : LinkDir → LinkDir) : State :=
  { s with chord := { s.chord with dirs := tput s.chord.dirs (2 * l + d) (g (s.dir l d)) } }

/-! ## A link goes down (R331) -/

/-- A fixed route between two seats uses a link. -/
def uses (a b l : Nat) : Bool := (route a b).contains l

/-- A request between two seats, or its response, uses a link (R332). -/
def tripUses (a b l : Nat) : Bool := uses a b l || uses b a l

/-- The site of a Facet task whose request failed stops with `FX_MOVER` at the instruction that issued it, unless its step has completed
(R71, R331). -/
def failSite (s : State) (site : Nat) (pc operand : Word) : State :=
  if (s.facet site).run = .running || (s.facet site).run = .ended then raiseAt s site 0x0A pc operand else s

/-- The pc of the instruction that issued a line request (R71). -/
def reqPc (s : State) (r : LineReq) : Word :=
  (((s.facet r.site).ops.find? fun o => o.id == r.op).map MoverOp.pc).getD (s.facet r.site).pc

/-- The sites whose line requests, Vertex operations or messages are on a link, with the pc of the instruction that issued each. -/
def sitesOn (s : State) (l : Nat) : List (Nat × Word) :=
  (s.mem.reqs.filter fun r => !r.carry && tripUses r.die (stackOf r.off) l).map (fun r => (r.site, reqPc s r)) ++
  (s.sync.vops.filter fun v => tripUses (dieOf v.site) v.unit l).map (fun v => (v.site, v.pc)) ++
  s.sync.msgs.filterMap fun m => match m.origin with
    | .send f => if uses m.seat (dieOf (s.siteOf m.dest)) l then some (f, m.pc) else none
    | _ => none

/-- A message that went over a link and has not been deposited is discarded, and what held it is freed as by its deposit (R188, R331). Log entry 145
(DEDUCED). -/
def loseMsgs (s : State) (l : Nat) : State :=
  let on (m : Msg) : Bool := uses m.seat (dieOf (s.siteOf m.dest)) l
  (s.sync.msgs.filter on).foldl (fun a m => delivered (dropMsg a m.id) m) s

/-- A hub's command acts on a unit over a link, and has no response from it: its descriptor or its response would take the link, or it waits there
for its release. -/
def fwdOn (s : State) (x : Slot) (l : Nat) : Bool :=
  (x.cmd == .started || (x.cmd == .waiting && decide (0x70 ≤ x.code) && decide (x.code < 0x80))) &&
  (cmdUnits s x).any fun u => decide (u < 6) && uses (4 + x.hub) u l

/-- Line requests that can get no response go. A write of the present generation that no controller has accepted may or may not be
written (R72, R265, R331). Log entry 3 (DESIGN CHOICE). -/
def loseLines (s : State) (lost : LineReq → Bool) : State :=
  let land (a : State) (r : LineReq) : State :=
    if Config.freeBool a.free && r.gen == (a.sec r.sector).gen then dramLine (a.takeFree 1) r.off r.data (partMask r.mask.toNat) r.poison else a.takeFree 1
  let s1 := (s.mem.reqs.filter fun r => lost r && r.write && !r.accepted).foldl land s
  { s1 with mem := { s1.mem with reqs := s1.mem.reqs.filter (fun r => !(lost r)),
                                 returned := s1.mem.returned.filter fun p => !(s.mem.reqs.any (fun r => lost r && r.tag == p.1)) } }

/-- Everything on a link that has no response fails at its source (R331 step 2). -/
def failTraffic (s : State) (l : Nat) : State :=
  let s1 := loseLines ((sitesOn s l).foldl (fun a p => failSite a p.1 p.2 (BitVec.ofNat 32 l)) s) (fun r => tripUses r.die (stackOf r.off) l)
  let s2 := loseMsgs { s1 with sync := { s1.sync with vops := s1.sync.vops.filter (fun v => !(tripUses (dieOf v.site) v.unit l)) } } l
  let s3 := { s2 with cmds := { s2.cmds with torn := s2.cmds.torn.filter fun p => !(fwdOn s2 p.2 l) } }
  ((s3.cmds.slots.filter fun p => p.2.st == .inflight && fwdOn s3 p.2 l).map Prod.fst).foldl (fun a i => done a i 0x010E 0) s3

/-- A link stops: nothing is sent on it and its replay buffers are discarded (R331 step 1). -/
def linkStop (s : State) (l : Nat) : State :=
  let s1 := s.setLink l { s.link l with up := false }
  failTraffic ((s1.modDir l 0 fun _ => LinkDir.start).modDir l 1 fun _ => LinkDir.start) l

/-- A link goes down by an error: each end of the device reports it, and the guest link is an event with a warning for which Hub E pulses
`GRST_N` (R331, R332, R421). -/
def linkDown (s : State) (l : Nat) : State :=
  if !(linkUp s l) then s
  else
    let s1 := linkStop s l
    let (a, b) := linkEnds l
    if l = 13 then nimWarn (dieFault (assertGrst s1) 0x15 l a) 5 0x0104 [0]
    else dieFault (dieFault s1 0x15 l a) 0x15 l b

/-- A retry of a link (R329): counted for the host and in its retry window, past whose threshold the link goes down (R330). -/
def retry (s : State) (l : Nat) : State :=
  let w := s.now / (s.num 0x5F13 0 * 1000)
  let k := s.link l
  let n := if k.window = w then k.retries + 1 else 1
  let s1 := (s.count64 0x5F11 l 1).setLink l { k with window := w, retries := n }
  if s.num 0x5F12 0 < n then linkDown s1 l else s1

/-! ## Flits (R324-R329) -/

/-- The header of a flit, its slots and its check. -/
def flitHead (b : List Byte) : Nat := leAt b 0 8

/-- A slot of a flit: 16 bytes of header, then 64 of payload. -/
def flitSlot (b : List Byte) (i : Nat) : Nat := leAt b (8 + 80 * i) 80

/-- The kind of a slot. -/
def slotKind (b : List Byte) (i : Nat) : Nat := nbits (flitHead b) (2 * i) 2

/-- The body bits that a short transaction of a kind names (R326). -/
def shortBody (k : Nat) : Nat :=
  let tag := 0xFFFF * 2 ^ 176
  match k with
  | 1 => tag + 0x3FFFFFFF
  | 2 => 2 ^ 64 - 1
  | 3 => tag + 0xFF * 2 ^ 168 + 0xFFF * 2 ^ 156 + (2 ^ 128 - 1)
  | 4 => tag + 0xFFFF * 2 ^ 160 + 0xFFFFFFFF
  | 5 => tag
  | 6 => tag + 0xFF
  | 7 => 0x3F
  | _ => 0

/-- The bits of `arg` that an operation of a line slot names (R325). -/
def slotArg (op : Nat) : Nat :=
  match op with
  | 1 => 0xFFFF * 2 ^ 48 + 0x3FFFFFFF
  | 2 => 0xFFFF * 2 ^ 48
  | 4 => 0xFFFFFFFF
  | 5 => 0xFF
  | _ => 0

/-- A number has a bit that a mask leaves out. -/
def beyond (v mask : Nat) : Bool := v &&& mask != v

/-- A short transaction carries a reserved kind or bit (R326). -/
def shortReserved (t : Nat) : Bool :=
  let k := nbits t 252 4
  decide (7 < k) || nbits t 192 38 != 0 || beyond (nbits t 0 192) (shortBody k)

/-- A line slot carries a reserved operation, record kind or bit (R325, R391, R418). -/
def lineReserved (v : Nat) : Bool :=
  let op := nbits v 68 4
  let kind := nbits v 0 8
  !([1, 2, 3, 4, 5].contains op) || nbit v 67 || beyond (nbits v 0 64) (slotArg op) ||
  (op == 5 && (decide (0x12 ≤ kind) || (decide (2 ≤ kind) && decide (kind < 0x10))))

/-- The header of a short slot carries a reserved operation or bit (R325). -/
def shortHead (v : Nat) : Bool := nbits v 68 4 != 8 || nbit v 67 || nbits v 74 22 != 0 || nbits v 0 64 != 0

/-- The short transactions of a slot. -/
def slotShorts (v : Nat) : List Nat := [nbits v 128 256, nbits v 384 256]

/-- A slot carries a reserved code or bit (R324-R326). -/
def slotReserved (kind v : Nat) : Bool :=
  if kind = 0 then false
  else if kind = 3 then true
  else if kind = 1 then lineReserved v
  else shortHead v || (slotShorts v).any shortReserved

/-- The header of a flit carries a reserved bit (R324). -/
def headReserved (h : Nat) : Bool := nbits h 48 3 != 0 || nbits h 32 4 != 0 || nbits h 6 10 != 0

/-- A flit with a correct check carries a reserved code. -/
def flitReserved (b : List Byte) : Bool :=
  headReserved (flitHead b) || (List.range 3).any fun i => slotReserved (slotKind b i) (flitSlot b i)

/-- The flit holds nothing (R324). -/
def flitIdle (b : List Byte) : Bool := nbits (flitHead b) 0 6 == 0

/-- The slots of a flit use the sender's credits of their channels (R327). -/
def useCredits (c : List Nat) (b : List Byte) : List Nat :=
  (List.range 3).foldl (fun c i => if slotKind b i = 0 then c else lmod c (nbits (flitSlot b i) 72 2) (· - 1)) c

/-- The sender has a credit for every slot of a flit (R327). -/
def hasCredits (c : List Nat) (b : List Byte) : Bool :=
  (List.range 4).all fun v => decide (((List.range 3).filter fun i => slotKind b i != 0 && nbits (flitSlot b i) 72 2 == v).length ≤ lget c v 0)

/-- The slots of a flit, as its sender keeps them. -/
def flitKept (b : List Byte) : List Byte := (b.drop 8).take 240

/-- The sender's side of a flit that arrives: a new one is kept, and one of those to resend has been resent. -/
def sent (x : LinkDir) (now : Nat) (b : List Byte) (good : Bool) : LinkDir :=
  let q := nbits (flitHead b) 36 12
  let kept := if good then flitKept b else []
  if flitIdle b then x
  else if q = x.next && (good || x.replay.isEmpty) then
    { x with next := (q + 1) % 4096, unacked := x.unacked ++ [(q, kept)], ackAt := if x.unacked.isEmpty then now else x.ackAt,
             credits := if good then useCredits x.credits b else x.credits }
  else
    let known := x.unacked.any fun p => p.1 == q && !p.2.isEmpty
    { x with replay := if x.replay.head? = some q then x.replay.drop 1 else x.replay,
             unacked := if good && !known then x.unacked.map fun p => if p.1 = q then (q, kept) else p else x.unacked,
             credits := if good && !known && x.unacked.any (fun p => p.1 == q) then useCredits x.credits b else x.credits }

/-- A flit that is not the expected one, or fails its check (R329): one `nak`, repeated at once where the first arrival after it fails its
check; eight failures of the expected flit in a row bring the link down (R330). -/
def refuse (s : State) (l d : Nat) (crcBad : Bool) : State :=
  let x := s.dir l d
  if x.nak.isSome && !(x.fresh && crcBad) then s.modDir l d fun y => { y with fresh := false }
  else
    let n := if crcBad then x.fails + 1 else x.fails
    let s1 := s.modDir l d fun y => { y with nak := some s.now, fresh := true, fails := n, sendNak := true }
    if 8 ≤ n then linkDown s1 l else s1

/-- The firewall rejects something by one of its checks (R341): counted, told once in a tick, and past 1,024 rejections in a tick the
guest is held in reset until Hub E restarts. -/
def fwReject (s : State) (check : Nat) : State :=
  let f := s.chord.fw
  let n := if f.tick = s.tickNow then f.rejects + 1 else 1
  let s1 := s.count64 0x4813 0 1
  let s2 := { s1 with chord := { s1.chord with fw := { f with tick := s.tickNow, rejects := n } } }
  let s3 := if n = 1 then nimWarn s2 5 0x0106 (toBytes 1 check ++ toBytes 8 (s2.num 0x4813 0)) else s2
  if n < 1024 then s3
  else
    let s4 := assertGrst { s3 with chord := { s3.chord with fw := { s3.chord.fw with held := true } } }
    if linkUp s4 13 then linkStop s4 13 else s4

/-- `NAK_TIMEOUT` (R329): no effect unless a `nak` has gone unanswered for 2,000 ns. -/
def nakTimeout (s : State) (l d : Nat) : State :=
  match (s.dir l d).nak with
  | none => s
  | some t => if !(linkUp s l) || s.now < t + 2000 then s else s.modDir l d fun y => { y with nak := some s.now, fresh := true, sendNak := true }

/-- `NAK_TIMEOUT` (R329). -/
def execNakTimeout (l : Fin 14) (d : Fin 2) (s : State) : Res := ok (nakTimeout s l.val d.val)

/-- `ACK_TIMEOUT` (R329): the sender replays from its oldest unacknowledged flit, which is a retry; no effect before 2,000 ns without
progress. -/
def ackTimeout (s : State) (l d : Nat) : State :=
  let x := s.dir l d
  if !(linkUp s l) || x.unacked.isEmpty || s.now < x.ackAt + 2000 then s else
    retry (s.modDir l d fun y => { y with ackAt := s.now, replay := y.unacked.map Prod.fst }) l

/-- `ACK_TIMEOUT` (R329). -/
def execAckTimeout (l : Fin 14) (d : Fin 2) (s : State) : Res := ok (ackTimeout s l.val d.val)

/-- `MODULE_TRAINED_STATE_LOST` (R330). -/
def execModuleTrainedStateLost (l : Fin 14) (s : State) : Res := ok (linkDown s l.val)

/-! ## Clocks (R31, R32, R330) -/

/-- The seat of a clock domain; 7 for test and debug. -/
def domainSeat (d : Nat) : Nat := if d < 20 then d / 5 else if d < 29 then 4 else if d < 38 then 5 else if d = 38 then 6 else 7

/-- `PLL_LOSS_OF_LOCK` (R32): the die reports a clock fault; a PLL of a Chord domain takes the die's links down as well (R330). -/
def pllLost (s : State) (d : Nat) : State :=
  if s.dev.st = .off || !(nbit s.dev.pll d) then s
  else
    let s1 := { s with dev := { s.dev with pll := s.dev.pll - 2 ^ d } }
    let s2 := raiseFault s1 s1.now 0 0x14 (domainSeat d) 0x1FF d none
    if d < 20 && d % 5 = 3 then
      ((List.range 14).filter fun l => (linkEnds l).1 == d / 5 || (linkEnds l).2 == d / 5).foldl linkDown s2
    else s2

/-- `PLL_LOSS_OF_LOCK` (R32). -/
def execPllLossOfLock (d : Fin 40) (s : State) : Res := ok (pllLost s d.val)

end Sys2Proof.Machine
end

