-- ==== Sys2Proof/Machine/Conditions.lean ====
section
/-! DEFINITION. What holds of the device as a whole: degrading conditions (R7), retired Prisms (R577), Facet clocks (R518, R530), the
latent-fault lap (R437), and where homes run (R23, R431, R578). -/

namespace Sys2Proof.Machine

/-! ## Degrading conditions (R7) -/

/-- The condition of coolant stage 3 (R535). -/
def coolantThree : Nat := 4

/-- A half is held in BOOT or recovery, or still boots: its hub's phase is not done (R7, R509). -/
def hubDown (s : State) (hub : Nat) : Bool := (lget s.plant.hubs hub HubBoot.fresh).phase != 4

/-- A degrading condition holds (R7): one that is recorded, a scope that does not run, or a half that has not booted. -/
def degraded (s : State) : Bool :=
  !s.dev.degrading.isEmpty || s.dev.scopes.any (fun c => c.st != 0) || hubDown s 0 || hubDown s 1

/-- The first degrading condition moves OPERATIONAL to DEGRADED (R7). -/
def noteDegraded (s : State) : State := if s.dev.st = .operational && degraded s then setDevState s .degraded else s

/-- A degrading condition is recorded. -/
def degrade (s : State) (c : Nat) : State :=
  noteDegraded { s with dev := { s.dev with degrading := if s.dev.degrading.contains c then s.dev.degrading else c :: s.dev.degrading } }

/-! ## Retired Prisms -/

/-- A Prism with more than eight suspect sites is retired (R577). -/
def overfull (s : State) (d : Nat) : Bool := decide (8 < (suspects s d).length)

/-- The entry of a list with the least key, the first of equals. -/
def leastBy (key : Nat → Nat) : List Nat → Option Nat
  | [] => none
  | x :: r => match leastBy key r with
    | none => some x
    | some y => if key y < key x then some y else some x

/-- The standby set formed anew: the suspect sites, and the default sites of the lowest rows that hold no suspect (R23, R431). -/
def formedStandby (s : State) (d : Nat) : List Nat :=
  let sus := suspects s d
  let rows := ((List.range 8).filter fun r => !(sus.any fun i => i / 9 == r)).take (8 - sus.length)
  if overfull s d then [] else (sus ++ rows.map (10 * ·)).map (128 * d + ·)

/-- The homes that run on a Prism: its tasks, and the checker homes of paired entries (R578). -/
def homesOn (s : State) (d : Nat) : List Nat :=
  let tasks := (s.work.tasks.map Prod.fst).filter fun h => dieOf h == d
  let chk := s.sched.entries.flatMap fun p => if entPair p.2.raw && entKind p.2.raw == 0 then (entHomes p.2.raw).map checkerHome else []
  sortBy id ((tasks ++ chk.filter fun h => dieOf h == d).eraseDups)

/-- The two passes of R578 over the active sites of a Prism: pairs of home and site. -/
def placedHomes (s : State) (d : Nat) : List (Nat × Nat) :=
  let active := ((List.range 72).map (128 * d + ·)).filter fun f => !((formedStandby s d).contains f)
  let hs := homesOn s d
  let first := (hs.filter active.contains).map fun h => (h, h)
  (hs.filter fun h => !(active.contains h)).foldl (fun l h =>
    match leastBy (hops h) (active.filter fun f => !(l.any fun p => p.2 == f)) with
    | none => l
    | some f => l ++ [(h, f)]) first

/-- The standby set and the placement of a Prism formed anew; a retired Prism has neither (R23, R431, R577, R578). -/
def formPrism (s : State) (d : Nat) : State :=
  let out := s.work.standby.filter fun f => dieOf f != d
  let sites := if overfull s d then [] else placedHomes s d
  let keep := s.work.site.filter fun p => dieOf p.1 != d
  { s with work := { s.work with standby := out ++ formedStandby s d, site := sites.foldl (fun t p => tput t p.1 p.2) keep } }

/-! ## Facet clocks (R518, R530) -/

/-- The power control of a die replaced. -/
def setPower (s : State) (d : Nat) (x : DiePower) : State := { s with plant := { s.plant with power := tput s.plant.power d x } }

/-- The highest clock of a Prism (R518) or of a hub's cluster (R522), which the survival level holds at 800 MHz (R537). -/
def clockMax (s : State) (d : Nat) : Nat := if d < 4 then s.num 0x4404 0 else if s.plant.gated then 800 else s.num 0x4407 (d - 4)

/-- The lowest clock to which a die is lowered. -/
def clockMin (s : State) (d : Nat) : Nat := if d < 4 then s.num 0x4405 0 else 800

/-- The dies that an AVS rail feeds (R512, R513). -/
def railDies (r : Nat) : List Nat :=
  let h := r / 4
  if r % 4 < 2 then [2 * h + r % 4] else if r % 4 = 2 then [4 + h] else [2 * h, 2 * h + 1, 4 + h]

/-- A rail must rise before a die runs at a clock (R514): a monitor would lose its margin, and the rail has not reached its highest
voltage. -/
def railFirst (s : State) (r d c : Nat) : Bool :=
  let v := lget s.plant.setpoint r 0
  (railDies r).contains d && decide (v + 5 ≤ s.num 0x4401 r / 65536) && Config.marginShort s.now r v d c

/-- A die's clock raised towards `c`: at once, unless a rail must rise first (R514). -/
def raiseClock (s : State) (d c : Nat) : Nat :=
  let now := dieTarget s d
  if now < c && (List.range 8).any (fun r => railFirst s r d c) then now else c

/-- A die's clock within its bounds (R518, R522): at its maximum, unless the limiter, a hot spot or a stack stage has lowered it. -/
def followClock (s : State) (d : Nat) : State :=
  let x := diePower s d
  let top := clockMax s d
  let c := if x.lowered then Nat.min top (Nat.max (clockMin s d) x.clock) else top
  setPower s d { x with clock := raiseClock s d c, lowered := x.lowered && decide (c < top) }

/-- The clocks of all dies follow their bounds: a write of the maximum or the floor, or the survival level, moves them (R518, R522, R537). -/
def followClocks (s : State) : State := [0, 1, 2, 3, 4, 5].foldl followClock s

/-! ## The latent-fault lap (R437) -/

/-- A lap of a Prism is missed (R438): it is counted, the fault is stamped at its deadline, and the next lap starts at that instant. -/
def missLap (s : State) (d t : Nat) : State :=
  startLapAt (degrade (raiseFault (s.count32 0x4043 d 1) (lapEnd s t) 0 0x0C d 0x1FF 0x3F none) (lapMissed d)) d (lapEnd s t)

/-- `LAP_DEADLINE` (R438): no effect before the deadline of a lap that runs. -/
def lapDeadline (s : State) (d : Nat) : State :=
  match tfind s.safety.lapStart d with
  | none => s
  | some t => if s.now < lapEnd s t || overfull s d then s else missLap s d t

/-- The laps of a Prism whose deadlines have passed are missed (R438). -/
def pastLaps (s : State) (d : Nat) : State :=
  match tfind s.safety.lapStart d with
  | none => s
  | some t => (List.range ((s.now - t - 1) / (s.num 0x4041 0 * 1000000))).foldl (fun a _ => lapDeadline a d) s

/-- A site is covered, in the lap that runs (R437, R438). -/
def cover (s : State) (f : Nat) : State :=
  let s1 := pastLaps s (dieOf f)
  checkLap { s1 with safety := { s1.safety with covered := tput s1.safety.covered f true } } (dieOf f)

/-- `LAP_DEADLINE` (R438). -/
def execLapDeadline (d : Fin 4) (s : State) : Res := ok (lapDeadline s d.val)

end Sys2Proof.Machine
end

