-- ==== Sys2Proof/Machine/Release.lean ====
section
/-! DEFINITION. The cyclic schedule as it runs: occurrences due, released, shed and replayed (R234-R239, R399, R401), step handles
(R241), budgets and windows (R243, R244), self-test slots (R246), and the schedule's two commands (R242, R248). -/

namespace Sys2Proof.Machine

/-! ## Which copies run -/

/-- Whether an entry's occurrence of tick `n` runs paired, and whether its checkers run on trial (R405, R406). -/
def pairing (s : State) (r : BitVec 256) (n : Nat) : Bool × Bool :=
  if !(entPair r) || s.num 0x4000 0 ≠ 0 then (false, false)
  else match s.safety.join with
    | .none => (true, false)
    | .trial t => if n < t then (false, false) else if n = t then (false, true) else (true, false)
    | .abandon _ t => (false, decide (n = t))
    | .copying _ => (false, false)

/-- The entry is held: its die, or in coupled operation the die of its checkers, is in a scope that does not run (R237, R423, R577), or its
main copies wait for the trial tick of a join (R426). -/
def entHeld (s : State) (r : BitVec 256) : Bool :=
  !(s.dieUp (entDie r)) || (entPair r && s.num 0x4000 0 == 0 && !(s.dieUp (entDie r ^^^ 2))) ||
  (entPair r && s.safety.hold.contains (halfOf (entDie r)))

/-- The sites that an occurrence's tasks need: both copies where checkers run. -/
def neededSites (s : State) (homes : List Nat) (both : Bool) : List Nat :=
  homes.map s.siteOf ++ (if both then homes.map fun h => s.siteOf (checkerHome h) else [])

/-! ## Reference-figure reservations (R239, R396) -/

/-- A reference entry reserves a site: it names the home that runs there, or the main home of the checker copy that does. -/
def reservesSite (s : State) (r : BitVec 256) (site : Nat) : Bool :=
  entKind r == 1 && (entHomes r).any fun h => s.siteOf h == site || (pairedHome s h && s.siteOf (checkerHome h) == site)

/-- The reservations of a site in tick `n`, as first and last instants. -/
def reservations (s : State) (site n : Nat) : List (Nat × Nat) :=
  (s.sched.entries.filter fun p => entSlot p.2.raw == n % s.num 0x2801 0 && reservesSite s p.2.raw site).map fun p =>
    (tickStart s n + fld p.2.raw 80 16 * 1000, tickStart s n + (fld p.2.raw 80 16 + fld p.2.raw 96 16) * 1000)

/-- The end of the reservation that a site is in, a delayed one included (R239). -/
def reservedUntil (s : State) (site : Nat) : Option Nat :=
  let l := ((reservations s site s.tickNow).filter fun p => decide (p.1 ≤ s.now) && decide (s.now < p.2)).map Prod.snd
  let d := match (s.facet site).reserve with
    | some (_, e) => if s.now < e then [e] else []
    | none => []
  if (l ++ d).isEmpty then none else some (lmax (l ++ d))

/-- A budget that starts now reaches into no reservation that begins later (R239). -/
def budgetClear (s : State) (site budgetNs : Nat) : Bool :=
  [s.tickNow, s.tickNow + 1].all fun n => (reservations s site n).all fun p => decide (p.1 ≤ s.now) || decide (s.now + budgetNs ≤ p.1)

/-- A site is free for home `h` (R234, R409). -/
def siteFree (s : State) (h site budgetNs : Nat) : Bool :=
  let f := s.facet site
  f.run != .running && f.run != .ended && !f.checkerHeld && (reservedUntil s site).isNone && resident s h && budgetClear s site budgetNs

/-! ## Dependencies (R401) -/

/-- What an occurrence has to wait for. -/
inductive Dep where
  | go | hold | shed
  deriving DecidableEq, Repr

/-- The producers of a consumer entry. -/
def producers (s : State) (e : Nat) : List Nat :=
  (List.range 256).filterMap fun i =>
    let v := s.num 0x4002 i
    let p := nbits v 0 10
    let work (k : Nat) : Bool := match s.ent k with
      | some x => entKind x.raw == 0
      | none => false
    if nbit v 31 && nbits v 16 10 == e && work p && work e then some p else none

/-- The dependence on one producer's occurrence in the tick before. -/
def depOn (s : State) (p n : Nat) : Dep :=
  match findOcc s p (n - 1) with
  | none => .go
  | some o =>
    if n = 0 then .go
    else match o.st with
      | .shed => .shed
      | .failed => .shed
      | .withheld => .hold
      | .replayOrdered => .hold
      | .replaying => if o.tasks.all fun t => !t.replay || t.accepted then .go else .hold
      | _ => .go

/-- The dependence of an entry's occurrence in tick `n`. -/
def depState (s : State) (e n : Nat) : Dep :=
  let ds := (producers s e).map fun p => depOn s p n
  if ds.contains .shed then .shed else if ds.contains .hold then .hold else .go

/-! ## Step handles and shedding (R237, R241) -/

/-- The step handle of an occurrence issued; without a free slot the release or shed is counted (R241). Log entry 47 (DESIGN CHOICE). -/
def issueHandle (s : State) (e : Nat) : State × Option Nat :=
  let r := s.entRaw e
  if !(r.getLsbD 199) then (s, none)
  else match nextSlot s (entSector r) with
    | none => (s.count32 0x280B 0 1, none)
    | some i =>
      let x : Slot := { Slot.never with gen := (s.slot i).gen, kind := 2, rep := 1, dkind := b2n (r.getLsbD 200), dest := fld r 201 9,
                                        hub := halfOf (entDie r), stamp := s.now, cmd := .waiting }
      let s1 := allocSlot s (entSector r) i x
      (s1, some (handleOf i (s1.slot i)))

/-- A new occurrence of an entry. -/
def newOcc (s : State) (e n : Nat) (st : OccSt) (trigger : Option Nat) : Occ :=
  let r := s.entRaw e
  let task (h : Nat) : TaskOut :=
    { home := h, mainEnd := none, chkEnd := none, mainCause := none, chkCause := none, verdict := none, cverdict := none, vstamp := 0,
      carryDone := false, chkCarryDone := false, replay := false, accepted := false, failed := false, committed := false, tainted := false, log := [], vtres := [] }
  { entry := e, tick := n, st := st, paired := (pairing s r n).1, due := tickStart s n + fld r 80 16 * 1000, release := 0, handle := none,
    trigger := trigger, tasks := (entHomes r).map task, wfault := false, overrun := false, first := none, stepFailed := false,
    attempts := 0, heldAt := 0, replayAt := 0 }

/-- An occurrence entered in the schedule. -/
def addOcc (s : State) (o : Occ) : State := { s with sched := { s.sched with occs := s.sched.occs ++ [o] } }

/-- An open occurrence is shed now (R237): counted and reported, its handle issued and completed, its trigger completed, and with `prio`
0 a fault sent. -/
def shed (s : State) (e n : Nat) : State :=
  let r := s.entRaw e
  let s1 := modOcc (lastEvent (s.count32 0x2809 (entDie r) 1) s.now e 2) e n fun o => { o with st := .shed }
  let a := issueHandle s1 e
  let s2 := settle (modOcc a.1 e n fun o => { o with handle := a.2 }) e n 0x0603 0
  if fld r 192 3 = 0 then raiseFault s2 s2.now e 0x05 (entDie r) 0x1FF 0x3F (some (entSector r)) else s2

/-! ## Due (R155, R234, R237, R242, R399, R401) -/

/-- The armed occurrence of an entry taken, if it is that of tick `n`. -/
def armedFor (x : SchEntry) (n : Nat) : Option Nat :=
  match x.armed with
  | some (t, h) => if t = n then some h else none
  | none => none

/-- The arming of an entry cleared. -/
def clearArm (s : State) (e : Nat) : State :=
  match s.ent e with
  | none => s
  | some x => { s with sched := { s.sched with entries := tput s.sched.entries e { x with armed := none } } }

/-- A task with a carry set, of an entry's homes, waits for the replay of an earlier step, whose carry set its next step starts from (R238). -/
def awaitsReplay (s : State) (r : BitVec 256) : Bool :=
  s.sched.occs.any fun o => (o.st == .withheld || o.st == .replayOrdered || o.st == .replaying) && o.tasks.any fun t =>
    t.replay && !t.committed && !t.failed && (entHomes r).contains t.home && hasCarry s t.home

/-- The Prism of an entry is held in another slice than the entry's (R155). -/
def sliceHeld (s : State) (r : BitVec 256) : Bool :=
  (tfind s.work.switching (entDie r)).isNone && tget s.work.slice (entDie r) 0 != dieSlice s (entDie r) (entSlot r)

/-- Step 5 of R38 has run for the present tick, so that its entries may be released. -/
def tickOpened (s : State) : Bool := s.sched.tick == s.tickNow

/-- The schedule releases entries of a sector in tick `n`: it has begun, and the sector is not in or just after a reset (R230, R266). -/
def ticks (s : State) (sec n : Nat) : Bool :=
  s.operating && (match s.sched.first with
    | some t => decide (t ≤ n)
    | none => false) && (s.sec sec).st == .active && decide ((s.sec sec).resume ≤ n)

/-- The triggers of removed entry `e` whose due time has come complete as shed (R242). -/
def orphansDue (s : State) (e : Nat) : State :=
  let due (p : Nat × Nat × Nat × Nat) : Bool := p.1 == e && decide (p.2.2.1 ≤ s.now)
  (s.sched.orphans.filter due).foldl (fun a p => finishH a p.2.2.2 0x0603 (BitVec.ofNat 32 p.2.1) a.now)
    { s with sched := { s.sched with orphans := s.sched.orphans.filter fun p => !(due p) } }

/-- The occurrence of entry `e` of the present tick falls due, where it is due at this instant (R234). -/
def occDue (s : State) (e : Nat) : State :=
  match s.ent e with
  | none => s
  | some x =>
    let n := s.tickNow
    let arm := armedFor x n
    if entKind x.raw ≠ 0 || n % s.num 0x2801 0 ≠ entSlot x.raw || s.now ≠ tickStart s n + fld x.raw 80 16 * 1000 ||
       !(tickOpened s) || (findOcc s e n).isSome || (entSpor x.raw && arm.isNone) then s
    else
      let drop := match arm with
        | none => s
        | some h => clearArm (finishH s h 0x0603 (BitVec.ofNat 32 n) s.now) e
      if !(s.operating) || entHeld s x.raw || !(x.en) then drop
      else if !(ticks s (entSector x.raw) n) then drop
      else
        let s1 := clearArm (addOcc s (newOcc s e n .waiting arm)) e
        let lost := sliceHeld s x.raw || depState s e n == .shed || awaitsReplay s x.raw
        if lost then shed s1 e n else s1

/-- `ENTRY_DUE` (R234): no effect unless the entry's occurrence of the present tick is due at this instant, or a trigger of an entry that has left
the table is. -/
def entryDue (s : State) (e : Nat) : State := occDue (orphansDue s e) e

/-- `ENTRY_DUE` (R234). Log entry 119 (DESIGN CHOICE). -/
def execEntryDue (e : Nat) (s : State) : Res := ok (entryDue s e)

/-- `RELEASE_WINDOW_CLOSE` (R237): no effect unless an occurrence of the entry still waits when its window has closed. -/
def windowClose (s : State) (e : Nat) : State :=
  match s.sched.occs.find? fun o => o.entry == e && o.st == .waiting && decide (tickStart s o.tick + fld (s.entRaw e) 112 16 * 1000 ≤ s.now) with
  | none => s
  | some o => if entHeld s (s.entRaw e) then s else shed s e o.tick

/-- `RELEASE_WINDOW_CLOSE` (R237). -/
def execReleaseWindowClose (e : Nat) (s : State) : Res := ok (windowClose s e)

/-! ## Release (R234, R236, R238) -/

/-- The tasks of an occurrence that a release starts: all of them, or those that are replayed. -/
def startHomes (o : Occ) : List Nat :=
  (o.tasks.filter fun t => o.st == .waiting || t.replay).map TaskOut.home

/-- A release or a replay can start now, its place in the order of R236 apart. Log entry 63 (DEDUCED). -/
def canRun (s : State) (o : Occ) : Bool :=
  let r := s.entRaw o.entry
  let both := o.paired || (o.st == .waiting && (pairing s r o.tick).2)
  let budget := fld r 96 16 * 1000
  let free := (startHomes o).all fun h =>
    siteFree s h (s.siteOf h) budget && (!both || siteFree s (checkerHome h) (s.siteOf (checkerHome h)) budget)
  let ready := match o.st with
    | .waiting => decide (o.due ≤ s.now) && decide (s.now < tickStart s o.tick + fld r 112 16 * 1000) && depState s o.entry o.tick == .go &&
        !(sliceHeld s r)
    | .replayOrdered => decide (o.replayAt ≤ s.now) &&
        !(s.sched.occs.any fun q => q.entry == o.entry && decide (q.tick < o.tick) && (q.st == .withheld || q.st == .replayOrdered))
    | _ => false
  ready && tickOpened s && s.operating && !(entHeld s r) && (s.sec (entSector r)).st == .active && free

/-- The order of R236: priority, replays first, due time, table index, and for replays of one entry the tick. -/
def waitKey (s : State) (o : Occ) : Nat :=
  let r := s.entRaw o.entry
  let replay := o.st == .replayOrdered
  (((fld r 192 3 * 2 + (if replay then 0 else 1)) * 2 ^ 80 + (if replay then o.replayAt else o.due)) * 1024 + o.entry) * 2 ^ 80 + o.tick

/-- No waiting release or replay that comes first needs one of the sites of this one (R236). -/
def firstInLine (s : State) (o : Occ) : Bool :=
  let sites := neededSites s (startHomes o) (entPair (s.entRaw o.entry))
  !(s.sched.occs.any fun q => (q.st == .waiting || q.st == .replayOrdered) && decide (waitKey s q < waitKey s o) && canRun s q &&
    (neededSites s (startHomes q) (entPair (s.entRaw q.entry))).any sites.contains)

/-- One copy of a task's step starts on its site, its batch rows in place (R43, R125). -/
def startCopy (s : State) (o : Occ) (h : Nat) (checker replay trial : Bool) (view : Option Nat) : State :=
  let r := s.entRaw o.entry
  let site := s.siteOf (if checker then checkerHome h else h)
  match taskOf s h with
  | none => s
  | some t =>
    let st : Step := { entry := o.entry, tick := o.tick, home := h, checker := checker, paired := o.paired || trial, replay := replay,
                       trial := trial, release := s.now, budget := fld r 96 16 * 1000, view := view }
    s.modFacet site fun f =>
      let g := startFacet f t st (fld r 160 32) (((o.tasks.find? fun t => t.home == h).map TaskOut.log).getD [])
      match view.bind (findView s) with
      | none => g
      | some (_, v) => lsWrite g v.area v.bytes

/-- A step that fails at its latch does not start (R126): both copies stop with no cause code, and the status is the fault's detail.
Log entry 54 (DEDUCED). -/
def latchFail (s : State) (o : Occ) (h status : Nat) : State :=
  let c : Cause := { stamp := s.now, code := 0, pc := 0, operand := BitVec.ofNat 32 status }
  let s1 := modTask s o.entry o.tick h fun t => { t with mainCause := some c, chkCause := if o.paired then some c else none }
  let s2 := modOcc s1 o.entry o.tick fun o => { o with stepFailed := true }
  raiseFault s2 s2.now status 0x01 (dieOf (s.siteOf h)) (s.siteOf h) 0x3F (some (entSector (s.entRaw o.entry)))

/-- The step of one task released (R125, R126, R234). -/
def releaseTask (s : State) (o : Occ) (trial : Bool) (h : Nat) : State :=
  let start (a : State) (v : Option Nat) : State :=
    let a1 := startCopy a o h false false trial v
    if o.paired || trial then startCopy a1 o h true false trial v else a1
  match (taskOf s h).bind Task.bind with
  | none => start s none
  | some b => match latchView s h o.entry o.tick b (entSector (s.entRaw o.entry)) with
    | .fail st => latchFail s o h st
    | .view s1 id => start s1 (some id)

/-- A carry line poisoned in every source (R430). -/
def stateLost (s : State) (h : Nat) : State :=
  raiseFault s s.now h 0x07 (dieOf h) (s.siteOf h) 0x3F ((tfind s.work.tasks h).map Task.sector)

/-- A checker that runs on trial starts from its own sources, since it ran no step before (R398, R406); a carry line poisoned
in every source raises `FLT_STATE_LOST` (R430). -/
def restoreTrial (s : State) (hs : List Nat) : State := 
  hs.foldl (fun a h =>
    let r := restore a (a.siteOf (checkerHome h)) h true true
    if r.2 then stateLost r.1 h else r.1) s

/-- `ENTRY_RELEASE` (R234): no effect unless an occurrence of the entry waits and can be released now. -/
def entryRelease (s : State) (e : Nat) : State :=
  match s.sched.occs.find? fun o => o.entry == e && o.st == .waiting with
  | none => s
  | some o =>
    if !(canRun s o && firstInLine s o) then s
    else
      let trial := (pairing s (s.entRaw e) o.tick).2
      let a := issueHandle s e
      let s1 := modOcc a.1 e o.tick fun o => { o with st := .released, release := s.now, handle := a.2, attempts := 1 }
      let s2 := if trial then restoreTrial s1 (startHomes o) else s1
      (startHomes o).foldl (fun b h => releaseTask b o trial h) s2

/-- `ENTRY_RELEASE` (R234). -/
def execEntryRelease (e : Nat) (s : State) : Res := ok (entryRelease s e)

/-- The view that a step of home `h` still holds (R128). -/
def heldView (s : State) (e n h : Nat) : Option Nat :=
  s.kv.findSome? fun p => (p.2.views.find? fun v => v.entry == e && v.tick == n && v.home == h).map View.id

/-- The outcome of a task before its replay runs. -/
def freshOut (t : TaskOut) : TaskOut :=
  { t with mainEnd := none, chkEnd := none, mainCause := none, chkCause := none, verdict := none, cverdict := none, carryDone := false,
           chkCarryDone := false, accepted := false, failed := false, tainted := false, vtres := [] }

/-- One task of a replay restored and started (R238, R398); a carry line poisoned in every source raises `FLT_STATE_LOST` instead
(R430). -/
def replayTask (s : State) (o : Occ) (h : Nat) : State :=
  let a := restore s (s.siteOf h) h false (pairedHome s h && coupled s)
  let b := if o.paired then restore a.1 (a.1.siteOf (checkerHome h)) h true true else (a.1, false)
  if a.2 || b.2 then raiseFault b.1 b.1.now h 0x07 (dieOf h) (s.siteOf h) 0x3F (some (entSector (s.entRaw o.entry)))
  else
    let v := heldView s o.entry o.tick h
    let s1 := modTask b.1 o.entry o.tick h freshOut
    let s2 := startCopy s1 o h false true false v
    if o.paired then startCopy s2 o h true true false v else s2

/-- An entry's occurrence of a tick is shed, whether or not it is due yet (R238). -/
def shedOwn (s : State) (e n : Nat) : State :=
  match findOcc s e n with
  | some o => if o.st = .waiting then shed s e n else s
  | none =>
    match s.ent e with
    | none => s
    | some x =>
      if entSlot x.raw ≠ n % s.num 0x2801 0 || !(x.en) || (entSpor x.raw && (armedFor x n).isNone) then s
      else shed (clearArm (addOcc s (newOcc s e n .waiting (armedFor x n))) e) e n

/-- The work entries that step a task of `hs` that has a carry set (R150, R238). -/
def carryEntries (s : State) (hs : List Nat) : List Nat :=
  (s.sched.entries.filter fun p => entKind p.2.raw == 0 && (entHomes p.2.raw).any fun h => hs.contains h && hasCarry s h).map Prod.fst

/-- `REPLAY_RELEASE` (R238): no effect unless the ordered replay can start now. -/
def replayRelease (s : State) (e n : Nat) : State :=
  match findOcc s e n with
  | none => s
  | some o =>
    if o.st ≠ .replayOrdered || !(canRun s o && firstInLine s o) then s
    else
      let hs := startHomes o
      let s1 := modOcc s e n fun o => { o with st := .replaying, release := s.now, attempts := 2 }
      let s2 := hs.foldl (fun a h => replayTask a o h) s1
      if s.tickNow = n then s2 else (carryEntries s hs).foldl (fun a k => shedOwn a k s.tickNow) s2

/-- `REPLAY_RELEASE` (R238). -/
def execReplayRelease (e n : Nat) (s : State) : Res := ok (replayRelease s e n)

/-! ## Budgets and windows (R243, R244) -/

/-- The step on a site is stopped at its budget (R243), with the stop stamped `t`. -/
def budgetStopAt (s : State) (site t : Nat) : State :=
  match (s.facet site).step with
  | none => s
  | some st =>
    if !(budgetOver s site) then s
    else
      let s1 := raiseAt { lastEvent (s.count32 0x2808 (dieOf site) 1) t st.entry 1 with now := t } site 0x0C (s.facet site).pc 0
      { s1 with now := s.now }

/-- The step on a site is stopped at its budget now (R243). -/
def budgetStop (s : State) (site : Nat) : State := budgetStopAt s site s.now

/-- The stop of a budget counter as a close evaluates it (R38 step 2): at its instant, and before the close. -/
def budgetClose (s : State) (site : Nat) : State :=
  match (s.facet site).step with
  | none => s
  | some st => budgetStopAt s site (Nat.min (st.release + st.budget) (s.now - 1))

/-- A step of an occurrence failed before an instant. -/
def failedBefore (o : Occ) (t : Nat) : Bool :=
  let before (c : Option Cause) : Bool := c.any fun x => decide (x.stamp < t)
  o.tasks.any fun x => before x.mainCause || before x.chkCause

/-- An occurrence has no stage completion when its window closes, and none of its steps has failed by then (R13, R244). -/
def windowMissed (s : State) (o : Occ) : Bool :=
  let close := tickStart s o.tick + fld (s.entRaw o.entry) 144 16 * 1000
  (o.st == .released || o.st == .waiting) && !(failedBefore o close) && !o.wfault && decide (close ≤ s.now)

/-- `STAGE_WINDOW_CLOSE` (R244): no effect unless the stage has no completion at its window's close. Log entry 53 (DEDUCED). -/
def stageClose (s : State) (e n : Nat) : State :=
  match findOcc s e n with
  | none => s
  | some o => if windowMissed s o then windowFault s e n (tickStart s n + fld (s.entRaw e) 144 16 * 1000 - 1) else s

/-- `STAGE_WINDOW_CLOSE` (R244). -/
def execStageWindowClose (e n : Nat) (s : State) : Res := ok (stageClose s e n)

/-! ## Self-test slots (R246, R247) -/

/-- The next `n` standby sites of a die for self-test, in ascending order from after the one that its last release began with. -/
def testSites (s : State) (d n : Nat) : List Nat :=
  let from_ := match tfind s.sched.testStart d with
    | none => 0
    | some i => i + 1
  (((List.range 72).map fun i => 128 * d + (from_ + i) % 72).filter fun f => isStandby s f && (s.facet f).testing.isNone).take n

/-- A self-test entry runs on its Facets from now to the end of its slot in this tick (R246). -/
def slotRun (s : State) (e : Nat) : State :=
  match s.ent e with
  | none => s
  | some x =>
    let d := entDie x.raw
    let n := s.tickNow
    if entKind x.raw ≠ 2 || !(x.en) || n % s.num 0x2801 0 ≠ entSlot x.raw || !(tickOpened s) || !(ticks s (entSector x.raw) n) || !(s.dieUp d) ||
       overfull s d || s.work.facets.any (fun p => (p.2.testing.map Prod.fst) == some e) then s
    else
      let fs := testSites s d (fld x.raw 160 4)
      let stop := tickStart s n + (fld x.raw 80 16 + fld x.raw 96 16) * 1000
      let s1 := fs.foldl (fun a f => a.modFacet f fun y => { y with testing := some (e, s.now, stop) }) s
      match fs with
      | [] => s1
      | f :: _ => { s1 with sched := { s1.sched with testStart := tput s1.sched.testStart d (f % 128) } }

/-- `SELF_TEST_SLOT_START` (R246): no effect but at the start of the entry's slot, or while a slice switch of the Prism delays it (R154). -/
def slotStart (s : State) (e : Nat) : State :=
  if s.now ≠ tickStart s s.tickNow + fld (s.entRaw e) 80 16 * 1000 || (tfind s.work.switching (entDie (s.entRaw e))).isSome then s else slotRun s e

/-- The self-test entries of a Prism whose slots opened during its slice switch run for what is left of them (R154). -/
def lateSlots (s : State) (d : Nat) : State :=
  (s.sched.entries.filter fun p => entDie p.2.raw == d && decide (tickStart s s.tickNow + fld p.2.raw 80 16 * 1000 ≤ s.now) &&
    decide (s.now < tickStart s s.tickNow + (fld p.2.raw 80 16 + fld p.2.raw 96 16) * 1000)).foldl (fun a p => slotRun a p.1) s

/-- `SELF_TEST_SLOT_START` (R246). -/
def execSelfTestSlotStart (e : Nat) (s : State) : Res := ok (slotStart s e)

/-- One Facet yields at the end of its slot: its progress in ns times MHz is kept, and 480 µs at 1,000 MHz cover the site (R246, R437). -/
def yieldTest (s : State) (f : Nat) : State :=
  match (s.facet f).testing with
  | none => s
  | some (_, begun, stop) =>
    let t := (s.facet f).testNs + (stop - begun) * facetClock s f
    let full := 480000000 ≤ t
    let s1 := s.modFacet f fun x => { x with testing := none, testNs := if full then 0 else t }
    if full then cover s1 f else s1

/-- The slot of a Facet's self-test has ended. -/
def testOver (s : State) (e : Nat) (x : Facet) : Bool :=
  match x.testing with
  | none => false
  | some (k, _, stop) => k == e && decide (stop ≤ s.now)

/-- `SELF_TEST_SLOT_END` (R246): no effect on a Facet before the end of its slot. -/
def slotEnd (s : State) (e : Nat) : State :=
  ((s.work.facets.filter fun p => testOver s e p.2).map Prod.fst).foldl yieldTest s

/-- `SELF_TEST_SLOT_END` (R246). -/
def execSelfTestSlotEnd (e : Nat) (s : State) : Res := ok (slotEnd s e)

/-! ## Commands (R242, R248, R249) -/

/-- The status of a schedule command's body posted from a sector (R248, R249). -/
def schedBody (s : State) (code sec : Nat) (b : BitVec 384) : Nat :=
  let e := fld b 0 10
  if !(onlyFields b [(0, 10), (16, 1)]) || (code == 0xC0 && b.getLsbD 16) then 0x0604
  else match s.ent e with
    | none => 0x0601
    | some x =>
      if entKind x.raw ≠ 0 || entSector x.raw ≠ sec || (code == 0xC0 && !(entSpor x.raw)) then 0x0601
      else if code == 0xC0 && x.armed.isSome then 0x0602
      else 0

/-- The tick whose occurrence a trigger accepted now arms (R242). -/
def armTick (s : State) (r : BitVec 256) : Nat :=
  let f := s.num 0x2801 0
  let base := s.tickNow / f * f + entSlot r
  if s.now < tickStart s base + fld r 80 16 * 1000 then base else base + f

/-- A trigger arms its entry at acceptance (R242). -/
def arm (s : State) (b : BitVec 384) (h : Nat) : State :=
  match s.ent (fld b 0 10) with
  | none => s
  | some x => { s with sched := { s.sched with entries := tput s.sched.entries (fld b 0 10) { x with armed := some (armTick s x.raw, h) } } }

/-- `SCH_TRIGGER` (R242): armed since acceptance, the command waits for the occurrence. -/
def execSchTrigger (h : Nat) (s : State) : Res := ok (runCmd s h 0xC0 fun s i _ => waitOn s i)

/-- `SCH_ENABLE` (R248): at once in CONFIG, else at the next frame-opening tick. -/
def schEnable (s : State) (h : Nat) : State :=
  runCmd s h 0xC1 fun s i x =>
    let e := fld x.body 0 10
    match s.ent e with
    | none => done s i 0x0601 0
    | some y => if entKind y.raw ≠ 0 || entSector y.raw ≠ x.sector then done s i 0x0601 0 else
      let put (z : SchEntry) : State := { s with sched := { s.sched with entries := tput s.sched.entries e z } }
      if s.dev.st = .config then done (put { y with en := x.body.getLsbD 16 }) i 0 0
      else waitOn (put { y with change := y.change ++ [(x.body.getLsbD 16, h)] }) i

/-- `SCH_ENABLE` (R248). -/
def execSchEnable (h : Nat) (s : State) : Res := ok (schEnable s h)

/-- The enable changes that wait take effect at a frame-opening tick (R248). -/
def applyEnables (s : State) : State :=
  s.sched.entries.foldl (fun a p =>
    if p.2.change.isEmpty then a
    else
      let en := (p.2.change.getLast?.map Prod.fst).getD p.2.en
      let a1 := { a with sched := { a.sched with entries := tput a.sched.entries p.1 { p.2 with en := en, change := [] } } }
      p.2.change.foldl (fun b c => finishH b c.2 0 0 b.now) a1) s

end Sys2Proof.Machine
end

