-- ==== Sys2Proof/Machine/Suspects.lean ====
section
/-! DEFINITION. Reference figures (R239, R402, R403), suspect finding (R395, R433), spare bring-ins and moves of tasks (R397, R432, R434,
R532), slice switches (R153, R154), the join's copy (R406), the replay bound (R429), and the debugger (R408-R410). -/

namespace Sys2Proof.Machine

/-! ## Suspect finding (R395, R415, R433) -/

/-- A finding that still runs figures on a site. -/
def findsOn (f : Nat) (x : Finding) : Bool := (x.msite == f && x.mpass.isNone) || (x.csite == f && x.cpass.isNone)

/-- A Facet concludes its figures, for every finding that runs on it (R395, R399). -/
def concludeSite (s : State) (f : Nat) (pass : Bool) : State :=
  let mark (x : Finding) : Finding :=
    if !(findsOn f x) then x
    else { x with mpass := if x.msite = f then some pass else x.mpass, cpass := if x.csite = f then some pass else x.cpass }
  let concluded := (s.safety.findings.filter fun x => findsOn f x && (mark x).mpass.isSome && (mark x).cpass.isSome).map mark
  let s1 := { s with safety := { s.safety with findings := s.safety.findings.map mark } }
  concluded.foldl concludeFinding (s1.modFacet f fun x => { x with finding := none })

/-! ## Reference figures (R239, R395, R402, R403) -/

/-- The start of the reservation that a site is in. -/
def reservedSince (s : State) (f : Nat) : Nat :=
  let l := ((reservations s f s.tickNow).filter fun p => decide (p.1 ≤ s.now) && decide (s.now < p.2)).map Prod.fst
  match (s.facet f).reserve with
  | some (a, e) => if s.now < e then a else lmax l
  | none => lmax l

/-- The time of one figure: 2,500 cycles of the Facet's clock (R402). Log entry 58 (DEDUCED). -/
def figureNs (s : State) (f : Nat) : Nat := ceilDiv 2500000 (facetClock s f)

/-- A suspect-finding figure has run on a site (R395). -/
def findingFigure (s : State) (f : Nat) (pass : Bool) : State :=
  let k := (s.facet f).finding.getD 0
  if !pass then concludeSite (s.count32 0x4005 (dieOf f) 1) f false
  else if k = 7 then concludeSite s f true
  else s.modFacet f fun x => { x with finding := some (k + 1) }

/-- The periodic figure after `n`: from 8 on the cycle holds one that has failed. -/
def nextFigure (n : Nat) (pass : Bool) : Nat := if n % 8 = 7 then 0 else if pass || 8 ≤ n then n + 1 else n + 9

/-- A periodic figure has run on a site (R403); a cycle in which all eight passed covers it (R437). -/
def periodicFigure (s : State) (f : Nat) (pass : Bool) : State :=
  let n := (s.facet f).figure
  let s1 := s.modFacet f fun x => { x with figure := nextFigure n pass }
  if !pass then raiseFault (s1.count32 0x4005 (dieOf f) 1) s1.now (n % 8) 0x08 (dieOf f) f 0x3F none
  else if n = 7 then cover s1 f else s1

/-- The figure that a site runs next: the suspect-finding one that is under way or ordered, or the periodic one (R239, R395, R403). -/
def figureNo (s : State) (f : Nat) (ordered : Bool) : Nat :=
  let x := s.facet f
  if ordered then x.finding.getD 0 else x.figure % 8

/-- The tile that a figure loads (R402); the last two load none. Log entry 150 (DESIGN CHOICE). -/
def figureTile (x : Facet) (k : Nat) : Tile :=
  if 6 ≤ k then x.tile
  else { Tile.zero with fmt := lget [0x1, 0x0, 0x6, 0x9, 0x1, 0x1] k 0x1, k := if k = 1 then 128 else 64, n := 64, w := Config.figureWeights k }

/-- The lines of a figure in the reference area of a Prism's stack (R402). Log entry 150 (DESIGN CHOICE). -/
def figureLines (f k : Nat) : List Nat := Config.figureArea (dieOf f) k

/-- A figure's data can be read clean (R402). -/
def figureClean (s : State) (f k : Nat) : Bool := !((figureLines f k).any (dramBad s))

/-- The Prism controller loads a figure from the reference area of the Prism's stack and runs it in the Lattice (R39, R240): what the cells computed
is in the accumulator store, and local store, registers and sequencer stay as they are. -/
def figureLoad (s : State) (f k : Nat) (out : List (Nat × Word)) : State :=
  (agentReads (s.takeFree 1) (dieOf f) (figureLines f k)).modFacet f fun x =>
    { x with tile := figureTile x k, acc := out.foldl (fun t p => tput t p.1 p.2) [], accPoison := [], accFree := some s.free }

/-- A figure's lines written anew from the hub's firmware copy (R402). -/
def figureReload (s : State) (f k e : Nat) : State :=
  ((figureLines f k).zipIdx.foldl (fun a p => agentWrite a (dieOf f) p.1 (Config.figureCopy k p.2) false)
    (agentReads s (dieOf f) (figureLines f k))).modFacet f fun y => { y with reload := e }

/-- Words of 32 bits folded two at a time. -/
def pairWords : List Nat → List Nat
  | a :: b :: r => (a + 2 ^ 32 * b) :: pairWords r
  | l => l

/-- The MISR of R390 over the accumulator words that a figure wrote, in ascending row and column order (R402). Log entry 58 (DEDUCED). -/
def figureSignature (out : List (Nat × Word)) : Dword :=
  (pairWords ((sortBy Prod.fst out).map fun p => p.2.toNat)).foldl foldWord (BitVec.allOnes 64)

/-- A figure passes: its signature is the golden one, and no cause is raised (R402). -/
def figurePass (k : Nat) (out : List (Nat × Word)) (cause : Bool) : Bool := !cause && figureSignature out == Config.figureGolden k

/-- A slice switch delays what runs on a site: one of its Prism, or of the Prism of the task whose checker it holds (R239). -/
def switchDelays (s : State) (f : Nat) : Bool :=
  (tfind s.work.switching (dieOf f)).isSome ||
  s.work.site.any fun p => p.2 == f && pairedHome s (checkerHome p.1) && (tfind s.work.switching (dieOf (checkerHome p.1))).isSome

/-- `REFERENCE_FIGURE_RUN`: one figure, with the accumulator words that the cells computed and whether a cause is raised. No effect outside a
reservation or while a slice switch delays it, or where the figure no longer fits in it (R239, R395). Data that cannot be read clean is not judged but
reloaded, and the figure runs in the next reservation (R402). -/
def figureRun (s : State) (f : Nat) (out : List (Nat × Word)) (cause : Bool) : State :=
  let x := s.facet f
  match reservedUntil s f with
  | none => s
  | some e =>
    if !(s.operating) || x.run == .running || x.run == .ended || !(s.dieUp (dieOf f)) || switchDelays s f || s.now < x.reload || e < s.now + figureNs s f then s
    else
      let ordered := s.safety.findings.any fun q => findsOn f q && (x.finding.isSome || decide (q.stamp < reservedSince s f))
      let k := figureNo s f ordered
      let pass := figurePass k out cause
      if !(figureClean s f k) then figureReload s f k e
      else if ordered then findingFigure (figureLoad s f k out) f pass else periodicFigure (figureLoad s f k out) f pass

/-- `REFERENCE_FIGURE_RUN` (R239). -/
def execReferenceFigureRun (f : Nat) (out : List (Nat × Word)) (cause : Bool) (s : State) : Res := ok (figureRun s f out cause)

/-! ## Moves of tasks (R397, R432, R434, R532, R577) -/

/-- The homes placed on a site. -/
def homesAt (s : State) (f : Nat) : List Nat := (s.work.site.filter fun p => p.2 == f).map Prod.fst

/-- A Facet site after its task left: what belongs to the site itself stays. -/
def vacated (x : Facet) : Facet := { Facet.empty with timeh := x.timeh, figure := x.figure, reload := x.reload, finding := x.finding, reserve := x.reserve, macs := x.macs }

/-- A task's Facet on a new site: its local store and what belongs to the task come across, no other state of the old site (R45), and the new
site's self-test progress is discarded (R247). -/
def moved (x y : Facet) : Facet :=
  { y with ls := x.ls, lsPoison := x.lsPoison, lsFree := x.lsFree, wb := x.wb, home := x.home, sector := x.sector, placed := x.placed, ring := x.ring,
           prog := x.prog, got := x.got, put := x.put, seqs := x.seqs, checkerHeld := x.checkerHeld, debugLog := x.debugLog, run := .idle, step := none, cause := none,
           finding := none, testNs := 0, testing := none, copying := true }

/-- The task of site `a` moves to standby site `b`, and `a` becomes standby (R397, R531). Log entry 57 (DEDUCED). -/
def moveTask (s : State) (a b : Nat) : State :=
  let x := s.facet a
  let y := s.facet b
  let s1 := (s.setFacet b (moved x y)).setFacet a (vacated x)
  { s1 with work := { s1.work with site := tmap (fun _ v => if v = a then b else v) s1.work.site,
                                   standby := a :: s1.work.standby.filter (· != b) } }

/-- The spare for a site: the standby site of its Prism that is not suspect and lies the fewest hops away (R397). -/
def spareFor (s : State) (f : Nat) : Option Nat :=
  leastBy (hops f) (((List.range 72).map (128 * dieOf f + ·)).filter fun b => isStandby s b && !(suspect s b))

/-- A step runs on a site, which keeps its task there (R45). -/
def stepOn (s : State) (f : Nat) : Bool := (s.facet f).run == .running || (s.facet f).run == .ended

/-- A spare that is ordered waits: its Prism is in SAFE, or a step runs on its site (R45, R432). -/
def spareWaits (s : State) (f : Nat) : Bool := !(s.dieUp (dieOf f)) || stepOn s f

/-- `ROTATION_COPY_COMPLETE` (R532): releases on the target may proceed. -/
def execRotationCopyComplete (f : Nat) (s : State) : Res := ok (s.modFacet f fun x => { x with copying := false })

/-! ## Slice switches (R153-R156) -/

/-- The sites that hold the copies of a task: the main copy's, and while mirrored the checker's, for which the Boolean is true. -/
def copySites (s : State) (h : Nat) : List (Nat × Bool) :=
  (s.siteOf h, false) :: if mirrored s h then [(s.siteOf (checkerHome h), true)] else []

/-- The volatile runs of a Prism's resident slice are saved to its area (R153, R156). -/
def saveSlice (s : State) (d : Nat) : State :=
  (s.work.tasks.filter fun p => dieOf p.1 == d).foldl (fun a p =>
    (copySites a p.1).foldl (fun b c => copySave b (b.facet c.1) p.2 (residentSlice b p.2) c.2) a) s

/-- The runs of slice `j` of a task are brought onto its sites (R153). -/
def loadSlice (s : State) (t : Task) (j : Nat) : State :=
  (copySites s t.home).foldl (fun a c =>
    let g (f : Facet) : Facet := copyLoad a (copyLoad a f t j false c.2 false) t j true c.2 false
    (agentReads a (dieOf c.1) (copyReads a t j false c.2 false ++ copyReads a t j true c.2 false)).modFacet c.1 g) s

/-- Slice `j` of a Prism is resident (R153, R154, R239): reservations that opened since the switch
began run from now, one after the other, and self-test slots for what is left of them. Log entry 61
(DEDUCED). -/
def switchIn (s : State) (d j : Nat) : State :=
  let ts := s.work.tasks.filter fun p => dieOf p.1 == d
  let s1 := ts.foldl (fun a p => loadSlice a p.2 j) s
  let s2 := { s1 with work := { s1.work with switching := tdel s1.work.switching d, switchFrom := tdel s1.work.switchFrom d, slice := tput s1.work.slice d j } }
  let from_ := tget s.work.switchFrom d s.tickNow
  let late (f : Nat) : List (Nat × Nat) :=
    (match (s.facet f).reserve with
      | some (a, e) => if tickStart s from_ < e then [(a, e)] else []
      | none => []) ++
    ((List.range (s.tickNow + 1 - from_)).flatMap fun i => reservations s f (from_ + i)).filter fun p => decide (p.1 ≤ s.now)
  let sites := (((List.range 72).map (128 * d + ·)) ++ (ts.filter fun p => pairedHome s p.1).map fun p => s.siteOf (checkerHome p.1))
  lateSlots (sites.foldl (fun a f =>
    let len := lsum (fun p => p.2 - p.1) (late f)
    if len = 0 then a else a.modFacet f fun x => { x with reserve := some (s.now, s.now + len) }) s2) d

/-- A slice switch of a Prism, where one is under way, ends. -/
def switchDone (s : State) (d : Nat) : State :=
  match tfind s.work.switching d with
  | none => s
  | some j => switchIn s d j

/-- `SLICE_SWITCH_COMPLETE` (R154). -/
def execSliceSwitchComplete (d : Fin 4) (s : State) : Res := ok (switchDone s d.val)

/-- A step of the resident slice of a Prism waits for its replay (R155). -/
def replayPends (s : State) (d : Nat) : Bool :=
  s.sched.occs.any fun o => (o.st == .withheld || o.st == .replayOrdered || o.st == .replaying) && entDie (s.entRaw o.entry) == d

/-- The slice that a Prism's plan names for this tick. -/
def planned (s : State) (d : Nat) : Nat := dieSlice s d (s.tickNow % s.num 0x2801 0)

/-- The plan of a Prism calls for a switch at this boundary (R153, R155). -/
def switchDue (s : State) (d : Nat) : Bool :=
  planned s d != tget s.work.slice d 0 && (tfind s.work.switching d).isNone && !(replayPends s d) && (planOf s d).isSome

/-- The outgoing slices of the switches that are due are saved before any task moves (R153, R156). -/
def saveSlices (s : State) : State := ((List.range 4).filter (switchDue s)).foldl saveSlice s

/-- The switches that the plans call for at a boundary begin (R153, R155). -/
def startSwitches (s : State) : State :=
  ((List.range 4).filter (switchDue s)).foldl (fun a d => { a with work := { a.work with switching := tput a.work.switching d (planned s d), switchFrom := tput a.work.switchFrom d s.tickNow } }) s

/-! ## Joining (R406) -/

/-- A line copied to its mirror, as master 8 (R291, R406); poison goes with it (R306). -/
def mirrorLine (s : State) (o : Nat) : State :=
  let a := agentLine (settleOwn s (stackOf o) [o]) (stackOf o) o false
  agentWrite a (stackOf o) (mirrorOf o) (dramRead a o 64) (dramBad a o)

/-- The lines that a join copies of slice `i` of a task: the device's copies of its runs, and its committed carry buffer (R406 step 1). -/
def joinLines (s : State) (t : Task) (i : Nat) : List Nat :=
  let sl := sliceAt t i
  ((copyPlaces s t i false ++ copyPlaces s t i true).map Prod.snd) ++ match sl.carry with
    | none => []
    | some c => (List.range (carryLines c).length).map (carryAt c sl.bIsCommitted)

/-- The constant runs and the committed carry buffers of paired tasks copied to their mirrors (R406 step 1). Log entry 60 (DEDUCED). -/
def copyMirrors (s : State) : State :=
  (s.work.tasks.filter fun p => pairedHome s p.1).foldl (fun a p =>
    ((List.range p.2.slices.length).flatMap (joinLines s p.2)).foldl mirrorLine a) s

/-- `JOIN_COPY_COMPLETE` (R406): the trial tick is the one that opens at the next boundary. -/
def execJoinCopyComplete (s : State) : Res := ok (match s.safety.join with
  | .copying _ => { s with safety := { s.safety with join := .trial (s.tickNow + 1) } }
  | _ => s)

/-! ## The replay bound (R429) -/

/-- `REPLAY_BOUND_EXPIRY` (R429): no effect before the bound, or once every replay of the occurrence has its outcome. Log entry 55 (DEDUCED). -/
def boundExpiry (s : State) (e n : Nat) : State :=
  match findOcc s e n with
  | none => s
  | some o =>
    let open_ := o.st == .withheld || o.st == .replayOrdered || o.st == .replaying
    let hs := (o.tasks.filter fun t => t.replay && !t.accepted && !t.failed).map TaskOut.home
    if !open_ || hs.isEmpty || s.now < o.heldAt + 2 * s.tickNs then s else hs.foldl (fun a h => failReplay a e n h s.now) s

/-- `REPLAY_BOUND_EXPIRY` (R429). -/
def execReplayBoundExpiry (e n : Nat) (s : State) : Res := ok (boundExpiry s e n)

/-! ## Debugging (R408-R410) -/

/-- A site holds the checker copy of its task (R408). -/
def checkerSite (s : State) (f : Nat) : Bool := (s.facet f).placed && s.siteOf (s.facet f).home != f

/-- What a site's debug module answers its debugger. -/
def debugAnswer (s : State) (x : Output) : State := { s with host := { s.host with out := s.host.out ++ [x] } }

/-- `DEBUG_HALT` (R408): the checker copy is unavailable. -/
def execDebugHalt (f : Nat) (s : State) : Res :=
  ok (if checkerSite s f then debugAnswer s (.debugUnavailable f) else s.modFacet f fun x => { x with halted := true })

/-- A site holds the main copy of a task whose steps run paired, so that the debugger's writes to it are logged: those between steps belong to the
next one (R410). Log entry 62 (DEDUCED). -/
def debugLogs (s : State) (f : Nat) : Bool :=
  let x := s.facet f
  if stepOn s f then (x.step.map Step.paired).getD false else x.placed && pairedHome s x.home && coupled s

/-- `DEBUG_LOCAL_STORE_WRITE` (R410): of 1 to 64 bytes; a write to a paired main copy is logged, and refused with an error when its log is full. -/
def debugWrite (s : State) (f addr : Nat) (data : List Byte) : State :=
  if data.isEmpty || 64 < data.length || 0x300000 < addr + data.length then s
  else if checkerSite s f then debugAnswer s (.debugUnavailable f)
  else if !(debugLogs s f) then s.modFacet f fun x => lsWrite x addr data
  else if 64 ≤ (s.facet f).debugLog.length then debugAnswer s (.debugError f)
  else s.modFacet f fun x => { lsWrite x addr data with debugLog := x.debugLog ++ [(addr, data)] }

/-- `DEBUG_LOCAL_STORE_WRITE` (R410). -/
def execDebugLocalStoreWrite (f addr : Nat) (data : List Byte) (s : State) : Res := ok (debugWrite s f addr data)

end Sys2Proof.Machine
end

