-- ==== Sys2Proof/Machine/Safe.lean ====
section
/-! DEFINITION. Scopes in SAFE (R422-R426): what stops when a restart begins, which wires and outputs it asserts, what a whole-device
restart loses (R447, R554), and the restore of a Prism's tasks (R425, R430). -/

namespace Sys2Proof.Machine

/-- The Prisms of a scope. -/
def scopeDies : Scope → List Nat
  | .prism d => [d.val]
  | .half h => [2 * h.val, 2 * h.val + 1]
  | .device => [0, 1, 2, 3]

/-- A scope, by number, restarts and is not ready yet (R425). -/
def unready (s : State) (i : Nat) : Bool := (s.scope i).st == 1 && !(s.scope i).ready

/-- A scope lies in one that is restarting (R422). -/
def restarting (s : State) : Scope → Bool
  | .prism d => s.dev.st == .safe || s.dev.st == .boot || unready s (4 + halfOf d.val) || unready s d.val
  | .half h => s.dev.st == .safe || s.dev.st == .boot || unready s (4 + h.val)
  | .device => s.dev.st == .safe || s.dev.st == .boot

/-! ## Steps stop (R423) -/

/-- An entry has a copy on one of some Prisms. -/
def entTouches (s : State) (dies : List Nat) (r : BitVec 256) : Bool :=
  dies.contains (entDie r) || (entPair r && s.num 0x4000 0 == 0 && dies.contains (entDie r ^^^ 2))

/-- The sites whose steps stop with a scope, those of the other copies among them. -/
def stopSites (s : State) (dies : List Nat) : List Nat :=
  (s.work.facets.filter fun p => (p.2.run == .running || p.2.run == .ended) && match p.2.step with
    | some st => entTouches s dies (s.entRaw st.entry)
    | none => false).map Prod.fst

/-- The tasks of a running occurrence that had not ended are abandoned; the others are committed as usual (R128, R423). -/
def abandonRun (s : State) (o : Occ) : State :=
  let keep := o.tasks.filter (taskEnded o)
  let gone := (o.tasks.filter fun t => !(taskEnded o t)).map TaskOut.home
  if gone.isEmpty then s
  else
    let s1 := gone.foldl (fun a h => releaseViewOf a o.entry o.tick h) (settle s o.entry o.tick 0x0110 (BitVec.ofNat 32 (firstCauseOf o)))
    modOcc s1 o.entry o.tick fun p => { p with tasks := keep, stepFailed := false, st := if keep.isEmpty then .failed else .finished }

/-- An occurrence of a scope that enters SAFE (R423): a due one is neither released nor shed, a running one is abandoned, and so is one
that is withheld or replayed. Log entry 65 (DEDUCED). -/
def abandon (s : State) (o : Occ) : State :=
  match o.st with
  | .waiting =>
    let s1 := match o.trigger with
      | none => s
      | some h => finishH s h 0x0603 (BitVec.ofNat 32 o.tick) s.now
    { s1 with sched := { s1.sched with occs := s1.sched.occs.filter fun p => !(p.entry == o.entry && p.tick == o.tick) } }
  | .released => abandonRun s o
  | .withheld => ((o.tasks.filter fun t => t.replay && !t.accepted && !t.failed).map TaskOut.home).foldl (fun a h => failTask a o.entry o.tick h) s
  | .replayOrdered => ((o.tasks.filter fun t => t.replay && !t.accepted && !t.failed).map TaskOut.home).foldl (fun a h => failTask a o.entry o.tick h) s
  | .replaying => ((o.tasks.filter fun t => t.replay && !t.accepted && !t.failed).map TaskOut.home).foldl (fun a h => failTask a o.entry o.tick h) s
  | _ => s

/-- An occurrence has a step, or the replay of one, that a scope entering SAFE abandons (R241). -/
def toAbandon (o : Occ) : Bool :=
  match o.st with
  | .released => o.tasks.any fun t => !(taskEnded o t)
  | .withheld | .replayOrdered | .replaying => o.tasks.any fun t => t.replay && !t.accepted && !t.failed
  | _ => false

/-- The handles of the occurrences that a scope entering SAFE abandons complete with `FX_STOPPED`, whatever failed first (R241, R423). -/
def stopSettle (s : State) (dies : List Nat) : State :=
  (s.sched.occs.filter fun o => entTouches s dies (s.entRaw o.entry) && toAbandon o).foldl (fun a o => settle a o.entry o.tick 0x0110 0x0C) s

/-- Every step of some Prisms stops with `FX_STOPPED` (R423), the handles of its occurrences first, and the self-tests and findings of their sites go; a
spare that is ordered waits (R432, R437). -/
def stopDies (s : State) (dies : List Nat) : State :=
  let s1 := (stopSites s dies).foldl (fun a f => raiseAt a f 0x0C (a.facet f).pc 0) (stopSettle s dies)
  let s2 := (s1.sched.occs.filter fun o => entTouches s dies (s.entRaw o.entry)).foldl (fun a o => match findOcc a o.entry o.tick with
    | some p => abandon a p
    | none => a) s1
  { s2 with work := { s2.work with facets := tmap (fun f x => if dies.contains (dieOf f) then { x with testing := none } else x) s2.work.facets },
            safety := { s2.safety with
      findings := s2.safety.findings.filter fun x => !(dies.contains (dieOf x.msite) || dies.contains (dieOf x.csite)) } }

/-- A scope stops: its steps, and the line requests that its Prisms have made, carry writes among them; those of other dies fail with the links (R331).
Log entry 64 (DEDUCED). -/
def stopScope (s : State) (dies : List Nat) : State := loseLines (stopDies s dies) fun r => dies.contains r.die

/-! ## Retirement and spares (R397, R432, R434, R577) -/

/-- A Prism retires (R434, R577): its steps and self-tests stop, and no lap is kept for it. -/
def retirePrism (s : State) (d : Nat) : State :=
  let s1 := stopDies s [d]
  noteDegraded { s1 with dev := { s1.dev with scopes := lmod s1.dev.scopes d fun c => { c with st := 2 } },
                         work := { s1.work with standby := s1.work.standby.filter fun f => dieOf f != d },
                         safety := { s1.safety with lapStart := tdel s1.safety.lapStart d } }

/-- A spare brought in for a suspect site: the copy of the task is restored there (R151, R397, R398); with no spare left the Prism
retires (R434). -/
def bringIn (s : State) (f : Nat) : State :=
  match spareFor s f with
  | none => retirePrism (raiseFault s s.now 0 0x0B (dieOf f) f 0x3F none) (dieOf f)
  | some b =>
    let hs := homesAt s f
    let s1 := moveTask s f b
    match hs.head? with
    | none => s1
    | some k =>
      let checker := (tfind s.work.tasks k).isNone
      let h := if checker then checkerHome k else k
      let r := restore s1 b h checker (pairedHome s h && coupled s)
      if r.2 then stateLost r.1 h else r.1

/-- Every spare that is ordered is brought in, in step 5 of R38 (R397); one of a retired Prism is not needed. -/
def bringSpares (s : State) : State :=
  let l := (sortBy id s.safety.spares).filter fun f => (s.scope (dieOf f)).st != 2
  (l.filter fun f => !(spareWaits s f)).foldl (fun a f => if (a.scope (dieOf f)).st == 2 then a else bringIn a f)
    { s with safety := { s.safety with spares := l.filter (spareWaits s) } }

/-! ## Restarts (R422-R426) -/

/-- A scope enters SAFE at this instant; a retired Prism stays retired (R577). -/
def scopeIn (s : State) (i : Nat) : State :=
  { s with dev := { s.dev with scopes := lmod s.dev.scopes i fun c => if c.st = 2 then c else { st := 1, since := s.now, ready := false } } }

/-- A restart of a scope is counted (R441). -/
def countRestart (s : State) (i : Nat) : State := s.setNum 0x4040 i (Nat.min 0xFFFF (s.num 0x4040 i + 1))

/-- The links of a die that is reset stop (R323, R331). Log entry 64 (DEDUCED). -/
def cutLinks (s : State) (seat : Nat) : State :=
  ((List.range 14).filter fun l => linkUp s l && ((linkEnds l).1 == seat || (linkEnds l).2 == seat)).foldl linkStop s

/-- The flash write of a hub that restarts stops, its command ends as torn down, and its flash holds no valid image (R224, R501). -/
def stopFlash (s : State) (hub : Nat) : State :=
  match (lget s.plant.hubs hub HubBoot.fresh).writing with
  | none => s
  | some h =>
    let s1 := { s with plant := { s.plant with hubs := lmod s.plant.hubs hub fun x => { x with writing := none, flash := some [] } } }
    let s2 := if s1.holds h && (s1.slot (slotOf h)).st == .inflight then
        (dependants s1 h).foldl (fun b j => finish (unarmSlot b j) j 0x010B 0 b.now) (tearSlot s1 (slotOf h))
      else s1
    { s2 with cmds := { s2.cmds with torn := s2.cmds.torn.filter fun p => p.1 != h } }

/-- The hub of a transmit place: ports 0-3, then the Ethernet queues. -/
def stagedHub (place : Nat) : Nat := if place < 4 then place / 2 else (place - 4) / 8

/-- What a hub's own restart ends at once: its contexts (R223), its flash write (R501), the countersigned writes that wait (R449), its binding's open
instants (R379) and its frames with what its receive buffer held. -/
def stopHub (s : State) (hub : Nat) : State :=
  let s0 := stopFlash (tearDownIf s fun c => c.hub == hub) hub
  -- an engine that is reset finishes nothing
  let s1 := { s0 with cmds := { s0.cmds with torn := s0.cmds.torn.filter fun p => p.2.hub != hub } }
  { s1 with host := { s1.host with i3c := lset s1.host.i3c hub { I3c.fresh with hotJoin := true },
                                   twoK := s1.host.twoK.filter (fun w => w.pending.isNone), pdus := s1.host.pdus.filter (fun p => p.1 / 16 != hub),
                                   txBusy := s1.host.txBusy.filter (fun p => p.1 / 8 != hub), leaving := s1.host.leaving.filter (fun x => x.hub != hub),
                                   meters := s1.host.meters.filter (fun p => p.1 / 32 != hub), frer := s1.host.frer.filter (fun p => p.1 / 64 != hub),
                                   bridgeSeq := s1.host.bridgeSeq.filter (fun p => p.1 / 16 != hub), imsic := s1.host.imsic.filter (fun p => p.1 / 64 != hub),
                                   staged := s1.host.staged.filter (fun p => stagedHub p.1 != hub) },
            sense := { s1.sense with instants := s1.sense.instants.filter (fun i => i.b != hub), inbuf := s1.sense.inbuf.filter (fun l => l.hub != hub),
                                     frames := s1.sense.frames.filter (fun p => nbits p.2.raw 61 1 != hub),
                                     closing := s1.sense.closing.filter (fun p => nbits p.2.raw 61 1 != hub) },
            plant := { s1.plant with hubs := lmod s1.plant.hubs hub fun x => { x with phase := 0, status := 0 } } }

/-- A Prism restart begins (R423, R424, R335): its steps stop, `MSAFE` of its half and `PRST_N` are asserted. -/
def restartPrism (s : State) (d : Nat) : State :=
  let s1 := cutLinks (stopScope s [d]) d
  let s2 := countRestart (scopeIn s1 d) d
  let s3 := assertPrst s2 d
  noteDegraded { s3 with dev := { s3.dev with msafe := lset s3.dev.msafe (halfOf d) true } }

/-- A half restart begins (R423-R426, R335, R25); while coupled the surviving Meridian splits the device, and the main copies of the
half wait for the join. -/
def restartHalf (s : State) (h : Nat) : State :=
  let joined := s.num 0x4000 0 == 0 && s.operating
  let s1 := [2 * h, 2 * h + 1, 4 + h].foldl cutLinks (stopHub (stopScope s [2 * h, 2 * h + 1]) h)
  let s2 := countRestart ([2 * h, 2 * h + 1, 4 + h].foldl scopeIn s1) (4 + h)
  let s3 := assertPrst (assertPrst (if h = 1 then assertGrst s2 else s2) (2 * h)) (2 * h + 1)
  noteDegraded { s3 with dev := { s3.dev with msafe := lset s3.dev.msafe h true },
                         safety := { s3.safety with mode := if joined then some 1 else s3.safety.mode,
                                                    hold := if joined then [h] else s3.safety.hold.filter (· == h) } }

/-- A dictionary index whose value survives a whole-device restart (R428, R431, R447, R463, R554); `INT_PPR_LIST` until the training that
uses it (R312). -/
def keepsIndex (i : Nat) : Bool :=
  i == 0x1102 || i == 0x1104 || i == 0x3805 || i == 0x4040 || i == 0x4042 || i == 0x4043 || i == 0x4045 || (decide (0x4050 ≤ i) && decide (i ≤ 0x40FF)) ||
  i == 0x4400 || i == 0x4403 || (decide (0x4420 ≤ i) && decide (i ≤ 0x4422)) ||
  (decide (0x5000 ≤ i) && decide (i ≤ 0x5003))

/-- What a whole-device restart leaves: fuses, Gnomon time, fault log, suspect sets, record rings, key slots, pending repairs, the temperatures and
flows that are measured, and what the device has sent (R428, R431, R463, R505, R544, R569). A Prism with a ninth suspect is retired (R577). Everything
else is as after leaving OFF; stack contents go at training (R312). -/
def wiped (s : State) : State :=
  let z := State.reset
  let scopes := (List.range 6).map fun i => if (s.scope i).st = 2 || (decide (i < 4) && overfull s i) then { st := 2, since := (s.scope i).since, ready := false } else { st := 1, since := s.now, ready := false }
  { z with
    pending := s.pending, now := s.now, id := s.id, free := s.free,
    dev := { s.dev with prst := z.dev.prst, mrst := z.dev.mrst, grst := true, msafe := [true, true], mhb := [false, false],
                        degrading := s.dev.degrading.filter (· == coolantThree), merFault := z.dev.merFault, scopes := scopes, kxpid := z.dev.kxpid,
                        lowAt := [0, 1, 2, 3, 6].map fun k => (k, s.now) },
    mem := { z.mem with dram := s.mem.dram, dramPoison := s.mem.dramPoison, repair := s.mem.repair, scrubs := s.mem.scrubs.filter fun p => p.1 < 4 },
    safety := { z.safety with faults := s.safety.faults, taken := s.safety.taken },
    host := { z.host with num := s.host.num.filter fun p => keepsIndex (p.1 / 256), oct := s.host.oct.filter fun p => keepsIndex (p.1 / 256),
                          rings := s.host.rings, out := s.host.out,
                          i3c := (List.range 2).map fun h => { I3c.fresh with hotJoin := (lget s.plant.hubs h HubBoot.fresh).phase != 0 } },
    plant := { z.plant with hubs := s.plant.hubs.map fun x => { x with phase := 0, status := 0, image := none, placeKey := none, recovery := [], writing := none, flash := if x.writing.isSome then some [] else x.flash },
                            keys := s.plant.keys, power := s.plant.power, setpoint := s.plant.setpoint, railBad := s.plant.railBad, caps := s.plant.caps,
                            droop := s.plant.droop, spots := s.plant.spots, trips := s.plant.trips, held := s.plant.held,
                            coolant := s.plant.coolant, gated := s.plant.gated, last := s.plant.last, taps := s.plant.taps } }

/-- A whole-device restart begins (R6, R423, R424, R427, R449): every step stops, every context goes, and the device is in SAFE until a
die of it leaves reset. In BOOT it stays there (R4). -/
def restartDevice (s : State) : State :=
  let s1 := stopFlash (stopFlash (tearDownIf (stopScope s [0, 1, 2, 3]) fun _ => true) 0) 1
  let s2 := s1.count32 0x1104 0 1
  wiped (if s2.dev.st = .boot then s2 else setDevState s2 .safe)

/-- Every die is in reset, on every reset wire (R539, R570). -/
def resetAll (s : State) : State :=
  let s1 := stopHub (stopHub ((List.range 7).foldl cutLinks s) 0) 1
  let s2 := [0, 1, 2, 3].foldl assertPrst (assertGrst s1)
  { s2 with dev := { s2.dev with mrst := List.replicate 4 true } }

/-- A restart of a scope begins, unless it lies in one that is restarting already (R422). -/
def restart (s : State) (sc : Scope) : State :=
  if restarting s sc then s
  else match sc with
    | .prism d => restartPrism s d.val
    | .half h => restartHalf s h.val
    | .device => restartDevice s

/-! ## Restore (R425, R430) -/

/-- A task has lost its state: it is to start anew (R430). -/
def markInitial (s : State) (h : Nat) : State :=
  match tfind s.work.tasks h with
  | none => s
  | some t => { s with work := { s.work with tasks := tput s.work.tasks h { t with initial := true } } }

/-- A copy of a task on its site as a restart restores it: from its committed carry set, or from its initial contents where the task has
lost its state. -/
def restoreCopy (s : State) (h : Nat) (checker : Bool) : State :=
  let k := if checker then checkerHome h else h
  let s1 := placeTask s (s.siteOf k) k
  match tfind s1.work.tasks h with
  | none => s1
  | some t =>
    if t.initial then s1
    else
      let r := restore s1 (s1.siteOf k) h checker (pairedHome s1 h && coupled s1)
      if r.2 then placeTask (markInitial (stateLost r.1 h) h) (s1.siteOf k) k else r.1

/-- A task that has lost its state starts anew from its initial carry contents (R430). -/
def rebuild (s : State) (h : Nat) : State :=
  match tfind s.work.tasks h with
  | none => s
  | some t =>
    if !t.initial then s
    else
      let s1 := (List.range t.slices.length).foldl (fun a i => writeInitial a t i (mirrored a h)) s
      match tfind s1.work.tasks h with
      | none => s1
      | some u => { s1 with work := { s1.work with tasks := tput s1.work.tasks h { u with initial := false } } }

/-- The tasks of a Prism restored on its sites, the checker copies while coupled (R398, R425, R578). -/
def restoreDie (s : State) (d : Nat) : State :=
  if overfull s d then s
  else
    let mains := (s.work.tasks.map Prod.fst).filter fun h => dieOf h == d
    let chks := if coupled s then (s.work.tasks.map Prod.fst).filter fun h => dieOf h == d ^^^ 2 && pairedHome s h else []
    let s1 := chks.foldl (fun a h => restoreCopy a h true) (mains.foldl (fun a h => restoreCopy a h false) s)
    mains.foldl rebuild s1

end Sys2Proof.Machine
end

