-- ==== Sys2Proof/Machine/Meridian.lean ====
section
/-! DEFINITION. The Meridians (R417-R434): fault records on their routes, the response of each code, absorbed and superseding faults,
the fault log, and the faults of comparators and Gnomons. -/

namespace Sys2Proof.Machine

/-! ## Responses (R420-R422, R540) -/

/-- What a response does. -/
inductive Act where
  | restart (sc : Scope)
  | retire (f : Nat)
  | noSpare (d : Nat)
  | holdScope (i : Nat)
  | resetGuest
  deriving DecidableEq, Repr

/-- The half whose Meridian orders an act; none where either may (R422). -/
def actHalf : Act → Option Nat
  | .restart (.prism d) => some (halfOf d.val)
  | .restart (.half h) => some h.val
  | .restart .device => none
  | .retire f => some (halfOf (dieOf f))
  | .noSpare d => some (halfOf d)
  | .holdScope i => some (if i < 4 then halfOf i else i - 4)
  | .resetGuest => some 1

/-- A restart of a Prism, by number. -/
def prismAct (d : Nat) : Act := .restart (.prism ⟨d % 4, Nat.mod_lt _ (by decide)⟩)

/-- A restart of the half of a seat; of the device for the guest or no seat. -/
def halfAct (seat : Nat) : Act := if seat < 6 then .restart (.half ⟨halfOf seat % 2, Nat.mod_lt _ (by decide)⟩) else .restart .device

/-- A Prism restart for a Prism's seat, a half restart for a hub's (R420). -/
def seatAct (seat : Nat) : Act := if seat < 4 then prismAct seat else halfAct seat

/-- Codes of a fault record (R418). -/
def fCode (r : BitVec 512) : Nat := fld r 376 8
/-- Seat of a fault record. -/
def fSeat (r : BitVec 512) : Nat := fld r 373 3
/-- Site of a fault record. -/
def fSite (r : BitVec 512) : Nat := fld r 364 9
/-- Detail of a fault record. -/
def fDetail (r : BitVec 512) : Nat := fld r 384 32
/-- Stamp of a fault record. -/
def fStamp (r : BitVec 512) : Nat := fld r 448 64
/-- An injected fault: it has no response. -/
def fInj (r : BitVec 512) : Bool := r.getLsbD 347

/-- The records of the mismatch log, the newest first (R415). -/
def mismatches (s : State) : List Nat := (List.range 32).map fun i => ofBytes (s.octs 0x4010 ((s.num 0x4011 0 + 31 - i) % 32))

/-- What suspect finding located for the replay that a `FLT_REPLAY_FAIL` names: the outcome of the newest concluded finding of that
occurrence (R395, R415). Log entry 174 (DEDUCED). -/
def located (s : State) (r : BitVec 512) : Option Nat :=
  let homes := homesAt s (fSite r)
  let ofTask (m : Nat) : Bool := nbits m 278 10 == fDetail r && homes.contains (nbits m 269 9) && (s.sched.occs.any fun o =>
    o.entry == fDetail r && o.tick % 2 ^ 32 == nbits m 288 32 && o.tasks.any fun t => t.home == nbits m 269 9 && t.failed)
  ((mismatches s).find? fun m => ofTask m && decide (1 ≤ nbits m 248 3) && decide (nbits m 248 3 ≤ 4)).map fun m => nbits m 248 3

/-- The Prisms that hold a suspect copy of the task whose replay failed; both its Prisms where none is located (R420). -/
def replayPrisms (s : State) (r : BitVec 512) : List Nat :=
  let d := fSeat r % 4
  if !(entPair (s.entRaw (fDetail r)) && s.num 0x4000 0 == 0) then [d]
  else match located s r with
    | some 2 => [d]
    | some 3 => [d ^^^ 2]
    | _ => [d, d ^^^ 2]

/-- A memory-controller fault of a Prism that still restarts for an earlier one (R420). Log entry 69 (DEDUCED). -/
def recurs (s : State) (d : Nat) (r : BitVec 512) : Bool := (tfind s.safety.memctl d).any fun t => decide (t < fStamp r)

/-- The response of a link that goes down (R421). -/
def linkActs (s : State) (l : Nat) : Nat × List Act :=
  if l < 4 then (4, [prismAct (linkEnds l).1, prismAct (linkEnds l).2])
  else if l < 12 then (4, [prismAct (l % 4)])
  else if l = 12 then (6, [.restart .device])
  else (1, if s.chord.fw.held then [] else [.resetGuest])

/-- The response of a thermal fault (R540). -/
def thermalActs (seat site detail : Nat) : Nat × List Act :=
  match detail with
  | 1 => (4, [prismAct seat])
  | 2 => (5, [halfAct seat])
  | 3 => (4, [prismAct seat])
  | 5 => if site = 0x1FF then (1, []) else (3, [.retire site])
  | 6 => if seat < 4 then (4, [prismAct seat]) else if seat < 6 then (5, [halfAct seat]) else (6, [.restart .device])
  | _ => (6, [])

/-- The response of a PLL's loss of lock (R32, R420). -/
def pllActs (domain : Nat) : Nat × List Act :=
  if domain < 20 then (4, [prismAct (domain / 5)])
  else if domain < 38 then (5, [halfAct (domainSeat domain)])
  else if domain = 38 then (1, [.resetGuest])
  else (1, [])

/-- The response of a fault record (R420): `resp`, and what it does. -/
def response (s : State) (r : BitVec 512) : Nat × List Act :=
  let seat := fSeat r
  if fInj r then (1, [])
  else match fCode r with
  | 0x01 => (0, []) | 0x02 => (0, []) | 0x03 => (0, []) | 0x04 => (0, [])
  | 0x06 => (4, (replayPrisms s r).map prismAct)
  | 0x07 => (4, if pairedHome s (fDetail r) && coupled s then [prismAct (dieOf (fDetail r)), prismAct (dieOf (fDetail r) ^^^ 2)]
                else [prismAct (dieOf (fDetail r))])
  | 0x08 => (3, [.retire (fSite r)]) | 0x09 => (3, [.retire (fSite r)]) | 0x0A => (3, [.retire (fSite r)])
  | 0x0B => (2, [.noSpare seat])
  | 0x0C => (2, [])
  | 0x10 => (4, [prismAct seat, prismAct (seat ^^^ 2)])
  | 0x11 => if seat < 6 then (if seat < 4 then 4 else 5, [seatAct seat]) else (1, [])
  | 0x12 => if recurs s seat r then (6, [.restart .device]) else (4, [prismAct seat])
  | 0x14 => pllActs (fld r 358 6)
  | 0x15 => linkActs s (fDetail r)
  | 0x17 => (5, [halfAct seat])
  | 0x18 => (6, [.restart .device])
  | 0x19 => (5, [])
  | 0x1A => thermalActs seat (fSite r) (fDetail r)
  | 0x1B => (2, [.holdScope seat])
  | _ => (1, [])

/-- A fault lies inside a scope that is restarting, and its response reaches no further (R422). -/
def absorbed (s : State) (r : BitVec 512) (resp : Nat) (acts : List Act) : Bool :=
  let scopes := acts.filterMap fun a => match a with
    | .restart sc => some sc
    | _ => none
  let here : Scope := if fSeat r < 4 then .prism ⟨fSeat r % 4, Nat.mod_lt _ (by decide)⟩
                      else if fSeat r < 6 then .half ⟨halfOf (fSeat r) % 2, Nat.mod_lt _ (by decide)⟩ else .device
  if resp = 1 || resp = 2 || fCode r = 0x19 || (fCode r = 0x1A && scopes.isEmpty && resp = 6) then false
  else if scopes.isEmpty then restarting s here
  else scopes.all (restarting s)

/-- The Prisms that an act restarts or changes a site of. -/
def actDies : Act → List Nat
  | .restart sc => scopeDies sc
  | .retire f => [dieOf f]
  | _ => []

/-- A fault of the same stamp is known whose response is of a larger scope around this one's, which alone is applied (R422). Log entry 178 (DEDUCED). -/
def outranked (s : State) (r : BitVec 512) (resp : Nat) (acts : List Act) : Bool :=
  let dies := acts.flatMap actDies
  !dies.isEmpty && s.safety.faults.any fun q => fStamp q == fStamp r && decide (resp < (response s q).1) &&
    dies.all ((response s q).2.flatMap actDies).contains

/-! ## What a response does -/

/-- A site is retired (R432): recorded as suspect, its spare ordered for the next boundary where it is active, or its Prism reported
where none is left (R434). -/
def retireSite (s : State) (f : Nat) : State :=
  let s1 := orderSpare s f
  if overfull s1 (dieOf f) && (s1.scope (dieOf f)).st ≠ 2 then
    retirePrism (raiseFault s1 s1.now 0 0x0B (dieOf f) f 0x3F none) (dieOf f)
  else s1

/-- The scope in which a die restarts does not rejoin (R436): its half with both Prisms where that restarts or the die is a hub. -/
def holdScope (s : State) (seat : Nat) : State :=
  let h := halfOf seat
  let outs := if 4 ≤ seat || unready s (4 + h) then [2 * h, 2 * h + 1, 4 + h] else [seat]
  let hold (p : ScopeSt × Nat) : ScopeSt := if outs.contains p.2 && p.1.st != 2 then { p.1 with st := 3, ready := false } else p.1
  noteDegraded { s with dev := { s.dev with scopes := s.dev.scopes.zipIdx.map hold } }

/-- A Prism restarts for a memory-controller fault: its stamp is kept until the Prism is ready (R420). -/
def noteMemctl (s : State) (r : BitVec 512) (sc : Scope) : State :=
  match sc with
  | .prism d => if fCode r = 0x12 then { s with safety := { s.safety with memctl := tput s.safety.memctl d.val (fStamp r) } } else s
  | _ => s

/-- One act of a response. -/
def act (s : State) (r : BitVec 512) : Act → State
  | .restart sc => noteMemctl (restart (if fCode r = 0x07 then markInitial s (fDetail r) else s) sc) r sc
  | .retire f => if validSite f then retireSite s f else s
  | .noSpare d => if (s.scope d).st ≠ 2 then retirePrism (if validSite (fSite r) then markSuspect s (fSite r) else s) d else s
  | .holdScope i => holdScope s i
  | .resetGuest => cutLinks (assertGrst s) 6

/-- The severity of a fault's Nimbusor record (R462). -/
def fSeverity (resp : Nat) : Nat := if resp = 1 then 1 else if resp = 0 || resp = 3 || resp = 7 then 2 else if resp = 2 || resp = 4 then 3 else 4

/-- A fault is logged, counted and told to the fleet (R428, R441, R462), once for both Meridians. -/
def logFault (s : State) (r : BitVec 512) (resp : Nat) : State :=
  let i := s.num 0x4051 0
  let rec' := r.toNat - fld r 348 3 * 2 ^ 348 + resp * 2 ^ 348
  let s1 := (s.setOcts 0x4050 i (toBytes 64 rec')).setNum 0x4051 0 ((i + 1) % 64)
  let s2 := if fInj r then s1 else s1.count64 0x4052 (fCode r) 1
  let s3 := nim s2 (fStamp r) (fSeat r) (fSite r) (if r.getLsbD 357 then some (fld r 351 6) else none) (fCode r) (fSeverity resp) (fInj r)
    (nbits rec' 32 384)
  if fCode r = 0x07 && !(fInj r) then
    nim s3 (fStamp r) (dieOf (fDetail r)) 0x1FF none 0x010C 1 false (ofBytes (toBytes 2 (fDetail r) ++ toBytes 8 (fStamp r / s.tickNs)))
  else s3

/-! ## Records arrive (R418, R419) -/

/-- A Meridian runs: its hub is out of reset, and no trip has stopped its clocks (R528). -/
def meridianUp (s : State) (hub : Nat) : Bool :=
  s.dev.st != .off && (lget s.plant.hubs hub HubBoot.fresh).phase != 0 && (tfind s.plant.trips (4 + hub)).isNone

/-- A Meridian has taken a record. -/
def hasTaken (s : State) (hub : Nat) (r : BitVec 512) : Bool := s.safety.taken.contains (hub, r)

/-- A record that both Meridians have taken waits for neither; a Prism releases `PFLT_N` with its last one (R419). -/
def settleRecord (s : State) (r : BitVec 512) : State :=
  if !(hasTaken s 0 r && hasTaken s 1 r) then s
  else
    let left := s.safety.faults.filter (· != r)
    let clear := fSeat r < 4 && !(left.any fun q => fSeat q == fSeat r)
    { s with safety := { s.safety with faults := left },
             dev := { s.dev with pflt := if clear then lset s.dev.pflt (fSeat r) false else s.dev.pflt } }

/-- A Meridian takes a record: the first to do so logs it, each orders the acts of its own half, and either a device restart (R422).
Log entry 67 (DEDUCED). -/
def takeFault (s : State) (hub : Nat) (r : BitVec 512) : State :=
  if !(meridianUp s hub) || hasTaken s hub r then s
  else
    let known := s.safety.faults.contains r
    let first := !(hasTaken s (1 - hub) r)
    let s1 := { s with safety := { s.safety with taken := s.safety.taken ++ [(hub, r)],
                                                 faults := if known then s.safety.faults else s.safety.faults ++ [r] },
                       dev := { s.dev with pflt := if fSeat r < 4 then lset s.dev.pflt (fSeat r) true else s.dev.pflt } }
    let p := response s r
    let gone := absorbed s r p.1 p.2 || outranked s r p.1 p.2
    let s2 := if first then logFault s1 r (if gone then 7 else p.1) else s1
    let mine := if gone then [] else p.2.filter fun a => match actHalf a with
      | none => first
      | some h => h == hub || (first && !(meridianUp s h))
    settleRecord (mine.foldl (fun a x => act a r x) s2) r

/-- A record reaches a Meridian directly (R331, R419): a Prism's over its link to that hub, a hub's own within the hub, the guest link's at Hub
E. -/
def directRoute (s : State) (hub : Nat) (r : BitVec 512) : Bool :=
  if fSeat r < 4 then linkUp s (4 + 4 * hub + fSeat r) else hub == halfOf (fSeat r)

/-- `FAULT_RECORD` (R418-R420). Log entry 68 (DESIGN CHOICE). -/
def execFaultRecord (hub : Fin 2) (r : BitVec 512) (s : State) : Res := ok (if directRoute s hub.val r then takeFault s hub.val r else s)

/-- `FAULT_RECORD_FORWARD` (R419): a record that the other Meridian took; no effect where it took none, or over a hub-hub link that is
down. -/
def execFaultRecordForward (hub : Fin 2) (r : BitVec 512) (s : State) : Res :=
  ok (if hasTaken s (1 - hub.val) r && linkUp s 12 then takeFault s hub.val r else s)

/-! ## Comparators (R412, R417, R435) -/

/-- `MERIDIAN_COMPARATOR_FAULT` (R417): the hub's own reset logic restarts the half, which reports it afterwards. Log entry 70 (DEDUCED). -/
def comparatorFault (s : State) (hub : Nat) : State :=
  if !(meridianUp s hub) then s
  else
    let s1 := restart s (.half ⟨hub % 2, Nat.mod_lt _ (by decide)⟩)
    { s1 with dev := { s1.dev with merFault := lset s1.dev.merFault hub (some s.now) } }

/-- `MERIDIAN_COMPARATOR_FAULT` (R417). -/
def execMeridianComparatorFault (hub : Fin 2) (s : State) : Res := ok (comparatorFault s hub.val)

/-- `GNOMON_TICK_MISMATCH` (R435): both hubs' comparators flag it; they compare over the hub-hub link. -/
def execGnomonTickMismatch (s : State) : Res :=
  ok (if s.dev.st = .off || !(linkUp s 12) then s else dieFault (dieFault s 0x18 0 4) 0x18 0 5)

end Sys2Proof.Machine
end

