-- ==== Sys2Proof/Machine/Boot.lean ====
section
/-! DEFINITION. OFF, BOOT and restarts (R4-R6, R425-R427, R494-R498, R516, R517, R569, R570): pins, dies that leave reset, verified images,
trained stacks and links, and scopes that become ready. -/

namespace Sys2Proof.Machine

/-! ## BOOT failures (R20, R496, R498, R510) -/

/-- A hub's boot state shows a failing status in a phase, and the fleet is told (R498, R510). -/
def bootStatus (s : State) (hub status phase : Nat) : State :=
  nimWarn (s.modHub hub fun x => { x with status := status, phase := phase }) (4 + hub) 0x0301 (toBytes 1 hub ++ toBytes 2 status ++ toBytes 1 phase)

/-- A failure halts the half concerned, and the whole device during a cold start (R496). Log entry 72 (DEDUCED). -/
def bootFail (s : State) (hub status : Nat) : State :=
  let s1 := bootStatus s hub status 0xF
  if s.dev.st = .boot then s1.modHub (1 - hub) fun x => { x with phase := 0xF } else s1

/-! ## PWRGD and RSTIN_N (R4, R5, R516, R517, R544, R569, R570) -/

/-- The key slots with the fused recovery key in slot 15, which holds it at every BOOT and keeps its counters over a restart (R505). -/
def recoverySlot (s : State) : Tab KeySlot :=
  match (s.hubBoot 0).recKey with
  | none => s.plant.keys
  | some k => if (tfind s.plant.keys 15).isSome then s.plant.keys else tput s.plant.keys 15 { installed := true, gen := 0, mask := 4, key := k, salt := List.replicate 4 0, tx := 1, high := 0, seen := [] }

/-- The machine without supplies: fuses and the packages' identities stay (R5), the counters of the model, and what has left the
package. -/
def unpowered (s : State) : State :=
  let z := State.reset
  { z with
    pending := s.pending, id := s.id, free := s.free,
    dev := { z.dev with rstin := s.dev.rstin, seats := s.dev.seats, fchk := s.dev.fchk, serial := s.dev.serial, gid := s.dev.gid, traces := s.dev.traces },
    host := { z.host with out := s.host.out },
    plant := { z.plant with hubs := s.plant.hubs.map fun x =>
      { HubBoot.fresh with hashes := x.hashes, revoked := x.revoked, rollback := x.rollback, seed := x.seed, recKey := x.recKey,
                           flash := if x.writing.isSome then some [] else x.flash } } }

/-- `PWRGD_ASSERT` (R5, R544): the device leaves OFF for BOOT and Gnomon time starts at zero. -/
def powerOn (s : State) : State :=
  if s.dev.pwrgd then s
  else
    let z := unpowered s
    { z with dev := { z.dev with st := .boot, pwrgd := true, lowAt := [0, 1, 2, 3, 6].map fun k => (k, z.now), scopes := List.replicate 6 { st := 1, since := 0, ready := false } },
             plant := { z.plant with keys := recoverySlot z } }

/-- `PWRGD_ASSERT` (R4). -/
def execPwrgdAssert (s : State) : Res := ok (powerOn s)

/-- `PWRGD_DEASSERT` (R4, R517, R570): OFF at once. -/
def execPwrgdDeassert (s : State) : Res := ok (if s.dev.pwrgd then unpowered s else s)

/-- A low of a length asserts (R569): below 1 us never, from 10 us always, and between them by a free choice. Log entry 130 (DESIGN CHOICE). -/
def lowAsserts (s : State) (lowNs : Nat) : Bool := decide (10000 ≤ lowNs) || (decide (1000 ≤ lowNs) && Config.freeBool s.free)

/-- `RSTIN_N` is taken as asserted (R569, R570): a whole-device restart while the device is powered, unless a trip has ended its run; at the survival
level the dies only go into reset, and the restart waits for R538. -/
def resetIn (s : State) (lowNs : Nat) : State :=
  let s1 := s.takeFree 1
  if !(lowAsserts s lowNs) then s1
  else
    let s2 := { s1 with dev := { s1.dev with rstin := true } }
    if s.dev.st = .off || s.dev.thermtrip then s2
    else if s.plant.coolant.survival.isSome then resetAll s2
    else
      let s3 := restartDevice s2
      { s3 with plant := { s3.plant with keys := recoverySlot s3 } }

/-- `RSTIN_N_ASSERT` (R569). -/
def execRstinNAssert (lowNs : Nat) (s : State) : Res := ok (resetIn s lowNs)

/-- `RSTIN_N_DEASSERT` (R495, R569): the dies may leave reset. -/
def execRstinNDeassert (s : State) : Res := ok { s with dev := { s.dev with rstin := false } }

/-! ## Dies leave reset (R20, R247, R311, R321, R335, R411, R435, R436, R554) -/

/-- The seat fuses of a Knaxon die are programmed, and no other Knaxon die reads the same seat (R20). -/
def seatOk (s : State) (seat : Nat) : Bool :=
  let v := dieSeat s seat
  v != 7 && (((List.range 6).map (dieSeat s)).filter (· == v)).length == 1

/-- A die is held in reset; a hub whose seat fuses fail never leaves it (R20). -/
def inReset (s : State) (seat : Nat) : Bool :=
  if seat < 4 then lget s.dev.prst seat false
  else if seat < 6 then (s.hubBoot (seat - 4)).phase == 0 || !(seatOk s seat) else s.dev.grst

/-- A reset wire has been low for 1 us (R335); hubs have none. -/
def lowLongEnough (s : State) (seat : Nat) : Bool :=
  match tfind s.dev.lowAt seat with
  | none => true
  | some t => decide (t + 1000 ≤ s.now)

/-- A die may leave reset: no pin, trip or coolant stop holds it, the hub that drives its wire is out of reset, and the wire has been low for
1 us; Hub E releases the guest once it runs (R25, R335, R341, R528, R537, R570). -/
def mayLeave (s : State) (seat : Nat) : Bool :=
  s.dev.st != .off && !s.dev.rstin && !s.dev.thermtrip && inReset s seat && (tfind s.plant.trips seat).isNone && !s.plant.gated &&
  !(tget s.plant.held seat false) && (4 ≤ seat && seat < 6 || !(inReset s (4 + halfOf seat)) && lowLongEnough s seat) &&
  !(seat == 6 && (s.chord.fw.held || !(hubRuns s 1)))

/-- The clock domains of a seat, as lock bits (R31). -/
def seatPlls (seat : Nat) : Nat :=
  if seat < 4 then 0x1F * 2 ^ (5 * seat) else if seat < 6 then 0x1FF * 2 ^ (20 + 9 * (seat - 4)) else 2 ^ 38

/-- Counters that a hub holds for itself or its Prisms, with the first subindex and number of its half's (R554, R579). -/
def halfCounters (h : Nat) : List (Nat × Nat × Nat) :=
  ([0x2808, 0x2809, 0x280A, 0x4003, 0x4004, 0x4005, 0x4416].map fun i => (i, 2 * h, 2)) ++
  ([0x2013, 0x2014, 0x2413, 0x2414, 0x2415, 0x3818, 0x3819, 0x4C04, 0x4C18, 0x4C22, 0x5F00, 0x5F01, 0x5F02, 0x5F03, 0x5F04].map fun i => (i, h, 1)) ++
  ([0x2011, 0x2012].map fun i => (i, 8 * h, 8)) ++ (if h = 1 then [(0x4C31, 0, 1)] else [])

/-- Counters of a hub start at zero. -/
def clearCounters (s : State) (h : Nat) : State :=
  (halfCounters h).foldl (fun a c => (List.range c.2.2).foldl (fun b i => b.setNum c.1 (c.2.1 + i) 0) a) s

/-- A Prism comes out of reset with empty Facets; the remap tables of its local stores are emptied (R247, R311). Its memory controller is of another
reset and keeps its queues (R21, R334). Log entry 64 (DEDUCED). -/
def freshPrism (s : State) (d : Nat) : State :=
  let mine (f : Nat) : Bool := dieOf f == d
  let s1 := { s with work := { s.work with facets := s.work.facets.filter fun p => !(mine p.1) },
                     mem := { s.mem with scrubs := s.mem.scrubs.filter fun p => !(decide (6 ≤ p.1) && mine (p.1 - 6)) } }
  (List.range 72).foldl (fun a i => if a.num (0x3810 + d) i = 0 then a else a.setNum (0x3810 + d) i 0) s1

/-- A hub comes out of reset: its front ends, sessions and counters start anew (R452, R456, R554), and its ROM reads its flash. -/
def freshHub (s : State) (h : Nat) : State :=
  let s1 := clearCounters s h
  let s2 := { s1 with host := { s1.host with sessions := s1.host.sessions.filter fun x => x.hub != h, ibis := lset s1.host.ibis h [],
                                             i3c := lset s1.host.i3c h { I3c.fresh with hotJoin := (lget s1.host.i3c h I3c.fresh).hotJoin } } }
  let fw := if h = 1 then { s2.chord.fw with display := 0, codec := 0, rejects := 0, held := false, waiting := [] } else s2.chord.fw
  let s3 := { s2 with chord := { s2.chord with fw := fw, masks := if h = 1 then [] else s2.chord.masks },
                      mem := { s2.mem with scrubs := tdel s2.mem.scrubs (4 + h) } }
  s3.modHub h fun x => { x with phase := 1, status := 0, image := none, placeKey := none }

/-- The record pairs that test a Congruence unit (R411): an identical one, 64 that differ in one bit of `sig` each, and one that differs in `words`. -/
def testPair (i : Nat) : BitVec 512 × BitVec 512 :=
  let r := BitVec.ofNat 512 ((2 ^ 64 - 1) * 2 ^ 448)
  (r, if i = 0 then r else if i ≤ 64 then r ^^^ BitVec.ofNat 512 (2 ^ (447 + i)) else r ^^^ BitVec.ofNat 512 (2 ^ 352))

/-- What the unit under test returns for a pair: its verdict, which a faulty unit gets wrong by a free choice. -/
def testVerdict (s : State) (faulty : Bool) (i : Nat) : Bool :=
  recMatch (testPair i).1 (testPair i).2 != (faulty && Config.freeBool (s.free + i))

/-- The wrong verdicts of a test: only the first pair matches (R411). -/
def wrongVerdicts (s : State) (faulty : Bool) : Nat := ((List.range 66).filter fun i => testVerdict s faulty i != decide (i = 0)).length

/-- A Congruence unit is tested (R411): each mismatch that it finds goes to the Meridians, marked, and `PX_INJECT` shows the test. -/
def testUnit (s : State) (d : Nat) (faulty : Bool) : State :=
  let s1 := ((List.range 66).filter fun i => !(testVerdict s faulty i)).foldl (fun a i => raiseInjected a i 0x02 d 0x1FF) s
  (s1.takeFree 66).setNum 0x4006 d (256 + wrongVerdicts s faulty)

/-- The faults that the other checkers of a die flag in their tests (R435): row, code, detail and site. Log entry 73 (DEDUCED). -/
def testFaults (seat : Nat) : List (Nat × Nat × Nat × Nat) :=
  if seat < 4 then
    (List.range 72).map (fun i => (1, 0x01, 0x09, 128 * seat + i)) ++
      [(3, 0x13, 0, 0x1FF), (9, 0x03, 0, 0x1FF), (9, 0x03, 1, 0x1FF), (9, 0x01, 0x0C, 0x1FF), (10, 0x1A, 1, 0x1FF)]
  else [(3, 0x13, 0, 0x1FF), (6, 0x19, 0, 0x1FF), (6, 0x19, 1, 0x1FF), (7, 0x18, 0, 0x1FF), (8, 0x17, 0, 0x1FF), (10, 0x1A, 2, 0x1FF)]

/-- The checkers of a die are tested as it leaves reset (R411, R435): a row that gave a wrong result flags nothing. The Gnomon comparator of the other
hub flags the same offset. -/
def testDie (s : State) (seat wrong : Nat) : State :=
  let s1 := if seat < 4 then testUnit s seat (nbit wrong 5) else s
  let s2 := ((testFaults seat).filter fun t => !(nbit wrong t.1)).foldl (fun a t => raiseInjected a t.2.2.1 t.2.1 seat t.2.2.2) s1
  if seat < 4 || nbit wrong 7 || inReset s (9 - seat) then s2 else raiseInjected s2 0 0x18 (9 - seat) 0x1FF

/-- The rows of R435 that gave a wrong result as a die left reset: those that run then, the Congruence unit's by its verdicts. -/
def wrongRows (s : State) (seat wrong : Nat) : Nat :=
  if seat < 4 then (wrong &&& 0x60B) + (if wrongVerdicts s (nbit wrong 5) = 0 then 0 else 32) else wrong &&& 0x5C9

/-- A wrong result of a start-up injection (R436): it holds BOOT, or after BOOT the scope, which is reported. Log entry 73 (DEDUCED). -/
def injectFail (s : State) (seat : Nat) : State :=
  if s.dev.st = .boot then bootFail s (halfOf seat) 0x0904 else holdScope (dieFault s 0x1B 0 seat) seat

/-- What the injections of a die showed (R435, R436). -/
def injected (s : State) (seat wrong : Nat) : State :=
  let s1 := (testDie s seat wrong).setNum 0x4054 (if seat < 4 then seat else seat % 2 + 4) (wrongRows s seat wrong)
  if wrongRows s seat wrong = 0 then s1 else injectFail s1 seat

/-- The links of a die are to be trained (R323). -/
def dueLinks (s : State) (seat : Nat) : State :=
  ((List.range 14).filter fun l => (linkEnds l).1 == seat || (linkEnds l).2 == seat).foldl (fun a l => a.setLink l { a.link l with due := true }) s

/-- `DIE_LEAVES_RESET` (R335): `wrong` has bit i set for a wrong result of checker row i of R435. A die whose seat fuses fail stays in
reset (R20). Log entry 66 (DEDUCED). -/
def leaveReset (s : State) (seat wrong : Nat) : State :=
  if !(mayLeave s seat) then s
  else
    let s0 := if s.dev.st = .safe then setDevState s .boot else s
    if seat < 6 && !(seatOk s0 seat) then bootFail s0 (halfOf seat) 0x0901
    else
      let s1 := { s0 with dev := { s0.dev with pll := s0.dev.pll ||| seatPlls seat ||| 2 ^ 39,
                                               prst := if seat < 4 then lset s0.dev.prst seat false else s0.dev.prst,
                                               mrst := if seat < 4 then lset s0.dev.mrst seat false else s0.dev.mrst,
                                               grst := if seat = 6 then false else s0.dev.grst } }
      let s2 := dueLinks (if seat < 4 then freshPrism s1 seat else if seat < 6 then freshHub s1 (seat - 4) else s1) seat
      if seat < 6 then injected s2 seat wrong else s2

/-- `DIE_LEAVES_RESET` (R335). -/
def execDieLeavesReset (seat : Fin 7) (wrong : Nat) (s : State) : Res := ok (leaveReset s seat.val wrong)

/-! ## Images (R488, R493-R495, R498) -/

/-- `FIRMWARE_IMAGE_VERIFY` (R493): a hub whose ROM reads its flash: what the block wrote there, or what it was shipped with. The seat fuses of every
die come first; a failure of a later check enters recovery (R498). -/
def verifyFlash (s : State) (hub : Nat) (shipped : List Byte) : State :=
  let img := (s.hubBoot hub).flash.getD shipped
  if (s.hubBoot hub).phase ≠ 1 then s
  else if !((List.range 6).all (seatOk s)) then bootFail s hub 0x0901
  else
    let st := fwCheck s hub img
    if st = 0 then takeImage s hub img else bootStatus s hub st 0xE

/-- `FIRMWARE_IMAGE_VERIFY` (R493). -/
def execFirmwareImageVerify (hub : Fin 2) (flash : List Byte) (s : State) : Res := ok (verifyFlash s hub.val flash)

/-- A hub has halted since its image differed from the other's; the host may give it a matching one in recovery (R501). Log entry 169 (DEDUCED). -/
def mismatched (x : HubBoot) : Bool := x.phase == 0xF && x.status == 0x0905

/-- A hub that holds a verified image, or runs one. -/
def hasImage (x : HubBoot) : Bool := x.phase == 2 || x.phase == 4 || (mismatched x && x.image.isSome)

/-- `HUB_IMAGE_EXCHANGE` (R494, R495): no effect unless a hub has verified its image and the other has one too; differing identities hold
BOOT, and the lower rollback counter is levelled. Log entry 75 (DEDUCED). -/
def imageExchange (s : State) : State :=
  let w := s.hubBoot 0
  let e := s.hubBoot 1
  if !(hasImage w) || !(hasImage e) || !(w.phase == 2 || e.phase == 2) || !(linkUp s 12) then s
  else if w.image ≠ e.image then
    let fail (a : State) (h : Nat) : State := if (a.hubBoot h).phase = 2 then bootStatus a h 0x0905 0xF else a
    fail (fail s 0) 1
  else
    let top := Nat.max w.rollback e.rollback
    let up (x : HubBoot) : HubBoot := { x with rollback := top, phase := if x.phase = 4 then 4 else 3 }
    (s.modHub 0 up).modHub 1 up

/-- `HUB_IMAGE_EXCHANGE` (R494). -/
def execHubImageExchange (s : State) : Res := ok (imageExchange s)

/-! ## Training (R276, R277, R312, R322, R323, R340) -/

/-- The rows that a stack's training repairs: those pending and those the host listed (R312). -/
def repairRows (s : State) (n : Nat) : List Nat :=
  let listed := s.octs 0x3805 n
  (tget s.mem.repair n [] ++ (List.range (listed.length / 4)).map fun i => leAt listed (4 * i) 4).eraseDups

/-- Training applies post-package repair; a row without a resource left keeps its entries, by a free choice (R312). The host's
list then holds its default again (R447), and the stack's scrubber
starts a lap (R307, R309). Log entry 74 (DESIGN CHOICE). -/
def repairStack (s : State) (n : Nat) : State :=
  let rows := repairRows s n
  let fixed := (rows.zipIdx.filter fun p => Config.freeBool (s.free + p.2)).map Prod.fst
  let x := tget s.mem.scrubs n Scrub.fresh
  let left := x.remaps.filter fun l => !(fixed.contains (rowEntry (64 * l)))
  let s1 := (s.takeFree rows.length).setOcts 0x3805 n []
  let s2 := { s1 with mem := { s1.mem with repair := tput s1.mem.repair n ((tget s.mem.repair n []).filter fun r => !(fixed.contains r)),
                                           scrubs := tput s1.mem.scrubs n { x with remaps := left, recent := [], wb := [], qualify := [], next := 0, start := s.now, last := none, told := false } } }
  (s2.setNum 0x3806 n fixed.length).setNum 0x3803 n left.length

/-- Stack contents after training are undefined (R312): what a stack held is gone, and it reads as memory that nothing has written (log
entry 2). -/
def clearStack (s : State) (n : Nat) : State :=
  { s with mem := { s.mem with dram := s.mem.dram.filter fun c => stackOf c.1 != n, dramPoison := s.mem.dramPoison.filter fun p => p.1 / 2 ^ 28 != n } }

/-- `STACK_TRAINING_DONE` (R276, R277, R312, R435): only in BOOT, once its Prism has left reset. -/
def stackTrained (s : State) (n : Nat) (good coreFault : Bool) (lanes : Nat) (devId : List Byte) (wrong : Bool) : State :=
  if s.dev.st ≠ .boot || lget s.dev.mrst n true || nbit (s.num 0x3400 n) 0 then s
  else if !good || coreFault then bootFail s (halfOf n) 0x0903
  else
    let s1 := (repairStack (clearStack s n) n).setOcts 0x1041 n devId
    let s1a := { s1 with mem := { s1.mem with trained := tput s1.mem.trained n s1.now,
                                              banks := s1.mem.banks.filter fun p => p.1 / 1024 != n } }
    let s2 := s1a.setNum 0x3400 n (lanes % 16 * 16 + 1)
    if wrong then bootFail (s2.setNum 0x4054 n (s2.num 0x4054 n ||| 4)) (halfOf n) 0x0904 else s2

/-- What the two ends of a link check (R320, R322, R460): the seat and serial that the second presents, those of the first as its fuses read,
and of a guest its identifier (R340). -/
def peerOk (s : State) (l : Nat) (p : PeerId) : Bool :=
  p.seat == (linkEnds l).2 && p.serial == s.dev.serial && dieSeat s (linkEnds l).1 == (linkEnds l).1 && (l != 13 || p.gid == s.dev.gid)

/-- `STACK_TRAINING_DONE` (R277). -/
def execStackTrainingDone (n : Fin 4) (good coreFault : Bool) (lanes : Nat) (devId : List Byte) (wrong : Bool) (s : State) : Res :=
  ok (stackTrained s n.val good coreFault lanes devId wrong)

/-- Hub E holds a guest that it has refused in reset (R340). -/
def refuseGuest (s : State) : State :=
  let s1 := assertGrst s
  { s1 with chord := { s1.chord with fw := { s1.chord.fw with held := true } } }

/-- The flit check of a link was tested as it trained (R435): a wrong result holds BOOT, or the scope of an end that restarts (R436). -/
def crcTest (s : State) (l : Nat) (wrong : Bool) : State :=
  if !wrong then s
  else [(linkEnds l).1, (linkEnds l).2].foldl (fun a seat =>
    let i := if seat < 4 then seat else seat % 2 + 4
    let a1 := if seat < 6 && !(nbit (a.num 0x4054 i) 4) then a.setNum 0x4054 i (a.num 0x4054 i + 16) else a
    if seat < 6 && (a1.dev.st == .boot || unready a1 i || (decide (seat < 4) && unready a1 (4 + halfOf seat))) then injectFail a1 seat else a1) s

/-- A link has trained, or has failed to: it comes up, is refused, or fails (R322, R323, R340). -/
def linkTried (s : State) (l : Nat) (r : LinkTraining) (p : PeerId) : State :=
  let (a, b) := linkEnds l
  let trained := r != .failed
  if l = 13 && !(trained && peerOk s l p) then
    if trained then nimWarn (refuseGuest s) 5 0x0105 (toBytes 1 p.seat ++ toBytes 8 p.serial ++ toBytes 4 p.gid)
    else nimWarn (dieFault s 0x15 l 5) 5 0x0104 [0]
  else if trained && peerOk s l p then
    let s1 := ((s.setLink l { up := true, due := false, window := 0, retries := 0 }).modDir l 0 fun _ => LinkDir.start).modDir l 1 fun _ => LinkDir.start
    crcTest ((s1.setNum 0x5F10 l (Nat.min 0xFFFF (s.num 0x5F10 l + 1))).count64 0x5F11 l (linkModules l)) l (r == .wrongTest)
  else if s.dev.st = .boot && trained then bootFail s (halfOf a) 0x0902
  else dieFault (dieFault s 0x15 l a) 0x15 l b

/-- `LINK_TRAINING_DONE` (R322, R323, R340): `peer` is what the second end presents to the first. No effect on a link that no end has
left reset for, or while an end is in reset. -/
def linkTrained (s : State) (l : Nat) (r : LinkTraining) (p : PeerId) : State :=
  let (a, b) := linkEnds l
  if s.dev.st = .off || linkUp s l || !(s.link l).due || inReset s a || inReset s b then s
  else linkTried (s.setLink l { s.link l with due := false }) l r p

/-- `LINK_TRAINING_DONE` (R323). -/
def execLinkTrainingDone (l : Fin 14) (r : LinkTraining) (p : PeerId) (s : State) : Res := ok (linkTrained s l.val r p)

/-! ## Ready (R425-R427) -/

/-- The root sector's record as the device leaves BOOT (R274). -/
def rootRecord : BitVec 1536 :=
  BitVec.ofNat 1536 (pack [(0, 20, 1), (20, 1, 1), (76, 13, 64), (104, 9, 16), (128, 9, 16), (256, 1, 1)])

/-- A scope's readiness is recorded. -/
def setReady (s : State) (i : Nat) : State :=
  { s with dev := { s.dev with scopes := lmod s.dev.scopes i fun c => if c.st = 1 then { c with ready := true } else c },
           safety := { s.safety with memctl := tdel s.safety.memctl i } }

/-- Every link of some dies inside the device has been trained, or has failed to (R323, R427). -/
def linksTried (s : State) (seats : List Nat) : Bool :=
  (List.range 13).all fun l => !(s.link l).due || !(seats.any fun k => (linkEnds l).1 == k || (linkEnds l).2 == k)

/-- A Prism is ready: out of reset, its links trained, not held by a trip, its tasks restored (R425, R427, R528). -/
def prismReady (s : State) (d : Nat) : State :=
  let c := s.scope d
  if c.st ≠ 1 || c.ready || (s.scope (4 + halfOf d)).st = 1 || lget s.dev.prst d true || (tfind s.plant.trips d).isSome || restarting s .device ||
     !(linksTried s [d]) then s
  else setReady (restoreDie s d) d

/-- A half is ready: its hub runs the image of the other, its Prisms are out of reset and restored. While the device was coupled both
Meridians then write `PX_MODE` 0 (R425-R427); a comparator fault is now reported (R417). -/
def halfReady (s : State) (h : Nat) : State :=
  let c := s.scope (4 + h)
  let dies := [2 * h, 2 * h + 1]
  if c.st ≠ 1 || c.ready || (s.hubBoot h).phase ≠ 3 || dies.any (fun d => lget s.dev.prst d true || (tfind s.plant.trips d).isSome) ||
     (tfind s.plant.trips (4 + h)).isSome || restarting s .device || !(linksTried s ((4 + h) :: dies)) then s
  else
    let s1 := (dies.foldl restoreDie s).modHub h fun x => { x with phase := 4 }
    let s2 := setReady (dies.foldl setReady s1) (4 + h)
    let s3 := if s2.safety.hold.contains h then { s2 with safety := { s2.safety with mode := some 0 } } else s2
    match lget s3.dev.merFault h none with
    | none => s3
    | some t => raiseFault { s3 with dev := { s3.dev with merFault := lset s3.dev.merFault h none } } t 0 0x19 (4 + h) 0x1FF 0x3F none

/-- A scope that was restarting runs again; a retired or held one stays so. -/
def scopeOut (c : ScopeSt) : ScopeSt := if c.st = 1 then { c with st := 0, ready := false } else c

/-- The device enters CONFIG from BOOT (R427, R447): both hubs run the same image, every die is out of reset and every stack trained.
Retired Prisms stay so (R577). -/
def deviceReady (s : State) : State :=
  if s.dev.st ≠ .boot || (s.hubBoot 0).phase ≠ 3 || (s.hubBoot 1).phase ≠ 3 || s.dev.prst.any id || s.dev.rstin ||
     !((List.range 4).all fun n => nbit (s.num 0x3400 n) 0) || !s.plant.trips.isEmpty || s.plant.gated ||
     !(linksTried s [0, 1, 2, 3, 4, 5]) then s
  else
    let s1 := (s.modHub 0 fun x => { x with phase := 4 }).modHub 1 fun x => { x with phase := 4 }
    let s2 := { s1 with dev := { s1.dev with scopes := s1.dev.scopes.map scopeOut } }
    let s3 := s2.setSec 0 { st := .active, gen := 0, record := rootRecord, dirtyOn := false, drain := none, timedOut := false, resume := 0 }
    setDevState s3 .config

/-- `SCOPE_READY` (R425, R427): no effect until what the scope waits for has happened. -/
def execScopeReady (sc : Scope) (s : State) : Res :=
  ok (match sc with
    | .prism d => prismReady s d.val
    | .half h => halfReady s h.val
    | .device => deviceReady s)

end Sys2Proof.Machine
end

