-- ==== Sys2Proof/Machine/Thermal.lean ====
section
/-! DEFINITION. Power, temperature and the coolant loop (R512-R543). -/

namespace Sys2Proof.Machine

/-! ## Periods -/

/-- An event that comes once in a period, kept under a number: it is due. Log entry 79 (DEDUCED). -/
def periodDue (s : State) (k ns : Nat) : Bool :=
  s.dev.st != .off && match tfind s.plant.last k with
    | none => true
    | some t => decide (t + ns ≤ s.now)

/-- The event has come now. -/
def periodTaken (s : State) (k : Nat) : State := { s with plant := { s.plant with last := tput s.plant.last k s.now } }

/-! ## Rails (R513-R515) -/

/-- The seat that an AVS rail feeds; the hub for a hub's logic and stores (R513). -/
def railSeat (r : Nat) : Nat := if r % 4 < 2 then 2 * (r / 4) + r % 4 else 4 + r / 4

/-- A critical-path monitor on a die that the rail feeds loses its margin at a voltage, with the clocks as they are (R514). Log entry 171
(DESIGN CHOICE). -/
def railShort (s : State) (r v : Nat) : Bool := (railDies r).any fun d => Config.marginShort s.now r v d (dieTarget s d)

/-- The hub's reason for a step (R514): up while a monitor's margin is lost or the rail lies below `PWR_VLIMIT`, down while the margins hold
at the lower voltage too or the rail lies above it. -/
def wantsStep (s : State) (r : Nat) (up : Bool) : Bool :=
  let v := lget s.plant.setpoint r 0
  let top := s.num 0x4401 r / 65536
  let bot := s.num 0x4401 r % 65536
  if up then decide (v < bot) || (decide (v + 5 ≤ top) && railShort s r v)
  else decide (top < v) || (decide (bot + 5 ≤ v) && !(railShort s r (v - 5)))

/-- `AVS_STEP` (R514): one 5 mV step towards the lowest voltage that keeps the margins within `PWR_VLIMIT`, at most one per rail per
10 us. -/
def avsStep (s : State) (r : Nat) (up : Bool) : State :=
  let v := lget s.plant.setpoint r 0
  if !(periodDue s (16 + r) 10000) || !(wantsStep s r up) then s
  else periodTaken { s with plant := { s.plant with setpoint := lset s.plant.setpoint r (if up then v + 5 else v - 5) } } (16 + r)

/-- `AVS_STEP` (R514). -/
def execAvsStep (r : Fin 8) (up : Bool) (s : State) : Res := ok (avsStep s r.val up)

/-- A read-back lies within 3 % of the setpoint and reports no fault (R515). -/
def railGood (setpoint : Nat) (x : Option RailReading) : Bool :=
  match x with
  | none => false
  | some y => !y.fault && decide (97 * setpoint ≤ 100 * y.mv) && decide (100 * y.mv ≤ 103 * setpoint)

/-- `RAIL_READBACK` (R515): none where the regulator does not answer. -/
def railReadback (s : State) (r : Nat) (x : Option RailReading) : State :=
  if !(periodDue s (24 + r) 100000) then s
  else
    let s1 := match x with
      | none => s
      | some y => s.setNum 0x4400 r (y.mv % 65536 * 65536 + y.ma % 65536)
    let bad := if railGood (lget s.plant.setpoint r 0) x then tdel (tdel s.plant.railBad r) (64 + r)
               else if (tfind s.plant.railBad r).isSome then s.plant.railBad else tput s.plant.railBad r s.now
    periodTaken { s1 with plant := { s1.plant with railBad := bad } } (24 + r)

/-- `RAIL_READBACK` (R515). -/
def execRailReadback (r : Fin 8) (x : Option RailReading) (s : State) : Res := ok (railReadback s r.val x)

/-- The seat that reports a fixed rail; none of the six for the rails of the whole device (R515, R540). -/
def fixedSeat : Rail → Nat
  | .avs r => railSeat r.val
  | .vpp h => 4 + h.val
  | .vdd h => 4 + h.val
  | .vddq h => 4 + h.val
  | .guest => 6
  | .vio _ => 7

/-- `RAIL_OUT_OF_TOLERANCE` (R515): an AVS rail must have read bad for 1 ms, and is reported once; a fixed rail is what the on-die monitors
report. -/
def railOut (s : State) (x : Rail) : State :=
  if s.dev.st = .off then s
  else match x with
  | .avs r =>
    match tfind s.plant.railBad r.val with
    | none => s
    | some t =>
      if s.now < t + 1000000 || (tfind s.plant.railBad (64 + r.val)).isSome then s
      else dieFault { s with plant := { s.plant with railBad := tput s.plant.railBad (64 + r.val) s.now } } 0x1A 0x06 (railSeat r.val)
  | y => dieFault s 0x1A 0x06 (fixedSeat y)

/-- `RAIL_OUT_OF_TOLERANCE` (R515). -/
def execRailOutOfTolerance (x : Rail) (s : State) : Res := ok (railOut s x)

/-! ## Droop (R520) -/

/-- `DROOP_DETECT` (R520): the clock of the Facet is stretched. -/
def execDroopDetect (f : Nat) (s : State) : Res := ok { s with plant := { s.plant with droop := tput s.plant.droop f true } }

/-- `DROOP_RECOVERY` (R520): stretching ends. -/
def execDroopRecovery (f : Nat) (s : State) : Res := ok { s with plant := { s.plant with droop := tdel s.plant.droop f } }

/-! ## Power (R518, R519, R522) -/

/-- A clock one step down: 25 MHz for a Prism to its floor, 100 MHz for a cluster to 800 MHz. -/
def clockDown (s : State) (d c : Nat) : Nat := Nat.max (clockMin s d) (c - if d < 4 then 25 else 100)

/-- A clock one step up, to its maximum. -/
def clockUp (s : State) (d c : Nat) : Nat := Nat.min (clockMax s d) (c + if d < 4 then 25 else 100)

/-- A die's clock lowered to `c`. -/
def lowerTo (s : State) (d c : Nat) : State :=
  setPower s d { diePower s d with clock := c, lowered := (diePower s d).lowered || decide (c < clockMax s d) }

/-- A die's clock one step down. -/
def lowerDie (s : State) (d : Nat) : State := lowerTo s d (clockDown s d (dieTarget s d))

/-- The package limit of a coolant stage in W; none for stage 0 (R535). -/
def stageLimit (n : Nat) : Option Nat := if n = 1 then some 450 else if n = 2 then some 380 else if n = 3 then some 300 else none

/-- The effective limit of a die or the package in W (R519). -/
def powerLimit (s : State) (d : Nat) : Nat :=
  if d = 6 then (match stageLimit (s.num 0x4422 0) with
    | none => s.num 0x4402 6
    | some l => Nat.min l (s.num 0x4402 6))
  else s.num 0x4402 d

/-- The last 1 ms of a die's powers, in 0.1 W. -/
def lastMs (s : State) (d : Nat) : List Nat := ((diePower s d).recent).take 10

/-- The average over the last 1 ms exceeds the limit. -/
def overLimit (s : State) (d : Nat) : Bool :=
  let l := lastMs s d
  decide (10 * powerLimit s d * l.length < lsum id l)

/-- Every sample of the last 1 ms lies below 95 % of the limit. -/
def underLimit (s : State) (d : Nat) : Bool :=
  let l := lastMs s d
  decide (10 ≤ l.length) && l.all fun p => decide (100 * p < 95 * 10 * powerLimit s d)

/-- The governing reading of a spot in 1/16 C: the higher of its valid sensors, 110 C where none is (R523, R525). -/
def governing (k : Nat) (x : Spot) : Int :=
  let single := 526 ≤ k
  if x.aBad then (if single || x.bBad then 110 * 16 else x.b) else if single || x.bBad then x.a else if x.a < x.b then x.b else x.a

/-- A spot that has not converted. -/
def Spot.start : Spot :=
  { a := 0, b := 0, aAt := 0, bAt := 0, aBad := false, bBad := false, suspect := false, differ := none, agree := none, warned := none, warm := false, hot := false }

/-- Spot `k` (sites 0-511, the subindices of `THM_SPOT` from 512, inlet 530, outlet 531). -/
def State.spot (s : State) (k : Nat) : Spot := tget s.plant.spots k Spot.start

/-- A spot replaced. -/
def State.setSpot (s : State) (k : Nat) (x : Spot) : State := { s with plant := { s.plant with spots := tput s.plant.spots k x } }

/-- The reading of a spot. -/
def reading (s : State) (k : Nat) : Int := governing k (s.spot k)

/-- The spots of a die that hold its clock down: of a hub or Prism at or above 110 C until 107 C, and a Prism's stack from 93 C (R526, R527,
R529). Log entry 77 (DEDUCED). -/
def heldHot (s : State) (d : Nat) : Bool :=
  let hot (k : Nat) : Bool := ((tfind s.plant.spots (512 + k)).map Spot.hot).getD false
  if d < 4 then hot (2 * d) || hot (2 * d + 1) || decide (93 * 16 ≤ reading s (526 + d))
  else (List.range 3).any fun i => hot (8 + 3 * (d - 4) + i)

/-- One Prism or hub under the limiter (R519): its own limit, for a Prism the package's too; a clock that nothing has lowered runs at its
maximum (R518, R522). Log entry 76 (DEDUCED). -/
def limitDie (s : State) (d : Nat) : State :=
  let x := diePower s d
  let pkg := d < 4
  if overLimit s d || (pkg && overLimit s 6) then
    let s1 := lowerDie s d
    let y := diePower s1 d
    setPower s1 d { y with limited := if y.clock < clockMax s d then some (x.limited.getD s.now) else none }
  else if !x.lowered then followClock s d
  else if underLimit s d && (!pkg || (diePower s 6).recent.isEmpty || underLimit s 6) && !(heldHot s d) then
    let c := raiseClock s d (clockUp s d x.clock)
    let low := decide (c < clockMax s d)
    setPower s d { x with clock := c, lowered := low, limited := if low then x.limited else none, told := x.told && low }
  else s

/-- A Prism held below its maximum by the limiter for 1 s is reported once (R542). -/
def tellLimited (s : State) (d : Nat) : State :=
  let x := diePower s d
  match x.limited with
  | none => s
  | some t =>
    if x.told || s.now < t + 1000000000 then s
    else nimWarn (setPower s d { x with told := true }) d 0x0205 (toBytes 1 d ++ toBytes 2 (x.recent.headD 0) ++ toBytes 2 x.clock)

/-- The power of an AVS rail in 0.1 W, from its last read-back (R515, R519). -/
def railPower (s : State) (r : Nat) : Nat :=
  let x := s.num 0x4400 r
  rneDiv (x / 65536 * (x % 65536)) 1000

/-- The fixed rails at the figures of R30, in 0.1 W: four stacks at 9 W, the guest die at 8 W, the I/O at 9 W. Log entry 172 (DEDUCED). -/
def fixedPower : Nat := 4 * 90 + 80 + 90

/-- How much of its half's stores' rail a die draws, which the spec leaves open: `split` says it of each Prism, and the hub draws the rest.
Log entry 172 (DESIGN CHOICE). -/
def storeShare (s : State) (split : List Nat) (d : Nat) : Nat :=
  let h := halfOf d
  let p := railPower s (4 * h + 3)
  let a := Nat.min p (lget split (2 * h) 0)
  let b := Nat.min (p - a) (lget split (2 * h + 1) 0)
  if d = 2 * h then a else if d = 2 * h + 1 then b else p - a - b

/-- The power of a Prism or hub, or of the package (`d` 6), in 0.1 W (R519): the rails' voltage times current, and for the package the fixed
rails. -/
def measured (s : State) (split : List Nat) (d : Nat) : Nat :=
  if d = 6 then lsum (railPower s) (List.range 8) + fixedPower
  else railPower s (if d < 4 then 4 * halfOf d + d % 2 else 4 * (d - 4) + 2) + storeShare s split d

/-- A measured power enters its die's history: 10 ms for the dies, 1 s for the package (R534, R541). -/
def takePower (split : List Nat) (s : State) (d : Nat) : State :=
  let x := diePower s d
  setPower s d { x with recent := (measured s split d :: x.recent).take (if d = 6 then 10000 else 100) }

/-! ## The coolant's flows (R534) -/

/-- Averages of the package power and of outlet minus inlet over the last 1 s, as sums with their counts, in 0.1 W and 1/16 K. -/
def flowSums (s : State) : Nat × Nat × Int × Nat :=
  let p := (diePower s 6).recent
  let h := s.plant.coolant.history.filter fun x => decide (s.now < x.1 + 1000000000)
  (lsum id p, p.length, h.foldl (fun a x => a + (x.2.2 - x.2.1)) 0, h.length)

/-- A signed quotient to the nearest integer, ties to even (R75). -/
def rneDivInt (a : Int) (b : Nat) : Int := if a < 0 then -(rneDiv a.natAbs b : Int) else rneDiv a.natAbs b

/-- The tachometer flow in mL/min: none of it once no pulse has come for 200 ms. Log entry 78 (DEDUCED). -/
def tachFlow (s : State) : Nat :=
  let c := s.plant.coolant
  match c.lastPulse with
  | none => 0
  | some t => if c.interval = 0 || t + 200000000 ≤ s.now then 0 else rneDiv (60000000 * s.num 0x4424 0) (c.interval * s.num 0x4423 0)

/-- The thermal flow in mL/min, where it is valid. -/
def thermalFlow (s : State) : Option Nat :=
  let (p, np, d, nd) := flowSums s
  if np = 0 || nd = 0 || p < 1000 * np || d ≤ 0 then none else some (rneDiv (60000 * 16 * nd * p) (35300 * np * d.toNat))

/-- The effective flow in mL/min. -/
def effectiveFlow (s : State) : Nat :=
  match thermalFlow s with
  | none => tachFlow s
  | some f => Nat.min (tachFlow s) f

/-- The entry conditions of stages 1 to 3 (R535). -/
def stageCond (s : State) : List Bool :=
  let f := effectiveFlow s
  let t := reading s 530
  [decide (f < 3000) || decide (60 * 16 < t), decide (f < 2500) || decide (65 * 16 < t), decide (f < 2000) || decide (70 * 16 < t)]

/-- The two flows differ by more than 25 % (R534): of the larger. -/
def flowsDiffer (s : State) : Bool :=
  match thermalFlow s with
  | none => false
  | some f => decide (Nat.max f (tachFlow s) < 4 * (Nat.max f (tachFlow s) - Nat.min f (tachFlow s)))

/-- Every junction reads below a temperature in C. -/
def junctionsBelow (s : State) (t : Int) : Bool := s.plant.spots.all fun p => decide (526 ≤ p.1) || decide (governing p.1 p.2 < 16 * t)

/-- The loop's conditions as they stand now, with since when each has stood, and the flows that the host reads. -/
def evalCoolant (s : State) : State :=
  let c := s.plant.coolant
  let cond := (c.cond.zip (stageCond s)).map fun p => if p.1.1 = p.2 then p.1 else (p.2, s.now)
  let since (o : Option Nat) (b : Bool) : Option Nat := if b then (match o with
    | none => some s.now
    | some t => some t) else none
  let fine := decide (2000 ≤ tachFlow s) && junctionsBelow s 95
  let s1 := { s with plant := { s.plant with coolant := { c with cond := cond, disagree := since c.disagree (flowsDiffer s),
                                                                 okSince := since c.okSince (c.survival.isSome && fine) } } }
  let mC (k : Nat) : Nat := lowBits 32 (rneDivInt (reading s k * 125) 2)
  ((((s1.setNum 0x4420 0 (mC 530)).setNum 0x4420 1 (mC 531)).setNum 0x4421 0 (tachFlow s)).setNum 0x4421 1 ((thermalFlow s).getD 0)).setNum 0x4421 2 (effectiveFlow s)

/-- `POWER_SAMPLE` (R519): once per 100 us. -/
def powerSample (s : State) (split : List Nat) : State :=
  if !(periodDue s 0 100000) then s
  else
    let s1 := periodTaken ((List.range 7).foldl (takePower split) s) 0
    let s2 := [0, 1, 2, 3, 4, 5].foldl limitDie s1
    let s3 := [0, 1, 2, 3].foldl tellLimited s2
    evalCoolant ((List.range 7).foldl (fun a d =>
      let r := ((diePower a d).recent).take 100
      a.setNum 0x4403 d (rneDiv (lsum id r) r.length)) s3)

/-- `POWER_SAMPLE` (R519). -/
def execPowerSample (split : List Nat) (s : State) : Res := ok (powerSample s split)

/-! ## Temperature (R523-R530) -/

/-- The dictionary entry that shows a spot: index and subindex. -/
def spotEntry (k : Nat) : Nat × Nat := if k < 512 then (0x4410 + dieOf k, k % 128) else if k < 530 then (0x4414, k - 512) else (0x4420, k - 530)

/-- The seat of a spot; a stack has that of its Prism, the coolant none. -/
def spotSeat (k : Nat) : Nat :=
  if k < 512 then dieOf k
  else
    let n := k - 512
    if n < 8 then n / 2 else if n < 11 then 4 else if n < 14 then 5 else if n < 18 then n - 14 else 7

/-- A spot has two sensors (R523). -/
def twoSensors (k : Nat) : Bool := decide (k < 526)

/-- A reading that makes its sensor invalid (R525). -/
def wild (r : Int) : Bool := decide (r < -50 * 16) || decide (150 * 16 < r)

/-- The payload that names a spot and readings. Log entry 80 (DEDUCED). -/
def spotBody (k : Nat) (rs : List Int) : List Byte :=
  toBytes 2 (spotEntry k).1 ++ toBytes 1 (spotEntry k).2 ++ rs.flatMap fun r => toBytes 2 (lowBits 16 r)

/-- The site field of a spot's fault record. -/
def spotSite (k : Nat) : Nat := if k < 512 then k else 0x1FF

/-- What the validity of a spot's sensors brings (R525): one invalid of two makes the pair suspect, none valid is a fault. -/
def checkValid (s : State) (k : Nat) (old : Spot) : State :=
  let x := s.spot k
  let bad (y : Spot) : Bool := y.aBad && (y.bBad || !(twoSensors k))
  let one := twoSensors k && (x.aBad != x.bBad)
  let s1 := if one && !x.suspect then nimWarn (s.setSpot k { x with suspect := true }) (spotSeat k) 0x0202 (spotBody k [x.a, x.b]) else s
  if bad x && !(bad old) then raiseFault s1 s1.now 0x05 0x1A (spotSeat k) (spotSite k) 0x3F none else s1

/-- Since when the sensors of a pair differ by more than 6 K, or agree (R524). -/
def checkPair (s : State) (k : Nat) : State :=
  let x := s.spot k
  if !(twoSensors k) then s
  else if x.aBad || x.bBad then s.setSpot k { x with differ := none, agree := none }
  else if 96 < (x.a - x.b).natAbs then s.setSpot k { x with differ := some (x.differ.getD s.now), agree := none }
  else s.setSpot k { x with differ := none, agree := some (x.agree.getD s.now) }

/-- The warning threshold of a spot in 1/16 C, and the one at which it acts (R526, R529); none for the coolant. -/
def thresholds (k : Nat) : Option (Int × Int) :=
  if k < 526 then some (105 * 16, 110 * 16) else if k < 530 then some (90 * 16, 100 * 16) else none

/-- Thresholds reached, and left at 3 K below (R526, R529): a warning at most once per 10 s, and a stack at 100 C is a fault. -/
def checkHeat (s : State) (k : Nat) : State :=
  match thresholds k with
  | none => s
  | some (w, h) =>
    let x := s.spot k
    let g := governing k x
    let warm := decide (w ≤ g) || (x.warm && decide (w - 48 ≤ g))
    let hot := decide (h ≤ g) || (x.hot && decide (h - 48 ≤ g))
    let tell := warm && !x.warm && (match x.warned with
      | none => true
      | some t => decide (t + 10000000000 ≤ s.now))
    let s1 := s.setSpot k { x with warm := warm, hot := hot, warned := if tell then some s.now else x.warned }
    let s2 := if tell then nimWarn s1 (spotSeat k) 0x0201 (spotBody k [g]) else s1
    if hot && !x.hot && 526 ≤ k then dieFault s2 0x1A 0x03 (spotSeat k) else s2

/-- One conversion taken (R523). -/
def takeReading (s : State) (r : TempReading) : State :=
  let k := r.spot
  if 532 ≤ k then s
  else
    let old := s.spot k
    let x := if r.second then { old with b := r.r, bAt := s.now, bBad := wild r.r } else { old with a := r.r, aAt := s.now, aBad := wild r.r }
    checkHeat (checkPair (checkValid (s.setSpot k x) k old) k) k

/-- The throttle cap of a site updated (R530). -/
def updateCap (s : State) (f : Nat) : State :=
  let g := reading s f
  let c := throttleCap s f
  let c' := if 110 * 16 ≤ g then Nat.max (s.num 0x4405 0) (c - 100) else if g < 107 * 16 then Nat.min (dieTarget s (dieOf f)) (c + 25) else c
  if c' = c then s else { s with plant := { s.plant with caps := tput s.plant.caps f c' } }

/-- A die with a hot spot at or above 110 C is slowed (R527). -/
def slowHot (s : State) (d : Nat) : State :=
  let hot (k : Nat) : Bool := decide (110 * 16 ≤ reading s (512 + k))
  let here := if d < 4 then hot (2 * d) || hot (2 * d + 1) else (List.range 3).any fun i => hot (8 + 3 * (d - 4) + i)
  if here then lowerDie s d else s

/-- A stack slows its Prism: at 95 C to the floor, from 93 C by one step per 1 ms (R529). -/
def slowStack (s : State) (d : Nat) : State :=
  let g := reading s (526 + d)
  if 95 * 16 ≤ g then lowerTo s d (s.num 0x4405 0)
  else if 93 * 16 ≤ g && periodDue s (32 + d) 1000000 then periodTaken (lowerDie s d) (32 + d)
  else s

/-- A die is held by a trip until every sensor of it reads below 100 C (R528). -/
def releaseTrips (s : State) : State :=
  let cool (seat : Nat) : Bool := s.plant.spots.all fun p =>
    decide (526 ≤ p.1) || spotSeat p.1 != seat || (decide (p.2.a < 100 * 16) && decide (p.2.b < 100 * 16))
  { s with plant := { s.plant with trips := s.plant.trips.filter fun p => !(cool p.1) } }

/-- The coolant temperatures enter the history of 1 s (R534, R536). -/
def noteCoolant (s : State) : State :=
  let c := s.plant.coolant
  { s with plant := { s.plant with coolant := { c with history := (c.history ++ [(s.now, reading s 530, reading s 531)]).filter fun x => decide (s.now ≤ x.1 + 1000000000) } } }

/-- `TEMP_CONVERSION` (R523-R530): once per 100 us. -/
def tempConversion (s : State) (rs : List TempReading) : State :=
  if !(periodDue s 1 100000) then s
  else
    let s1 := periodTaken (rs.foldl takeReading s) 1
    let s2 := [0, 1, 2, 3].foldl slowStack ([0, 1, 2, 3, 4, 5].foldl slowHot s1)
    let sites := (List.range 4).flatMap fun d => (List.range 72).map (128 * d + ·)
    evalCoolant (noteCoolant (releaseTrips (sites.foldl updateCap s2)))

/-- `TEMP_CONVERSION` (R523). -/
def execTempConversion (rs : List TempReading) (s : State) : Res := ok (tempConversion s rs)

/-- `SENSOR_PAIR_SUSPECT` (R524): no effect before 100 ms of difference. -/
def pairSuspect (s : State) (k : Nat) : State :=
  let x := s.spot k
  match x.differ with
  | none => s
  | some t =>
    if x.suspect || s.now < t + 100000000 then s
    else nimWarn (s.setSpot k { x with suspect := true }) (spotSeat k) 0x0202 (spotBody k [x.a, x.b])

/-- `SENSOR_PAIR_SUSPECT` (R524). -/
def execSensorPairSuspect (k : Nat) (s : State) : Res := ok (pairSuspect s k)

/-- `SENSOR_PAIR_CLEAR` (R524): no effect before 10 s of agreement. -/
def pairClear (s : State) (k : Nat) : State :=
  let x := s.spot k
  match x.agree with
  | none => s
  | some t => if !x.suspect || s.now < t + 10000000000 then s else s.setSpot k { x with suspect := false }

/-- `SENSOR_PAIR_CLEAR` (R524). -/
def execSensorPairClear (k : Nat) (s : State) : Res := ok (pairClear s k)

/-- `SENSOR_CONVERSION_TIMEOUT` (R525): a sensor that has completed no conversion for 1 ms; `second` names it. -/
def conversionTimeout (s : State) (k : Nat) (second : Bool) : State :=
  let x := s.spot k
  if s.dev.st = .off || 532 ≤ k || (second && !(twoSensors k)) || s.now < (if second then x.bAt else x.aAt) + 1000000 then s
  else
    let y := if second then { x with bBad := true } else { x with aBad := true }
    checkHeat (checkPair (checkValid (s.setSpot k y) k x) k) k

/-- `SENSOR_CONVERSION_TIMEOUT` (R525). -/
def execSensorConversionTimeout (k : Nat) (second : Bool) (s : State) : Res := ok (conversionTimeout s k second)

/-- `TRIP_COMPARATOR` (R528): the die of a junction hot spot stops its clocks and is reported; no effect on a die that has tripped. -/
def trip (s : State) (k : Nat) : State :=
  let seat := spotSeat k
  if s.dev.st = .off || 526 ≤ k || (tfind s.plant.trips seat).isSome then s
  else raiseFault { s with plant := { s.plant with trips := tput s.plant.trips seat s.now } } s.now (if seat < 4 then 0x01 else 0x02) 0x1A seat (spotSite k) 0x3F none

/-- `TRIP_COMPARATOR` (R528). -/
def execTripComparator (k : Nat) (s : State) : Res := ok (trip s k)

/-- `THERMTRIP_CHECK` (R528): 10 ms after a trip, a sensor of the die that still reads 125 C asserts `THERMTRIP_N`. -/
def thermtripCheck (s : State) (seat : Nat) : State :=
  match tfind s.plant.trips seat with
  | none => s
  | some t =>
    let hot := s.plant.spots.any fun p => decide (p.1 < 526) && spotSeat p.1 == seat && (decide (125 * 16 ≤ p.2.a) || decide (125 * 16 ≤ p.2.b))
    if s.now < t + 10000000 || !hot then s else { s with dev := { s.dev with thermtrip := true } }

/-- `THERMTRIP_CHECK` (R528). -/
def execThermtripCheck (seat : Fin 7) (s : State) : Res := ok (thermtripCheck s seat.val)

/-! ## The coolant loop (R534-R539) -/

/-- `TACH_PULSE` (R534, R573): a falling edge; a rate above 2 kHz counts as 2 kHz. -/
def tachPulse (s : State) : State :=
  if s.dev.st = .off then s
  else
    let c := s.plant.coolant
    let iv := match c.lastPulse with
      | none => 0
      | some t => Nat.max 500000 (s.now - t)
    evalCoolant { s with plant := { s.plant with coolant := { c with lastPulse := some s.now, interval := iv } } }

/-- `TACH_PULSE` (R534). -/
def execTachPulse (s : State) : Res := ok (tachPulse s)

/-- The outlet's rise over 100 ms in mK/s (R536): none before there is a reading 100 ms old. -/
def riseRate (s : State) : Option Int :=
  match ((s.plant.coolant.history.filter fun x => decide (x.1 + 100000000 ≤ s.now)).getLast?) with
  | none => none
  | some x => some ((reading s 531 - x.2.2) * 625)

/-- The coolant has stopped (R536, R537): the device enters SAFE at the survival level and is reported; `cause` is 1 for no flow, 2 for
the rise. -/
def coolantStop (s : State) (cause : Nat) : State :=
  let rise := (riseRate s).getD 0
  let s1 := dieFault ((s.count32 0x4427 0 1).setNum 0x4422 0 4) 0x1A 0x04 7
  let s2 := stopScope s1 [0, 1, 2, 3]
  let c := s2.plant.coolant
  let s3 := { s2 with dev := { s2.dev with msafe := [true, true],
                                           scopes := s2.dev.scopes.map fun k => if k.st = 2 then k else { st := 1, since := s.now, ready := false } },
                      plant := { s2.plant with gated := true, coolant := { c with survival := some s.now, okSince := none } } }
  let s4 := followClocks s3
  let s5 := if s4.dev.st = .boot then s4 else setDevState s4 .safe
  nimWarn s5 7 0x0204 (toBytes 1 cause ++ toBytes 4 (s5.num 0x4420 1) ++ toBytes 4 (lowBits 32 rise))

/-- The loop can stop now: the device is powered and not yet stopped. -/
def canStop (s : State) : Bool := s.dev.st != .off && s.plant.coolant.survival.isNone && !s.dev.thermtrip

/-- `RISE_RATE_EVAL` (R536): every 1 ms. -/
def riseEval (s : State) : State :=
  if !(periodDue s 3 1000000) then s
  else
    let s1 := periodTaken s 3
    match riseRate s1 with
    | none => s1
    | some r => if canStop s1 && (s1.num 0x4425 0 : Int) < r then coolantStop s1 2 else s1

/-- `RISE_RATE_EVAL` (R536). -/
def execRiseRateEval (s : State) : Res := ok (riseEval s)

/-- `TACH_ZERO_FLOW` (R534, R536): no pulse for 200 ms. -/
def zeroFlow (s : State) : State :=
  if !(canStop s) || s.now < s.plant.coolant.lastPulse.getD 0 + 200000000 then s else coolantStop (evalCoolant s) 1

/-- `TACH_ZERO_FLOW` (R536). -/
def execTachZeroFlow (s : State) : Res := ok (zeroFlow s)

/-- The stages in force: entered once a condition has held 1 s, left once it has been false 10 s (R535). -/
def stagesNow (s : State) : List Bool :=
  (s.plant.coolant.cond.zip s.plant.coolant.inForce).map fun p =>
    if p.1.1 then p.2 || decide (p.1.2 + 1000000000 ≤ s.now) else p.2 && decide (s.now < p.1.2 + 10000000000)

/-- The highest stage in force. -/
def stageOf (l : List Bool) : Nat := lmax (l.zipIdx.map fun p => if p.1 then p.2 + 1 else 0)

/-- `COOLANT_STAGE_CHANGE` (R535): no effect while no stage changes. -/
def stageChange (s : State) : State :=
  let l := stagesNow s
  let old := s.num 0x4422 0
  let n := stageOf l
  if s.dev.st = .off || s.plant.coolant.survival.isSome || n = old then s
  else
    let s1 := { s with plant := { s.plant with coolant := { s.plant.coolant with inForce := l } } }.setNum 0x4422 0 n
    let s2 := nimWarn s1 7 0x0203 (toBytes 1 old ++ toBytes 1 n ++ [0, 1].flatMap (fun i => toBytes 4 (s1.num 0x4420 i)) ++ [0, 1].flatMap fun i => toBytes 4 (s1.num 0x4421 i))
    if n = 3 then degrade s2 coolantThree else undegrade s2 coolantThree

/-- `COOLANT_STAGE_CHANGE` (R535). -/
def execCoolantStageChange (s : State) : Res := ok (stageChange (evalCoolant s))

/-- `TACH_DISAGREE` (R534): once for a difference that has stood 10 s. -/
def tachDisagree (s : State) : State :=
  match s.plant.coolant.disagree with
  | none => s
  | some t =>
    if s.dev.st = .off || s.now < t + 10000000000 || t ≤ tget s.plant.last 4 0 && (tfind s.plant.last 4).isSome then s
    else nimWarn (periodTaken s 4) 7 0x0207 ([0, 1].flatMap fun i => toBytes 4 (s.num 0x4421 i))

/-- `TACH_DISAGREE` (R534), with the flows as they stand now. -/
def execTachDisagree (s : State) : Res := ok (tachDisagree (evalCoolant s))

/-- The survival level ends (R538), once `RSTIN_N` is deasserted (R570): the clocks run, the stage is evaluated afresh, and a whole-device restart
starts. -/
def survivalExit (s : State) : State :=
  match s.plant.coolant.survival, s.plant.coolant.okSince with
  | some _, some t =>
    if s.dev.thermtrip || s.dev.rstin || s.now < t + 5000000000 then s
    else
      let c : Coolant := { Coolant.fresh with lastPulse := s.plant.coolant.lastPulse, interval := s.plant.coolant.interval, history := s.plant.coolant.history }
      let fresh : List (Bool × Nat) := List.replicate 3 (false, s.now)
      let s1 := { s with plant := { s.plant with gated := false, coolant := { c with cond := fresh } } }.setNum 0x4422 0 0
      restartDevice (undegrade s1 coolantThree)
  | _, _ => s

/-- `SURVIVAL_EXIT` (R538): no effect until its conditions have held 5 s. -/
def execSurvivalExit (s : State) : Res := ok (survivalExit s)

/-- The survival level ends without recovery (R539): every die is held in reset, and only OFF ends the trip. -/
def survivalTimeout (s : State) : State :=
  match s.plant.coolant.survival with
  | none => s
  | some t =>
    if s.dev.thermtrip || (s.now < t + s.num 0x4426 0 * 1000000000 && junctionsBelow s 115) then s
    else
      let s2 := resetAll (dieFault s 0x1A 0x07 7)
      { s2 with dev := { s2.dev with thermtrip := true },
                plant := { s2.plant with held := (List.range 7).map fun k => (k, true) } }

/-- `SURVIVAL_TIMEOUT` (R539). -/
def execSurvivalTimeout (s : State) : Res := ok (survivalTimeout s)

end Sys2Proof.Machine
end

