-- ==== Sys2Proof/Machine/MemCtl.lean ====
section
/-! DEFINITION. The memory controllers (R278-R296): acceptance, the order of requests, rows and disturbance, the regulators; the guest
firewall in front of them (R336-R341); and the application cores' own accesses (R278, R469). -/

namespace Sys2Proof.Machine

/-! ## Queues and shares (R280-R282, R289, R293) -/

/-- An earlier request of the same source for the same line has not been accepted, and holds this one back (R281). -/
def behindOwn (s : State) (r : LineReq) : Bool :=
  s.mem.reqs.any fun q => !q.accepted && decide (q.tag < r.tag) && sourceOf q == sourceOf r && q.off / 64 == r.off / 64

/-- The share of a master in a stack, as it is in force (R37, R293). -/
def share (s : State) (n m : Nat) : Nat :=
  if m < 15 then tget s.mem.masters (16 * n + m) (numDefault 0x3410 (16 * n + m))
  else if m = 15 then 0
  else
    let sec := s.num 0x3412 (48 * n + m)
    if sec = 0xFF then 0 else tget s.mem.bw (4 * sec + n) 0

/-- The panic input of a master (R289). -/
def panicOf (s : State) (m : Nat) : Bool :=
  match m with
  | 0 => (lget s.mem.panics 0 { level := 0, on := false, since := 0, told := false }).on
  | 1 => (lget s.mem.panics 1 { level := 0, on := false, since := 0, told := false }).on
  | 4 => (lget s.mem.panics 2 { level := 0, on := false, since := 0, told := false }).on
  | _ => false

/-! ## Banks (R279, R283-R288) -/

/-- A bank whose row is closed. -/
def Bank.fresh : Bank :=
  { row := none, served := 0, last := 0, hist := 3, hits := 0, acts := [], raa := 0, refreshes := 0, cleared := 0,
    refAt := 0, before := [] }

/-- The number of a bank. -/
def bankNo (n pc b : Nat) : Nat := 1024 * n + 32 * pc + b

/-- A bank. -/
def State.bank (s : State) (k : Nat) : Bank := tget s.mem.banks k Bank.fresh

/-- A bank replaced. -/
def State.setBank (s : State) (k : Nat) (b : Bank) : State := { s with mem := { s.mem with banks := tput s.mem.banks k b } }

/-- The bank of an offset. -/
def bankOf (o : Nat) : Nat := bankNo (stackOf o) (dramPc o) (dramBank o)

/-- A bank whose row closes: its history moves on (R284). -/
def closeRow (b : Bank) : Bank :=
  match b.row with
  | none => b
  | some _ => { b with row := none, hist := (2 * b.hist + b2n (decide (2 ≤ b.served))) % 16, served := 0, hits := 0 }

/-- A stack is above 85 °C (R285, R288). -/
def stackHot (s : State) (n : Nat) : Bool := decide (85 * 16 < reading s (526 + n))

/-- The effective threshold of a stack (R288). -/
def actThresh (s : State) (n : Nat) : Nat :=
  let t := s.num 0x3401 0
  if stackHot s n then Nat.max 256 (t / 2) else t

/-- The position of the entry with the least count, the lowest on a tie. -/
def leastAct (l : List (Nat × Nat)) : Nat :=
  (l.zipIdx.foldl (fun best p => if p.1.2 < best.1 then (p.1.2, p.2) else best) ((l.head?.map Prod.snd).getD 0, 0)).2

/-- An activate of a row in the activate-count table (R287): the table, and whether the row's neighbours are refreshed. -/
def actTable (l : List (Nat × Nat)) (row t : Nat) : List (Nat × Nat) × Bool :=
  let (l1, i) := match lfind (fun p : Nat × Nat => p.1 == row) l with
    | some i => (lmod l i fun p => (p.1, p.2 + 1), i)
    | none =>
      if l.length < 8 then (l ++ [(row, 1)], l.length)
      else
        let i := leastAct l
        (lmod l i fun p => (row, p.2 + 1), i)
  let c := (lget l1 i (row, 0)).2
  if t ≤ c then (lmod l1 i fun p => (p.1, 0), true) else (l1, false)

/-- The rows beside a row that exist (R287). -/
def neighbours (row : Nat) : Nat := lsum (fun d => b2n (decide (d ≤ row))) [1, 2] + lsum (fun d => b2n (decide (row + d < 16384))) [1, 2]

/-- The activate-count table of a bank after an activate of a row, the table that its emptying at this instant found, and whether the row's
neighbours are refreshed: a count that reaches the threshold as the table empties is refreshed first (R287, R288). -/
def activateTable (s : State) (n : Nat) (b : Bank) (row : Nat) : List (Nat × Nat) × List (Nat × Nat) × Bool :=
  let old := actTable b.before row (actThresh s n)
  if b.cleared = s.now && old.2 then (b.acts, old.1, true)
  else
    let new := actTable b.acts row (actThresh s n)
    (new.1, b.before, new.2)

/-- A row activated (R286, R287): targeted refreshes, and a refresh management command where the bank's rolling activation count reaches the
threshold that its stack reports. Log entry 82 (DESIGN CHOICE). -/
def activate (s : State) (k row : Nat) : State :=
  let b := s.bank k
  let n := k / 1024
  let t := activateTable s n b row
  let rfm := decide (1 ≤ (b.raa + 1) / Config.raaLimit)
  let s1 := s.setBank k { b with row := some row, served := 0, hits := 0, last := s.now, acts := t.1, before := t.2.1,
                                 raa := if rfm then b.raa + 1 - Config.raaLimit else b.raa + 1 }
  let s2 := if t.2.2 then s1.count64 0x3402 n (neighbours row) else s1
  if rfm then s2.count64 0x3403 n 1 else s2

/-- A line of a row served by its bank (R283, R284). -/
def serve (s : State) (o : Nat) : State :=
  let k := bankOf o
  let b := s.bank k
  let hit := b.row == some (dramRow o)
  let s1 := if hit then s else activate (s.setBank k (closeRow b)) k (dramRow o)
  let c := s1.bank k
  s1.setBank k { c with served := c.served + 1, hits := if hit then c.hits + 1 else 0, last := s.now }

/-- A queued request names the open row of a bank. -/
def rowWanted (s : State) (k row : Nat) : Bool := (s.queue (k / 32)).any fun r => bankOf r.off == k && dramRow r.off == row

/-- What the controller does when the last request of a row is served (R284): the history keeps the row open or closes it. -/
def afterServe (s : State) (k : Nat) : State :=
  let b := s.bank k
  match b.row with
  | none => s
  | some row =>
    if rowWanted s k row || 2 ≤ lsum (fun i => b2n (nbit b.hist i)) (List.range 4) then s else s.setBank k (closeRow b)

/-! ## The next request (R281-R283) -/

/-- A request of the same source for the same line stands before position `i` (R281). -/
def behind (q : List QReq) (i : Nat) (r : QReq) : Bool := (q.take i).any fun p => p.source == r.source && p.off == r.off

/-- The row hit of a request counts for its place: it is one, and R283 does not set it aside. -/
def hitCounts (s : State) (q : List QReq) (r : QReq) : Bool :=
  let b := s.bank (bankOf r.off)
  b.row == some (dramRow r.off) &&
  !(decide (16 ≤ b.hits) && q.any fun p => decide (p.time < r.time) && bankOf p.off == bankOf r.off && dramRow p.off != dramRow r.off)

/-- A master is in budget in a stack (R293); master 8 is throughout a slice switch of the stack's Prism (R153). -/
def inBudget (s : State) (n m : Nat) : Bool :=
  decide (issuedLines s n m < share s n m) || (m == 8 && (tfind s.work.switching n).isSome)

/-- The keys of R282, least first. -/
def issueKey (s : State) (n : Nat) (q : List QReq) (i : Nat) (r : QReq) : List Nat :=
  let aged := decide (r.time + 2000 ≤ s.now)
  [b2n (!aged), if aged then r.time else 0, b2n (!(panicOf s r.master)), b2n (!(inBudget s n r.master)),
   if r.cls = 1 then 0 else if r.cls = 0 then 1 else 2, b2n (!(hitCounts s q r)), r.time, i]

/-- One list of keys comes before another. -/
def keyLess : List Nat → List Nat → Bool
  | [], _ => false
  | _ :: _, [] => false
  | a :: r, b :: t => if a = b then keyLess r t else decide (a < b)

/-- The position of the request that a pseudo-channel issues next. -/
def nextIssue (s : State) (n : Nat) (q : List QReq) : Option Nat :=
  q.zipIdx.foldl (fun best p =>
    if behind q p.2 p.1 then best
    else match best with
      | none => some p.2
      | some j => if keyLess (issueKey s n q p.2 p.1) (issueKey s n q j (lget q j p.1)) then some p.2 else best) none

/-- The lines of the receive write buffers go to their queues in order, as far as those have room and the hub reaches them (R331, R354);
a line is written when its controller accepts it. Log entry 136 (DEDUCED). -/
def drainIn (s : State) : State :=
  let w := s.sense.inbuf
  w.foldl (fun a l =>
    if hubReach a l.hub l.off && roomFor (a.queue (queueOf l.off)) l.hub then enqueue (dramLine a l.off l.data none false) l.off true l.hub (0x40000 + l.entry)
    else { a with sense := { a.sense with inbuf := a.sense.inbuf ++ [l] } }) { s with sense := { s.sense with inbuf := [] } }

/-! ## Refresh (R285, R288) -/

/-- The instant from which the refreshes of a bank are counted: its last refresh, or its stack's training. -/
def refBase (b : Bank) (t : Nat) : Nat := Nat.max b.refAt t

/-- The average interval between a bank's refreshes at the stack's temperature (R285). Log entry 83 (DESIGN CHOICE). -/
def refInterval (s : State) (n : Nat) : Nat := if stackHot s n then Config.refreshNs / 2 else Config.refreshNs

/-- The refreshes of a bank that are due and have not been issued; none of a stack that has not trained. -/
def refOwed (s : State) (n k : Nat) : Nat :=
  match tfind s.mem.trained n with
  | none => 0
  | some t => (s.now - refBase (s.bank k) t) / refInterval s n

/-- A refresh of a pseudo-channel is at its last permitted postponement, and goes before every request (R285). -/
def refUrgent (s : State) (n pc : Nat) : Bool :=
  (tfind s.mem.trained n).isSome && (List.range 32).any fun b => decide (Config.refreshPostpone < refOwed s n (bankNo n pc b))

/-- `REFRESH` (R285, R284, R286): a refresh of a bank closes its row and lowers its rolling activation count; a stack in
self-refresh takes none (R537). Log entry 83 (DESIGN CHOICE). -/
def refreshBank (s : State) (n pc bank : Nat) : State :=
  let k := bankNo n pc bank
  let b := closeRow (s.bank k)
  let at' := match tfind s.mem.trained n with
    | none => b.refAt
    | some t => refBase b t + refInterval s n
  if s.plant.gated then s else s.setBank k { b with refreshes := b.refreshes + 1, raa := b.raa - Config.raaLimit, refAt := at' }

/-- `REFRESH` (R285). -/
def execRefresh (n : Fin 4) (pc bank : Fin 32) (s : State) : Res := ok (refreshBank s n.val pc.val bank.val)

/-- `ACT_TABLE_CLEAR` (R288): no effect before the end of the bank's full refresh cycle. -/
def actTableClear (s : State) (n pc bank : Nat) : State :=
  let k := bankNo n pc bank
  let b := s.bank k
  if s.now < Nat.max b.cleared (tget s.mem.trained n 0) + (if stackHot s n then 16000000 else 32000000) then s
  else s.setBank k { b with acts := [], before := b.acts, refreshes := 0, cleared := s.now }

/-- `ACT_TABLE_CLEAR` (R288). -/
def execActTableClear (n : Fin 4) (pc bank : Fin 32) (s : State) : Res := ok (actTableClear s n.val pc.val bank.val)

/-- `ROW_IDLE_CLOSE` (R284): no effect unless a row has been open for 1,000 ns without access. -/
def rowIdleClose (s : State) (n pc bank : Nat) : State :=
  let k := bankNo n pc bank
  let b := s.bank k
  if b.row.isNone || s.now < b.last + 1000 then s else s.setBank k (closeRow b)

/-- `ROW_IDLE_CLOSE` (R284). -/
def execRowIdleClose (n : Fin 4) (pc bank : Fin 32) (s : State) : Res := ok (rowIdleClose s n.val pc.val bank.val)

/-! ## What a read finds (R302, R303, R310) -/

/-- The scrubber of a store. -/
def State.scrub (s : State) (k : Nat) : Scrub := tget s.mem.scrubs k Scrub.fresh

/-- A scrubber replaced. -/
def State.setScrub (s : State) (k : Nat) (x : Scrub) : State := { s with mem := { s.mem with scrubs := tput s.mem.scrubs k x } }

/-- A location qualifies for a spare (R310), unless it has one: a line of stack `k`, or a word of the local store of site `k - 6`. With every
spare in use the Facet is reported as suspect, or the fleet is told of the stack's line, which stays in place (R311). -/
def qualify (s : State) (k a : Nat) : State :=
  let x := s.scrub k
  if x.remaps.contains a || x.qualify.contains a || k = 4 || k = 5 then s
  else if k < 4 && 64 ≤ x.remaps.length then nimWarn s k 0x0102 (toBytes 1 k ++ toBytes 8 (64 * a))
  else if 6 ≤ k && 16 ≤ x.remaps.length then raiseFault s s.now a 0x09 (dieOf (k - 6)) (k - 6) 0x3F none
  else s.setScrub k { x with qualify := x.qualify ++ [a] }

/-- The controller counts the on-die severity reports of its stack (R302); whether a read brings one is the stack's, a free choice. -/
def noteSeverity (s : State) (n : Nat) : State :=
  let s1 := s.takeFree 1
  { s1 with mem := { s1.mem with severity := if Config.freeBool s.free then tput s1.mem.severity n (tget s1.mem.severity n 0 + 1) else s1.mem.severity } }

/-- A line of DRAM read, with what the controller code finds (R303): a correction schedules a write-back, an error that it cannot correct
poisons the line, is an integrity event and qualifies the line for a spare. -/
def dramFound (s0 : State) (o : Nat) (found : EccResult) : State :=
  let n := stackOf o
  let s := noteSeverity s0 n
  match found with
  | .clean => s
  | .corrected =>
    let x := s.scrub n
    (s.count64 0x3800 n 1).setScrub n { x with wb := if x.wb.contains (o / 64) then x.wb else x.wb ++ [o / 64] }
  | .uncorrectable =>
    let s1 := dramSetPoison (s.count64 0x3801 n 1) o true
    qualify (integrityEvent s1 n 0 (o / 64 * 64)) n (o / 64)

/-! ## Line requests of the device (R265, R280, R301, R306, R313, R325, R326) -/

/-- A device request may be accepted now: it has not been, nothing of its source stands before it, its queue has room and the controller
runs. -/
def acceptable (s : State) (r : LineReq) (write : Bool) : Bool :=
  r.write == write && !r.accepted && !(behindOwn s r) && roomFor (s.queue (queueOf r.off)) r.master && ctlUp s (stackOf r.off)

/-- The mask kept at a place of the table, and the state without it (R326). -/
def takeMask (s : State) (at_ : Nat) : Option Nat × State :=
  (tfind s.chord.masks at_, { s with chord := { s.chord with masks := tdel s.chord.masks at_ } })

/-- The place of the mask that the guest's link keeps for the next `WR` of a seat code; `bad` for one that the firewall has discarded (R326, R341). -/
def guestMask (sseat : Nat) (bad : Bool) : Nat := (if bad then 24 else 16) + sseat

/-- A write arrives at its controller: squashed, or accepted, when its bytes are written (R306, R313), under the mask that came before it on a
link (R326). Log entry 81 (DEDUCED). -/
def wrIssued (s : State) (tag : Nat) (tileOk : Bool) : State :=
  match findReq s tag with
  | none => s
  | some r =>
    if r.write && !r.accepted && !(current s r) then dropReq s tag
    else if !(acceptable s r true) then s
    else
      let m := if r.die = stackOf r.off then (none, s) else takeMask s r.die
      let s1 := if tileOk then m.2 else tileFail m.2 (stackOf r.off) r.off
      let s2 := dramLine s1 r.off r.data (m.1.orElse fun _ => partMask r.mask.toNat) (r.poison || !tileOk)
      acceptReq (enqueue s2 r.off true r.master (sourceOf r)) tag

/-- A read arrives at its controller: squashed, or accepted, when its line is read with what its code finds. -/
def rdIssued (s : State) (tag : Nat) (found : EccResult) : State :=
  match findReq s tag with
  | none => s
  | some r =>
    if !r.write && !r.accepted && !(current s r) then dropReq s tag
    else if !(acceptable s r false) then s
    else
      let s1 := dramFound s r.off found
      let s2 := { s1 with mem := { s1.mem with returned := s1.mem.returned ++ [(tag, dramRead s1 r.off 64, dramBad s1 r.off)] } }
      acceptReq (enqueue s2 r.off false r.master (sourceOf r)) tag

/-- A request is complete at its source: its mover operation or carry write waits for it no longer (R67, R148). -/
def reqDone (s : State) (r : LineReq) : State :=
  (dropReq s r.tag).modFacet r.site fun f =>
    if r.carry then { f with carryTags := f.carryTags.filter (· != r.tag) }
    else { f with ops := retireOps (f.ops.map fun o => if o.tags.contains r.tag then { o with tags := o.tags.filter (· != r.tag) } else o) }

/-- `WACK` of a device request (R326): its line is globally complete. -/
def wackIssued (s : State) (tag : Nat) : State :=
  match findReq s tag with
  | none => s
  | some r => if r.write && r.accepted then reqDone s r else s

/-- The half bytes of a returned line placed in local store, with its poison; a local line of which all 128 come clean loses its own (R66,
R67, R306). -/
def placeLine (f : Facet) (ls : List (Nat × Nat)) (data : List Byte) (poison : Bool) : Facet :=
  let nib (k : Nat) : Nat := let b := (lget data (k / 2) 0).toNat; if k % 2 = 0 then b % 16 else b / 16
  let g := ls.foldl (fun f p => lsPutNibble f p.1 (nib p.2)) f
  let lines := (ls.map fun p => p.1 / 128).eraseDups
  let whole (l : Nat) : Bool := ((ls.filter fun p => p.1 / 128 == l).map Prod.fst).eraseDups.length == 128
  lines.foldl (fun f l => if poison then lsSetPoison f l true else if whole l then lsSetPoison f l false else f) g

/-- `RRET` of a device request (R67, R325): what the controller read arrives, and a line that fails its tile check is poisoned (R313). -/
def rretIssued (s : State) (tag : Nat) (tileOk : Bool) : State :=
  match findReq s tag, s.mem.returned.find? fun p => p.1 == tag with
  | some r, some (_, data, poison) =>
    let s1 := if tileOk then s else tileFail s r.die (64 * ((lmin (r.ls.map fun p => p.1 / 128)).getD 0))
    let s2 := { s1 with mem := { s1.mem with returned := s1.mem.returned.filter fun p => p.1 != tag } }
    reqDone (s2.modFacet r.site fun f => placeLine f r.ls data (poison || !tileOk)) r
  | _, _ => s

/-- `RDERR` of a device request (R326, R67): the read fails, and its task stops with `FX_MOVER`. -/
def rderrIssued (s : State) (tag : Nat) : State :=
  match findReq s tag with
  | none => s
  | some r =>
    if r.write then s
    else
      let s1 := { s with mem := { s.mem with returned := s.mem.returned.filter fun p => p.1 != tag } }
      failSite (dropReq s1 tag) r.site (reqPc s1 r) (BitVec.ofNat 32 r.off)

/-! ## The guest firewall (R336-R341) -/

/-- Something that the guest sent leaves the machine's side of its link. -/
def toGuest (s : State) (o : Output) : State := { s with host := { s.host with out := s.host.out ++ [o] } }

/-- The guest is attached: its link is up, it is not in reset and Hub E runs (R25). -/
def guestUp (s : State) : Bool := linkUp s 13 && !s.dev.grst && hubRuns s 1

/-- The function of a guest request: 0 display, 1 codec (R336). -/
def guestFn (g : GuestLine) : Nat := nbits g.tag 15 1

/-- The first check of R336 that a guest request fails, but for the rate; zero when it passes. -/
def guestCheck (s : State) (g : GuestLine) (write masked : Bool) : Nat :=
  let types := s.num 0x4811 0
  let page := g.line / 64
  let window (i : Nat) : Bool :=
    let e := ofBytes (slice (s.octs 0x4810 i) 0 16)
    nbit e 24 && decide (nbits e 0 24 ≤ page) && decide (page < nbits e 32 25) && nbit e (if write then 65 else 64) && nbit e (66 + guestFn g)
  if g.sseat ≠ 6 || g.sector ≠ 0 || g.gen ≠ 0 then 1
  else if !(nbit types (if !write then 0 else if masked then 2 else 1)) then 2
  else if !((List.range 16).any window) then 3
  else 0

/-- Lines of a function admitted in the present window. -/
def guestLines (s : State) (fn : Nat) : Nat := if fn = 0 then s.chord.fw.display else s.chord.fw.codec

/-- The limit of a function as it is in force (R37, R339). -/
def guestLimit (s : State) (fn : Nat) : Nat := nbits s.chord.fw.limits (16 * fn) 12

/-- A guest request waits behind an earlier one: of its function (R339), or for its line, since the guest is one source (R281). -/
def guestBehind (s : State) (g : GuestLine) : Bool :=
  s.chord.fw.waiting.any fun w => guestFn w.line == guestFn g || w.line.line == g.line

/-- The rate admits a guest request (R339), and no earlier one holds it back. -/
def rateOk (s : State) (g : GuestLine) : Bool := decide (guestLines s (guestFn g) < guestLimit s (guestFn g)) && !(guestBehind s g)

/-- A line admitted counts against its function's limit (R339). -/
def guestCount (s : State) (fn : Nat) : State :=
  let fw := s.chord.fw
  { s with chord := { s.chord with fw := if fn = 0 then { fw with display := fw.display + 1 } else { fw with codec := fw.codec + 1 } } }

/-- The bytes that the scan-out buffer holds (R289, R336). -/
def scanFill (s : State) : Nat := s.chord.fw.scanOut.length * 64

/-- A read return for the display enters the scan-out buffer of the firewall (R336). -/
def toScanOut (s : State) (o : Output) : State := { s with chord := { s.chord with fw := { s.chord.fw with scanOut := s.chord.fw.scanOut ++ [o] } } }

/-- The displays take lines from the scan-out buffer, the oldest first, until it holds at most `n` bytes. -/
def drainScan (s : State) (n : Nat) : State :=
  let l := s.chord.fw.scanOut
  let k := l.length - n / 64
  { s with chord := { s.chord with fw := { s.chord.fw with scanOut := l.drop k } }, host := { s.host with out := s.host.out ++ l.take k } }

/-- An admitted request as the controller accepts it (R306, R326, R336), answered when it is: a display read through the scan-out buffer; a tile check
that fails at a write's hand-over poisons the line (R313). One for a stack that Hub E does not reach fails (R331): a read with `RDERR`, a write
without an answer. Log entry 136 (DEDUCED). -/
def guestAdmit (s : State) (w : GuestWait) : State :=
  let g := w.line
  let o := 64 * (g.line % 2 ^ 30)
  let s1 := guestCount s (guestFn g)
  if !(hubReach s 1 o) then (if w.write then s1 else toGuest s1 (.guestErr g.tag 1))
  else
    let s2 := enqueue s1 o w.write (4 + guestFn g) 0x20000
    if w.write then
      toGuest (dramLine (if w.tileOk then s2 else tileFail s2 5 o) o g.data w.mask (g.poison || !w.tileOk)) (.guestAck g.tag)
    else
      let s3 := dramFound s2 o w.found
      let ret := Output.guestLine g.tag (dramRead s3 o 64) (dramBad s3 o)
      if guestFn g = 0 then toScanOut s3 ret else toGuest s3 ret

/-- The controller can accept a guest request now, and the scan-out buffer has place for a display's return. -/
def guestRoom (s : State) (g : GuestLine) : Bool :=
  let o := 64 * (g.line % 2 ^ 30)
  roomFor (s.queue (queueOf o)) (4 + guestFn g) && ctlUp s (stackOf o) && (guestFn g == 1 || decide (scanFill s + 64 ≤ 2 ^ 19))

/-- A guest request that passes the checks goes on, or waits: in the ingress buffer and, without a credit, in the slots of the receiver
(R327, R339). None is dropped. -/
def guestPass (s : State) (w : GuestWait) : State :=
  if rateOk s w.line && guestRoom s w.line then guestAdmit s w
  else { s with chord := { s.chord with fw := { s.chord.fw with waiting := s.chord.fw.waiting ++ [w] } } }

/-- A guest request arrives (R336, R339, R341). -/
def guestArrive (s : State) (w : GuestWait) (masked : Bool) : State :=
  let c := guestCheck s w.line w.write masked
  if !(guestUp s) then s
  else if c ≠ 0 then toGuest (fwReject s c) (if w.write then .guestAck w.line.tag else .guestErr w.line.tag 2)
  else guestPass s w

/-- A guest `WR`: the mask that came before it from the same seat code is its own, and goes with it where the firewall has discarded that mask (R326,
R341). Log entry 85 (DEDUCED). -/
def guestWrite (s : State) (g : GuestLine) (tileOk : Bool) : State :=
  let bad := takeMask s (guestMask g.sseat true)
  let m := takeMask bad.2 (guestMask g.sseat false)
  if !(guestUp s) then s
  else if bad.1.isSome then toGuest m.2 (.guestAck g.tag)
  else guestArrive m.2 { line := g, write := true, mask := m.1, found := .clean, tileOk := tileOk } m.1.isSome

/-- `WR` (R325). -/
def wrArrive (s : State) (q : LineRef) (tileOk : Bool) : State :=
  match q with
  | .issued tag => wrIssued s tag tileOk
  | .guest g => guestWrite s g tileOk

/-- `WR` (R325). -/
def execWr (q : LineRef) (tileOk : Bool) (s : State) : Res := ok (wrArrive s q tileOk)

/-- `RD` (R326). -/
def rdArrive (s : State) (q : LineRef) (found : EccResult) : State :=
  match q with
  | .issued tag => rdIssued s tag found
  | .guest g => guestArrive s { line := g, write := false, mask := none, found := found, tileOk := true } false

/-- `RD` (R326). -/
def execRd (q : LineRef) (found : EccResult) (s : State) : Res := ok (rdArrive s q found)

/-- A mask kept for the next `WR`: under the seat of a die, or at its place of the guest's link. -/
def keepMask (s : State) (port bits : Nat) : State := { s with chord := { s.chord with masks := tput s.chord.masks port bits } }

/-- The guest's header passes the identifier check of R336. -/
def guestHdr (m : ShortHdr) : Bool := m.sseat == 6 && m.sector == 0 && m.gen == 0

/-- `MASK` (R326): kept for the next `WR` of the same `sseat`; the type check of one that came on the guest's port is made with that write (R336). A
squashed one is dropped (R265). Log entry 85 (DEDUCED). -/
def maskArrive (s : State) (m : MaskRef) (bits : Nat) : State :=
  match m with
  | .guest m => if !(guestUp s) then s else if guestHdr m then keepMask s (guestMask 6 false) bits else keepMask (fwReject s 1) (guestMask m.sseat true) bits
  | .inner m => if 6 ≤ m.sseat || m.gen ≠ (s.sec m.sector).gen then s else keepMask s m.sseat bits

/-- `MASK` (R326). -/
def execMask (m : MaskRef) (bits : Dword) (s : State) : Res := ok (maskArrive s m bits.toNat)

/-- A response from the guest: the firewall checks its identifier, and Hub E has nothing outstanding with the guest (R484), so it discards the
response (R336, R338, R341). -/
def guestResponse (s : State) (m : ShortHdr) : State := if guestUp s then fwReject s (if guestHdr m then 2 else 1) else s

/-- `RRET` (R325). -/
def execRret (q : RespRef) (tileOk : Bool) (s : State) : Res :=
  ok (match q with
    | .issued tag => rretIssued s tag tileOk
    | .guest m => guestResponse s m)

/-- `RDERR` (R326). -/
def execRderr (q : RespRef) (_cause : Byte) (s : State) : Res :=
  ok (match q with
    | .issued tag => rderrIssued s tag
    | .guest m => guestResponse s m)

/-- `WACK` (R326). -/
def execWack (q : RespRef) (s : State) : Res :=
  ok (match q with
    | .issued tag => wackIssued s tag
    | .guest m => guestResponse s m)

/-- An event of the guest is not applied: it is counted (R484). -/
def dropEvt (s : State) : State := s.count64 0x4C31 0 1

/-- `EVT` (R484): a post of 1 to the object of the line under its own source key, at the instant at which it reaches the object's unit (R179), at
most 64 in a tick, otherwise counted as dropped; one whose unit Hub E does not reach is lost (R331). Log entry 168 (DEDUCED). -/
def evtArrive (s : State) (m : ShortHdr) (line : Nat) : State :=
  let r := s.num 0x4C30 line
  let c := tget s.host.guestEvts (refKey r) 0
  let n := if c / 128 = s.tickNow then c % 128 else 0
  if !(guestUp s) then s
  else if !(guestHdr m) then fwReject s 1
  else if !(nbit (s.num 0x4811 0) 5) then fwReject s 2
  else if r = 0 || 64 ≤ n then dropEvt s
  else if !(routeUp s 5 (refUnit r)) then s
  else if refStatus s (s.vobj (refKey r)).sector r ≠ 0 then dropEvt s
  else
    let g (a : State) : State :=
      let p := vtPostOn a (a.vobj (refKey r)).sector r 1
      if p.1 ≠ 0 then dropEvt p.2
      else { p.2 with host := { p.2.host with guestEvts := tput p.2.host.guestEvts (refKey r) (128 * s.tickNow + n + 1) } }
    atUnit s (refUnit r) (0xC80 + line) g

/-- `EVT` (R484). -/
def execEvt (m : ShortHdr) (line : Fin 64) (s : State) : Res := ok (evtArrive s m line.val)

/-! ## Application cores (R278, R306, R469) -/

/-- Where a physical address of R278 lies: DRAM, or the SRAM of a hub, with its offset. -/
def coreTarget (a : Nat) : Option (Option Nat × Nat) :=
  if a < 2 ^ 36 then some (none, a)
  else if 0xE000000000 ≤ a && a < 0xE004000000 then some (some ((a - 0xE000000000) / 0x2000000), (a - 0xE000000000) % 0x2000000)
  else none

/-- The bytes of an access. -/
def coreLen : CoreOp → Nat
  | .load n => n
  | .store d => d.length

/-- An access lies in a range that R278 lets a core reach. -/
def coreReach (s : State) (a n : Nat) : Bool :=
  match coreTarget a with
  | none => false
  | some (none, o) => decide (o + n ≤ 2 ^ 36) &&
      (List.range ((o + n - 1) / 4096 + 1 - o / 4096)).all fun i => !(deviceOwned s ((o / 4096 + i) * 4096))
  | some (some _, o) => decide (o + n ≤ 0x1A00000)

/-- DRAM lines that an access touches, as offsets. -/
def coreLineList (a n : Nat) : List Nat :=
  if a < 2 ^ 36 && 0 < n then (List.range ((a + n - 1) / 64 + 1 - a / 64)).map fun i => (a / 64 + i) * 64 else []

/-- An access would take a link that is down (R331): to a stack, or to the other hub's SRAM. -/
def coreCut (s : State) (core a n : Nat) : Bool :=
  (coreLineList a n).any (fun o => !(hubReach s (core / 8) o)) ||
  match coreTarget a with
  | some (some h, _) => h != core / 8 && !(linkUp s 12)
  | _ => false

/-- What an access does once every line of it has been issued (R278, R306). -/
def coreDo (s : State) (core a : Nat) (op : CoreOp) : State :=
  let n := coreLen op
  match coreTarget a with
  | none => s
  | some (none, o) =>
    match op with
    | .load _ => toGuest s (if dramBadIn s o n then .coreFault core true else .coreData core (dramRead s o n))
    | .store d => toGuest (dramWrite s o d) (.coreData core [])
  | some (some h, o) =>
    match op with
    | .load _ => toGuest s (if n ≠ 0 && sramBad s h o n then .coreFault core true else .coreData core (sramRead s h o n))
    | .store d => toGuest (sramWrite s h o d) (.coreData core [])

/-- The cap of a core as it is in force (R37) holds its next line (R469): it has had its lines of this window. -/
def coreCapped (s : State) (core : Nat) : Bool :=
  let cap := tget s.mem.coreCaps core 0
  cap != 0 && decide (cap ≤ tget s.mem.coreLines core 0)

/-- A line of a core's access can be issued: its cap admits it, its queue has room and the controller runs (R280, R469). -/
def coreRoom (s : State) (core o : Nat) : Bool :=
  !(coreCapped s core) && roomFor (s.queue (queueOf o)) (12 + core / 8) && ctlUp s (stackOf o)

/-- A line of a core's access issued and counted against the core's cap. -/
def coreLine (s : State) (core o : Nat) (write : Bool) : State :=
  let s1 := { s with mem := { s.mem with coreLines := tput s.mem.coreLines core (tget s.mem.coreLines core 0 + 1) } }
  enqueue s1 o write (12 + core / 8) (0x30000 + core)

/-- Lines of an access issued in order until one has to wait; how many are left. -/
def coreIssue (s : State) (core : Nat) (write : Bool) : List Nat → State × Nat
  | [] => (s, 0)
  | o :: r => if coreRoom s core o then coreIssue (coreLine s core o write) core write r else (s, r.length + 1)

/-- An access writes. -/
def coreWrites : CoreOp → Bool
  | .load _ => false
  | .store _ => true

/-- An access from its line `done` on: it takes place when its last line is issued, and is held where one has to wait (R469). -/
def coreAdmit (s : State) (core a : Nat) (op : CoreOp) (done : Nat) : State :=
  let lines := coreLineList a (coreLen op)
  let p := coreIssue s core (coreWrites op) (lines.drop done)
  if p.2 = 0 then coreDo p.1 core a op
  else { p.1 with mem := { p.1.mem with coreHeld := p.1.mem.coreHeld ++ [(core, a, op, lines.length - p.2)] } }

/-- An application core's load or store (R278): an access fault outside the ranges, on what the device owns and over a link that is down
(R331, log entry 136, DEDUCED); lines of DRAM that the core's cap holds (R469), or that come behind such lines of the core, wait. The core windows
have commands of their own (R205). -/
def coreAccess (s : State) (core a : Nat) (op : CoreOp) : State :=
  let n := coreLen op
  if !(s.dieUp (4 + core / 8)) || s.dev.st = .off || n = 0 || (0xF000000000 ≤ a && a < 0xF004000000) then s
  else if !(coreReach s a n) || coreCut s core a n then toGuest s (.coreFault core false)
  else if !(coreLineList a n).isEmpty && s.mem.coreHeld.any (fun c => c.1 == core) then
    { s with mem := { s.mem with coreHeld := s.mem.coreHeld ++ [(core, a, op, 0)] } }
  else coreAdmit s core a op 0

/-! ## Counting windows (R37, R293, R296, R339, R469) -/

/-- The masters of a stack that are counted: the fixed ones and those that a sector holds. -/
def masters (s : State) (n : Nat) : List Nat := (List.range 48).filter fun m => m < 16 || s.num 0x3412 (48 * n + m) != 0xFF

/-- The window that closes: masters that end it over budget are counted, and every count returns to zero. -/
def closeWindow (s : State) : State :=
  let spent := (List.range 4).flatMap fun n => (masters s n).filterMap fun m => if issuedLines s n m < share s n m then none else some (48 * n + m)
  let s1 := spent.foldl (fun a k => a.count32 0x3431 k 1) s
  { s1 with mem := { s1.mem with counts := [], coreLines := [] }, chord := { s1.chord with fw := { s1.chord.fw with display := 0, codec := 0 } } }

/-- Budgets and ranges take effect as they are written now: the masters' shares, the sectors', the guest's limits, the cores' caps and the range
entries (R37, R296). -/
def takeBudgets (s : State) : State :=
  let mins := (List.range 4).flatMap fun n => (List.range 15).map fun m => (16 * n + m, s.num 0x3410 (16 * n + m))
  let rs := (List.range 16).map fun i => BitVec.ofNat 128 (ofBytes (slice (s.octs 0x3420 i) 0 16))
  let bw := (s.sectors.filter fun p => p.2.st != .free).flatMap fun p => (List.range 4).map fun n => (4 * p.1 + n, recShare p.2.record n)
  let caps := (List.range 16).map fun c => (c, s.num 0x4C03 c)
  { s with mem := { s.mem with masters := mins, ranges := rs, bw := bw, coreCaps := caps },
           chord := { s.chord with fw := { s.chord.fw with limits := s.num 0x4812 0 } } }

/-- The guest's requests that waited are admitted in order while their limits last and the queues have room (R280, R339). -/
def resumeGuest (s : State) : State :=
  let w := s.chord.fw.waiting
  w.foldl (fun a e =>
    if rateOk a e.line && guestRoom a e.line then guestAdmit a e
    else { a with chord := { a.chord with fw := { a.chord.fw with waiting := a.chord.fw.waiting ++ [e] } } })
    { s with chord := { s.chord with fw := { s.chord.fw with waiting := [] } } }

/-- The cores' requests that were held go on in order (R469); one whose path is lost takes an access fault (R331). -/
def resumeCores (s : State) : State :=
  let w := s.mem.coreHeld
  w.foldl (fun a e =>
    if coreCut a e.1 e.2.1 (coreLen e.2.2.1) then toGuest a (.coreFault e.1 false)
    else if a.mem.coreHeld.any (fun c => c.1 == e.1) then { a with mem := { a.mem with coreHeld := a.mem.coreHeld ++ [e] } }
    else coreAdmit a e.1 e.2.1 e.2.2.1 e.2.2.2) { s with mem := { s.mem with coreHeld := [] } }

/-- What waits at the controllers' ingress is accepted as far as the queues have room (R280): lines of engines and agents, of the receive write
buffers, the guest's requests and the cores'. -/
def resumeAll (s : State) : State := resumeCores (resumeGuest (drainIn (pullIngress s)))

/-- `REGULATOR_WINDOW` (R293): no effect but once at the opening of a window. -/
def regulatorWindow (s : State) : State :=
  if s.now % 1024 ≠ 0 || s.dev.st = .off || s.mem.window = some (s.now / 1024) then s
  else
    let s1 := takeBudgets (closeWindow s)
    resumeAll { s1 with mem := { s1.mem with window := some (s.now / 1024) } }

/-- `REGULATOR_WINDOW` (R293). -/
def execRegulatorWindow (s : State) : Res := ok (regulatorWindow s)

/-! ## Issue (R282, R285) -/

/-- A request taken from its queue and served (R282, R284, R293). -/
def issueAt (s : State) (n pc i : Nat) (r : QReq) : State :=
  let k := 32 * n + pc
  let q := s.queue k
  afterServe (serve (countLines (s.setQueue k (q.take i ++ q.drop (i + 1))) n r.master 1) r.off) (bankOf r.off)

/-- `MEMCTL_ISSUE` (R282): no effect on an empty queue, or while a refresh that can wait no longer goes first (R285). -/
def memctlIssue (s : State) (n pc : Nat) : State :=
  let q := s.queue (32 * n + pc)
  if refUrgent s n pc then s
  else match nextIssue s n q with
    | none => s
    | some i => match q[i]? with
      | none => s
      | some r => resumeAll (issueAt s n pc i r)

/-- `MEMCTL_ISSUE` (R282). -/
def execMemctlIssue (n : Fin 4) (pc : Fin 32) (s : State) : Res := ok (memctlIssue s n.val pc.val)


/-! ## Panic (R289, R290) -/

/-- Bytes in a hub's receive write buffer (R354). -/
def bufferFill (s : State) (hub : Nat) : Nat := 64 * (s.sense.inbuf.filter fun l => l.hub == hub).length

/-- What the buffer of a panic input can hold (R289, R354). -/
def panicSize (i : Nat) : Nat := if i = 2 then 2 ^ 19 else 2 ^ 20

/-- The bytes in the buffer of a panic input (R289). -/
def panicFill (s : State) (i : Nat) : Nat := if i = 2 then scanFill s else bufferFill s i

/-- What an event on a panic input reports: of the scan-out buffer, how far the displays, which lie outside the block, have drained it (in
percent). Log entry 147 (DESIGN CHOICE). -/
def panicReport (s : State) (i level : Nat) : State := if i = 2 then drainScan s (level * 2 ^ 19 / 100) else s

/-- A panic input. -/
def State.panicIn (s : State) (i : Nat) : Panic := lget s.mem.panics i { level := 0, on := false, since := 0, told := false }

/-- A panic input replaced. -/
def State.setPanic (s : State) (i : Nat) (p : Panic) : State := { s with mem := { s.mem with panics := lset s.mem.panics i p } }

/-- The buffer of an input stands past its mark: at or above it, or for the scan-out buffer at or below. -/
def pastMark (s : State) (i : Nat) : Bool :=
  let m := s.num 0x3440 i
  if i = 2 then decide (100 * panicFill s i ≤ m * panicSize i) else decide (m * panicSize i ≤ 100 * panicFill s i)

/-- The level of an input kept as it is now. -/
def noteLevel (s : State) (i : Nat) : State := s.setPanic i { s.panicIn i with level := panicFill s i }

/-- `PANIC_ENTER` (R289): no effect in panic or while the level is not past the mark. -/
def panicEnter (s0 : State) (i reported : Nat) : State :=
  let s := panicReport s0 i reported
  if (s.panicIn i).on || !(pastMark s i) then noteLevel s i
  else (s.setPanic i { level := panicFill s i, on := true, since := s.now, told := false }).count32 0x3441 i 1

/-- `PANIC_ENTER` (R289). -/
def execPanicEnter (i : Fin 3) (level : Nat) (s : State) : Res := ok (panicEnter s i.val level)

/-- The level has crossed back by 10 points (R289). -/
def backTen (s : State) (i : Nat) : Bool :=
  let m := s.num 0x3440 i
  if i = 2 then decide ((m + 10) * panicSize i ≤ 100 * panicFill s i) else decide (100 * panicFill s i + 10 * panicSize i ≤ m * panicSize i)

/-- `PANIC_EXIT` (R289): the time in panic is added up. -/
def panicExit (s0 : State) (i reported : Nat) : State :=
  let s := panicReport s0 i reported
  let p := s.panicIn i
  if !p.on || !(backTen s i) then noteLevel s i
  else (s.setPanic i { p with level := panicFill s i, on := false }).count64 0x3442 i (s.now - p.since)

/-- `PANIC_EXIT` (R289). -/
def execPanicExit (i : Fin 3) (level : Nat) (s : State) : Res := ok (panicExit s i.val level)

/-- `PANIC_SUSTAINED` (R290): once in a panic that has lasted 100 us; the fault goes to the Meridian of the master's half. -/
def panicSustained (s : State) (i : Nat) : State :=
  let p := s.panicIn i
  if !p.on || p.told || s.now < p.since + 100000 then s
  else
    let seat := if i = 0 then 4 else 5
    let s1 := dieFault (s.setPanic i { p with told := true }) 0x16 i seat
    nimWarn s1 seat 0x0103 (toBytes 1 i ++ toBytes 8 (s.now - p.since))

/-- `PANIC_SUSTAINED` (R290). -/
def execPanicSustained (i : Fin 3) (s : State) : Res := ok (panicSustained s i.val)

end Sys2Proof.Machine
end

