-- ==== Sys2Proof/Machine/Integrity.lean ====
section
/-! DEFINITION. Stored-data protection (R301-R318): scrubbers, corrective write-backs, spares, the lap limits and `INT_PROBE`. -/

namespace Sys2Proof.Machine

/-- The number of a store's scrubber: stacks from 0, hub SRAMs from 4, local stores from 6. -/
def storeKey : Store → Nat
  | .dram n => n.val
  | .hubSram h => 4 + h.val
  | .localStore f => 6 + f

/-- Lines of a store. -/
def storeLines : Store → Nat
  | .dram _ => 2 ^ 28
  | .hubSram _ => 524288
  | .localStore _ => 49152

/-- The die that holds a store. -/
def storeSeat : Store → Nat
  | .dram n => n.val
  | .hubSram h => 4 + h.val
  | .localStore f => dieOf f

/-- The code of a store in `INT_LAST_EVENT` and `NIM_SCRUB_LAP`, with its index (R316, R462). -/
def storeCode : Store → Nat × Nat
  | .dram n => (0, n.val)
  | .localStore f => (1, f % 128)
  | .hubSram h => (2, h.val)

/-- A scrubber's rate allows a read of a line now (R308): of a stack one in each interval in the line's pseudo-channel, of a local store one in 1,024
of its Facet's cycles, of a hub's SRAM one in 1,024 cycles of its fabric at 1,600 MHz. -/
def scrubPaced (s : State) (st : Store) (line : Nat) : Bool :=
  match st with
  | .dram n => match tfind s.mem.scrubbed (queueOf (2 ^ 34 * n.val + 64 * line)) with
    | none => true
    | some t => decide (t + s.num 0x3808 0 ≤ s.now)
  | .localStore f => match (s.scrub (storeKey st)).last with
    | none => true
    | some t => decide (1024000 ≤ (s.now - t) * facetClock s f)
  | .hubSram _ => match (s.scrub (storeKey st)).last with
    | none => true
    | some t => decide (t + 640 ≤ s.now)

/-- The store has an idle cycle for its scrubber (R307): its pseudo-channel holds no request. -/
def scrubIdle (s : State) (st : Store) (line : Nat) : Bool :=
  match st with
  | .dram n => (s.queue (queueOf (2 ^ 34 * n.val + 64 * line))).isEmpty
  | _ => true

/-- The line that a scrubber reads next, if it can read one now (R307, R308): the lowest that its lap has not read. A stack's scrubber passes over
lines whose pseudo-channel has had its read or holds requests, but never goes more than 128 lines, four of each pseudo-channel, beyond the lowest. Log
entry 88 (DEDUCED). -/
def scrubLine (s : State) (st : Store) : Option Nat :=
  let x := s.scrub (storeKey st)
  let may (l : Nat) : Bool := scrubPaced s st l && scrubIdle s st l
  match st with
  | .dram _ => ((List.range 128).map (x.next + ·)).find? fun l => decide (l < storeLines st) && !(x.ahead.contains l) && may l
  | _ => if may x.next then some x.next else none

/-- The latest corrections kept for a store: 256, the oldest dropped (R310). -/
def noteCorrection (l : List (Nat × Nat)) (a lap : Nat) : List (Nat × Nat) :=
  let m := l.filter (fun p => p.1 != a) ++ [(a, lap)]
  m.drop (m.length - 256)

/-- A correction that the scrubber makes (R310): a line qualifies when the last lap corrected it too, a local-store word when this lap
has already. Log entry 89 (DEDUCED). -/
def scrubCorrected (s : State) (st : Store) (a : Nat) : State :=
  let k := storeKey st
  let x := s.scrub k
  let again := match st with
    | .dram _ => x.recent.any fun p => p.1 == a && p.2 + 1 == x.lap
    | .localStore _ => x.recent.any fun p => p.1 == a && p.2 == x.lap
    | .hubSram _ => false
  let s1 := s.setScrub k { x with recent := noteCorrection x.recent a x.lap }
  if again then qualify s1 k a else s1

/-- A local-store count of a Facet raised, holding at its end (R316). -/
def lsCount (s : State) (f lo width : Nat) : State :=
  let v := s.num (0x3810 + dieOf f) (f % 128)
  if nbits v lo width = 2 ^ width - 1 then s else s.setNum (0x3810 + dieOf f) (f % 128) (v + 2 ^ lo)

/-- What a code finds in a line that anyone reads (R301, R303, R310): a correction is counted and schedules its write-back, an error that cannot
be corrected poisons the line and is an integrity event. -/
def codeFound (s : State) (st : Store) (line word : Nat) (found : EccResult) : State :=
  match st with
  | .dram n => dramFound s (2 ^ 34 * n.val + 64 * line) found
  | .localStore f =>
    match found with
    | .clean => s
    | .corrected => (scrubCorrected (lsCount s f 16 16) st (8 * line + word)).modFacet f fun x => { x with wb := x.wb ++ [line] }
    | .uncorrectable =>
      let s1 := (lsCount s f 8 8).modFacet f fun x => lsSetPoison x line true
      qualify (integrityEvent s1 (dieOf f) 1 (64 * line)) (storeKey st) (8 * line + word)
  | .hubSram h =>
    let k := storeKey st
    match found with
    | .clean => s
    | .corrected =>
      let s1 := s.count64 0x3818 h.val 1
      s1.setScrub k { s1.scrub k with wb := (s1.scrub k).wb ++ [line] }
    | .uncorrectable =>
      let s1 := s.count64 0x3819 h.val 1
      integrityEvent (sramSetPoison s1 h.val line) (4 + h.val) 2 (64 * line)

/-- What a scrubber finds in a line (R303, R307, R310): its reads of a stack count as activates, and its corrections of a DRAM line by lap. -/
def scrubFound (s : State) (st : Store) (line word : Nat) (found : EccResult) : State :=
  match st with
  | .dram n =>
    let o := 2 ^ 34 * n.val + 64 * line
    let s1 := codeFound (afterServe (serve s o) (bankOf o)) st line word found
    if found = .corrected then scrubCorrected s1 st (o / 64) else s1
  | _ => codeFound s st line word found

/-- The last completed laps of the local stores of a Prism (R316). -/
def lsLaps (s : State) (d : Nat) : Nat := lmax ((List.range 72).map fun i => (s.scrub (6 + 128 * d + i)).took)

/-- A lap completed is reported (R308, R316). -/
def scrubLap (s : State) (st : Store) (t : Nat) : State :=
  match st with
  | .dram n => s.setNum 0x3802 n.val t
  | .hubSram h => s.setNum 0x381A h.val t
  | .localStore f => s.setNum 0x3814 (dieOf f) (lsLaps s (dieOf f))

/-- A store can be scrubbed: its die runs, or for a stack, which is trained, its controller (R21). -/
def scrubs (s : State) (st : Store) : Bool :=
  s.dev.st != .off && match st with
    | .dram n => ctlUp s n.val && nbit (s.num 0x3400 n.val) 0
    | .localStore f => s.dieUp (dieOf f) && validSite f
    | .hubSram h => s.dieUp (4 + h.val)

/-- The lowest line that a lap has yet to read once it has read those `ahead` of `n`, and what remains ahead of it. -/
def lapNext : List Nat → Nat → Nat × List Nat
  | [], n => (n, [])
  | a :: r, n => if a = n then lapNext r (n + 1) else (n, a :: r)

/-- A line put among others in ascending order. -/
def putAsc (a : Nat) : List Nat → List Nat
  | [] => [a]
  | b :: r => if a ≤ b then a :: b :: r else b :: putAsc a r

/-- The scrubber has read a line; the last line of a store ends its lap. -/
def scrubNext (s : State) (st : Store) (line : Nat) : State :=
  let k := storeKey st
  let x := s.scrub k
  let start := if x.next = 0 && x.ahead.isEmpty then s.now else x.start
  let p := lapNext (putAsc line x.ahead) x.next
  let s1 := match st with
    | .dram n => { s with mem := { s.mem with scrubbed := tput s.mem.scrubbed (queueOf (2 ^ 34 * n.val + 64 * line)) s.now } }
    | _ => s
  if p.1 < storeLines st then s1.setScrub k { x with next := p.1, ahead := p.2, start := start, last := some s.now }
  else scrubLap (s1.setScrub k { x with next := 0, ahead := [], start := start, last := some s.now, lap := x.lap + 1, took := s.now - start, told := false }) st (s.now - start)

/-- `SCRUB_READ` (R307): no effect before its rate allows it or while its store has no idle cycle. -/
def scrubRead (s : State) (st : Store) (found : EccResult) (word : Nat) : State :=
  if !(scrubs s st) then s
  else match scrubLine s st with
    | none => s
    | some l => scrubNext (scrubFound s st l word found) st l

/-- `SCRUB_READ` (R307). -/
def execScrubRead (st : Store) (found : EccResult) (word : Fin 8) (s : State) : Res := ok (scrubRead s st found word.val)

/-- `CORRECTIVE_WRITE_BACK` (R303, R307): the corrected line is written where it stands, which changes no data; a newer write has already
discarded it. `addr` is a DRAM offset, or an address of the store. -/
def writeBack (s : State) (st : Store) (addr : Nat) : State :=
  let k := storeKey st
  let x := s.scrub k
  let s1 := s.setScrub k { x with wb := x.wb.filter (· != addr / 64) }
  match st with
  | .dram _ => if x.wb.contains (addr / 64) then afterServe (serve s1 addr) (bankOf addr) else s
  | .hubSram _ => if x.wb.contains (addr / 64) then s1 else s
  | .localStore f => if (s.facet f).wb.contains (addr / 64) then s.modFacet f fun y => { y with wb := y.wb.filter (· != addr / 64) } else s

/-- `CORRECTIVE_WRITE_BACK` (R307). -/
def execCorrectiveWriteBack (st : Store) (addr : Nat) (s : State) : Res := ok (writeBack s st addr)

/-- A row added to the pending repairs of a stack, once (R312). -/
def pendRepair (s : State) (n row : Nat) : State :=
  let l := tget s.mem.repair n []
  if l.contains row then s else { s with mem := { s.mem with repair := tput s.mem.repair n (l ++ [row]) } }

/-- `REMAP_COPY` (R310-R312): a location that qualifies takes a spare, its poison with it; no effect on any other. `addr` is a DRAM offset,
or a local-store address. -/
def remapCopy (s : State) (st : Store) (addr : Nat) : State :=
  let k := storeKey st
  let x := s.scrub k
  let take (a : Nat) : State := s.setScrub k { x with qualify := x.qualify.filter (· != a), remaps := x.remaps ++ [a] }
  let full (a : Nat) : State := qualify (s.setScrub k { x with qualify := x.qualify.filter (· != a) }) k a
  match st with
  | .dram n =>
    let a := addr / 64
    if !(x.qualify.contains a) then s
    else if 64 ≤ x.remaps.length then full a
    else pendRepair ((take a).setNum 0x3803 n.val (x.remaps.length + 1)) n.val (rowEntry (64 * a))
  | .localStore f =>
    let a := addr / 8
    if !(x.qualify.contains a) then s else if 16 ≤ x.remaps.length then full a else lsCount (take a) f 0 5
  | .hubSram _ => s

/-- `REMAP_COPY` (R310). -/
def execRemapCopy (st : Store) (addr : Nat) (s : State) : Res := ok (remapCopy s st addr)

/-- `SCRUB_LAP_LIMIT` (R309): once in a lap that has run past its limit. -/
def scrubLapLimit (s : State) (st : Store) : State :=
  let k := storeKey st
  let x := s.scrub k
  let c := storeCode st
  if (x.next = 0 && x.ahead.isEmpty) || x.told || s.now ≤ x.start + 1000000 * s.num 0x3809 c.1 then s
  else nimWarn (s.setScrub k { x with told := true }) (storeSeat st) 0x0101 (toBytes 1 c.1 ++ toBytes 1 c.2 ++ toBytes 8 (s.now - x.start))

/-- `SCRUB_LAP_LIMIT` (R309). -/
def execScrubLapLimit (st : Store) (s : State) : Res := ok (scrubLapLimit s st)

/-! ## `INT_PROBE` (R315) -/

/-- The body's own check of `INT_PROBE`. -/
def probeCheck (b : BitVec 384) : Nat :=
  if fld b 0 224 ≠ 0 then 0x0102
  else if fld b 224 32 = 0 || 16777216 < fld b 224 32 || fld b 320 64 % 64 ≠ 0 || fld b 256 64 % 64 ≠ 0 then 0x0401 else 0

/-- `INT_PROBE` (R315): lines read without consuming them. -/
def intProbe (s : State) (h : Nat) : State :=
  runCmd s h 0x90 fun s i x =>
    let va := fld x.body 320 64
    let lines := fld x.body 224 32
    let offs := (List.range lines).map fun j => (va + 64 * j, paged x.pages (va + 64 * j))
    let bad := (offs.filter fun p => dramBad s p.2).map Prod.fst
    let s1 := offs.foldl (fun a p => engineLines a p.2 1 false 14 (engineSrc 14)) s
    let s2 := outWrite s1 x (fld x.body 256 64) (toBytes 8 (bad.headD (2 ^ 64 - 1)) ++ toBytes 4 bad.length ++ toBytes 4 0)
    done (countPaged s2 x.pages (fld x.body 256 64) 16 14 true) i 0 (BitVec.ofNat 32 bad.length)

/-- `INT_PROBE` (R315). -/
def execIntProbe (h : Nat) (s : State) : Res := ok (intProbe s h)

end Sys2Proof.Machine
end

