-- ==== Sys2Proof/Machine/Streams.lean ====
section
/-! DEFINITION. CSI-2 ingress and output (R342-R361): the stream table, frames and their records, the receive write buffers, and
`STR_TX`. -/

namespace Sys2Proof.Machine

/-! ## The stream table (R344-R346) -/

/-- Stream entry `n` as a number. -/
def State.stream (s : State) (n : Nat) : Nat := ofBytes (slice (s.octs 0x2100 n) 0 32)

/-- The entry is enabled. -/
def strOn (e : Nat) : Bool := nbit e 0
/-- Its port. -/
def strPort (e : Nat) : Nat := nbits e 58 4
/-- Its virtual channel. -/
def strVc (e : Nat) : Nat := nbits e 62 4
/-- Its data type. -/
def strDt (e : Nat) : Nat := nbits e 66 6
/-- Its sector. -/
def strSector (e : Nat) : Nat := nbits e 78 6
/-- How its bytes are unpacked. -/
def strUnpk (e : Nat) : Nat := nbits e 84 4
/-- Its slots. -/
def strSlots (e : Nat) : Nat := nbits e 92 4 + 1
/-- Its expected bytes in a line. -/
def strWc (e : Nat) : Nat := nbits e 96 16
/-- Its line stride in bytes. -/
def strStride (e : Nat) : Nat := 64 * nbits e 112 16
/-- Its expected lines. -/
def strLines (e : Nat) : Nat := nbits e 128 16
/-- Its timeout in ns. -/
def strTmo (e : Nat) : Nat := 1000 * nbits e 144 16
/-- Its notify object. -/
def strNotify (e : Nat) : Nat := nbits e 160 32
/-- Its ring. -/
def strRing (e : Nat) : Nat := nbits e 192 64
/-- Bytes of a slot (R345). -/
def strSlotBytes (e : Nat) : Nat := 64 + strLines e * strStride e

/-- A reserved field of an entry is not zero (R12, R344). -/
def strReserved (e : Nat) : Bool := !(nbits e 1 57 == 0 && nbits e 72 6 == 0 && nbits e 88 4 == 0)

/-- Check 1 of R345. -/
def strShape (s : State) (e : Nat) : Bool :=
  !(strReserved e) && decide (0x10 ≤ strDt e) && decide (strUnpk e ≤ 3) && decide (2 ≤ strSlots e) &&
  decide (1 ≤ strWc e) && decide (1 ≤ nbits e 112 16) && decide (nbits e 112 16 ≤ 1024) && decide (1 ≤ strLines e) &&
  decide (strRing e < 2 ^ 48) && strRing e % 64 == 0 && nbit (s.num 0x2000 (strPort e)) 0

/-- The groups that packed bytes come in, and the bytes that each gives (R344, R345). -/
def strGroup (unpk : Nat) : Nat × Nat :=
  match unpk with
  | 1 => (5, 8) | 2 => (3, 4) | 3 => (7, 8) | _ => (1, 1)

/-- Check 3 of R345. -/
def strUnpackOk (s : State) (e : Nat) : Bool :=
  let g := strGroup (strUnpk e)
  (s.sec (strSector e)).st == .active && strWc e % g.1 == 0 && decide (strWc e / g.1 * g.2 ≤ strStride e)

/-- The status of a write that enables entry `n`, and the ring's pages (R345). -/
def strCheck (s : State) (n e : Nat) : Nat × List (Nat × Nat) :=
  if 128 ≤ n || !(strShape s e) then (0x0801, [])
  else if (List.range 128).any fun k => k != n && strOn (s.stream k) && strPort (s.stream k) == strPort e && strVc (s.stream k) == strVc e &&
      strDt (s.stream k) == strDt e then (0x0802, [])
  else if !(strUnpackOk s e) then (0x0803, [])
  else match latchPages s (strSector e) (strRing e) (strSlots e * strSlotBytes e) true with
    | none => (0x0804, [])
    | some pages => if strNotify e = 0 || refStatus s (strSector e) (strNotify e) = 0 then (0, pages) else (0x0805, [])

/-- A write of a stream entry: its status, and the state after it (R345, R346). Log entry 92 (DEDUCED). -/
def strWrite (s : State) (n : Nat) (value : List Byte) : Nat × State :=
  let old := s.stream n
  let e := ofBytes value
  if value.length ≠ 32 || 128 ≤ n then (0x0801, s)
  else if strOn old then
    if e + 1 ≠ old then (0x0806, s)
    else if (tfind s.sense.frames n).isSome then (0, { s with sense := { s.sense with stopping := n :: s.sense.stopping.filter (· != n) } })
    else (0, s.setOcts 0x2100 n value)
  else if strReserved e then (0x0801, s)
  else if strOn e then
    let c := strCheck s n e
    if c.1 ≠ 0 then (c.1, s)
    else
      let s1 := (s.setOcts 0x2100 n value).setNum 0x2101 n 0
      -- frames of an earlier enabling that still wait for their records no longer count (R348)
      let closing := s1.sense.closing.map fun p => if p.1 = n then (n, { p.2 with old := true }) else p
      (0, { s1 with sense := { s1.sense with ringPages := tput s1.sense.ringPages n (pageOffsets c.2), closing := closing } })
  else (0, s.setOcts 0x2100 n value)

/-- `STR_SET` (R360): from a root context only. -/
def strSet (s : State) (h : Nat) : State :=
  runCmd s h 0xB0 fun s i x =>
    if x.sector ≠ 0 then done s i 0x0801 0
    else
      let w := strWrite s (fld x.body 0 7) (slice x.input 0 32)
      done w.2 i w.1 0

/-- `STR_SET` (R360). -/
def execStrSet (h : Nat) (s : State) : Res := ok (strSet s h)

/-! ## Frame records (R352) -/

/-- Flag bits of a frame record. -/
def flagFew : Nat := 2
/-- A line longer than expected. -/
def flagLong : Nat := 4
/-- A line shorter than expected. -/
def flagShort : Nat := 8
/-- Lines beyond those expected. -/
def flagXl : Nat := 16
/-- Closed by the next frame start. -/
def flagNofe : Nat := 32
/-- A bad header on the port. -/
def flagHdr : Nat := 64
/-- Lines discarded for a full buffer. -/
def flagOvf : Nat := 128
/-- Closed by timeout. -/
def flagTmo : Nat := 256

/-- The record of a frame of entry `n`. -/
def frameRecord (n : Nat) (f : Frame) (final : Bool) : List Byte :=
  let few := if final && f.wrote < strLines f.raw then flagFew else 0
  toBytes 64 (pack [(448, 64, f.tfs), (384, 64, if final then f.tfe else 0), (320, 64, f.fseq), (304, 16, f.fnum), (288, 16, f.wrote),
    (272, 16, f.ncrc), (256, 16, f.fbad), (32, 7, n), (0, 32, (f.flags ||| few) + b2n final)])

/-- The DRAM offset of byte `i` of a frame's slot. -/
def slotAt (f : Frame) (i : Nat) : Nat :=
  areaAt f.pages (strRing f.raw % 4096) (f.fseq % strSlots f.raw * strSlotBytes f.raw + i)

/-- The hub that serves a frame. -/
def frameHub (f : Frame) : Nat := strPort f.raw / 8

/-- Lines put in the receive write buffer of a frame's hub, in order. -/
def bufferLines (s : State) (n : Nat) (f : Frame) (first : Nat) (bytes : List Byte) : State :=
  let ls := (List.range (bytes.length / 64)).map fun k =>
    ({ hub := frameHub f, entry := n, tfs := f.tfs, off := slotAt f (first + 64 * k), data := (bytes.drop (64 * k)).take 64 } : InLine)
  drainIn { s with sense := { s.sense with inbuf := s.sense.inbuf ++ ls } }

/-- Open frames on a hub. -/
def openFrames (s : State) (hub : Nat) : Nat := (s.sense.frames.filter fun p => frameHub p.2 == hub).length

/-- The open frame of an entry replaced. -/
def setFrame (s : State) (n : Nat) (f : Frame) : State := { s with sense := { s.sense with frames := tput s.sense.frames n f } }

/-! ## Opening and closing (R346, R348-R350) -/

/-- The open frame of entry `n` closes at a stamp; an entry whose disable waited for this becomes disabled (R346). -/
def closeFrame (s : State) (n : Nat) (flags stamp : Nat) : State :=
  match tfind s.sense.frames n with
  | none => s
  | some f =>
    let s1 := { s with sense := { s.sense with frames := tdel s.sense.frames n, closing := s.sense.closing ++ [(n, { f with flags := f.flags ||| flags, tfe := stamp })],
                                               stopping := s.sense.stopping.filter (· != n) } }
    if s.sense.stopping.contains n then s1.setOcts 0x2100 n (toBytes 32 (f.raw / 2 * 2)) else s1

/-- A frame whose timeout has come closes at that instant (R350). -/
def expireFrame (s : State) (n : Nat) : State :=
  match tfind s.sense.frames n with
  | none => s
  | some f => if strTmo f.raw ≠ 0 && decide (f.tfs + strTmo f.raw ≤ s.now) then closeFrame s n flagTmo (f.tfs + strTmo f.raw) else s

/-- A port is in use: its PHY has trained and its hub runs. -/
def portUp (s : State) (port : Nat) : Bool := nbit (s.num 0x2010 port) 0 && s.dieUp (4 + port / 8) && s.dev.st != .off

/-- The enabled entries of a port's virtual channel. -/
def onChannel (s : State) (port vc : Nat) : List Nat :=
  (List.range 128).filter fun n => strOn (s.stream n) && strPort (s.stream n) == port && strVc (s.stream n) == vc

/-- A frame start on one entry (R348, R350). -/
def startFrame (s : State) (n fnum : Nat) : State :=
  let s1 := closeFrame (expireFrame s n) n flagNofe s.now
  let e := s1.stream n
  let hub := strPort e / 8
  if !(strOn e) then s1
  else if 64 ≤ openFrames s1 hub then s1.count32 0x2014 hub 1
  else
    let waiting := (s1.sense.closing.filter fun p => p.1 == n && p.2.raw == e && !p.2.old).length
    let f : Frame := { raw := e, pages := tget s1.sense.ringPages n [], tfs := s.now, fseq := (s1.num 0x2101 n + waiting) % 2 ^ 64, fnum := fnum % 65536,
                       line := 0, wrote := 0, ncrc := 0, fbad := 0xFFFF, flags := 0, tfe := 0, old := false }
    setFrame (bufferLines s1 n f 0 (frameRecord n f false)) n f

/-- `FRAME_START` (R348). -/
def frameStart (s : State) (port vc fnum : Nat) : State :=
  if !(portUp s port) then s else (onChannel s port vc).foldl (fun a n => startFrame a n fnum) s

/-- `FRAME_START` (R348). -/
def execFrameStart (port vc : Fin 16) (fnum : Nat) (s : State) : Res := ok (frameStart s port.val vc.val fnum)

/-- `FRAME_END` (R350): closes the open frames of the channel, or is counted as unmatched. -/
def frameEnd (s : State) (port vc : Nat) : State :=
  if !(portUp s port) then s
  else
    let s1 := (onChannel s port vc).foldl expireFrame s
    let es := (onChannel s1 port vc).filter fun n => (tfind s1.sense.frames n).isSome
    if es.isEmpty then s1.count64 0x2012 port 1 else es.foldl (fun a n => closeFrame a n 0 s.now) s1

/-- `FRAME_END` (R350). -/
def execFrameEnd (port vc : Fin 16) (s : State) : Res := ok (frameEnd s port.val vc.val)

/-- `FRAME_TIMEOUT` (R350): no effect before the instant. -/
def execFrameTimeout (entry : Nat) (s : State) : Res := ok (expireFrame s entry)

/-- Line-start and line-end short packets are counted and otherwise ignored (R342). Log entry 90 (DESIGN CHOICE). -/
def countShort (s : State) (k : Nat) : State := { s with sense := { s.sense with shorts := tput s.sense.shorts k (tget s.sense.shorts k 0 + 1) } }

/-- `LINE_START` (R342). -/
def execLineStart (port _vc : Fin 16) (s : State) : Res := ok (if portUp s port.val then countShort s (2 * port.val) else s)

/-- `LINE_END` (R342). -/
def execLineEnd (port _vc : Fin 16) (s : State) : Res := ok (if portUp s port.val then countShort s (2 * port.val + 1) else s)

/-! ## Lines (R344, R348, R352, R354) -/

/-- The pixels of one group of packed bytes (R344; the packing of CSI-2, log entry 16). -/
def unpackGroup (unpk : Nat) (g : List Byte) : List Nat :=
  let b (i : Nat) : Nat := (lget g i 0).toNat
  match unpk with
  | 1 => (List.range 4).map fun i => 4 * b i + nbits (b 4) (2 * i) 2
  | 2 => [16 * b 0 + b 2 % 16, 16 * b 1 + b 2 / 16]
  | _ =>
    let low := b 4 + 256 * b 5 + 65536 * b 6
    (List.range 4).map fun i => 64 * b i + nbits low (6 * i) 6

/-- A line's output bytes (R344). -/
def unpackLine (unpk : Nat) (bytes : List Byte) : List Byte :=
  if unpk = 0 then bytes
  else
    let k := (strGroup unpk).1
    (chunks k (ceilDiv bytes.length k) bytes).flatMap fun g => (unpackGroup unpk g).flatMap (toBytes 2)

/-- The bytes of a line as its slot holds them: missing bytes zero, filled with zero up to the stride and cut there (R348, R352). -/
def lineOut (e : Nat) (bytes : List Byte) : List Byte :=
  slice (unpackLine (strUnpk e) (bytes ++ List.replicate (strWc e - bytes.length) 0)) 0 (strStride e)

/-- A long packet of a captured stream (R348, R352, R354). Log entry 91 (DEDUCED). -/
def takeLine (s : State) (n : Nat) (f : Frame) (p : LongPacket) : State :=
  let e := f.raw
  let hub := frameHub f
  if 2 ^ 20 < bufferFill s hub + strStride e then
    setFrame (s.count64 0x2013 hub 1) n { f with line := f.line + 1, flags := f.flags ||| flagOvf }
  else if strLines e ≤ f.line then setFrame s n { f with flags := f.flags ||| flagXl }
  else
    let fl := (if p.bytes.length < strWc e then flagShort else 0) + (if strWc e < p.bytes.length then flagLong else 0)
    let g := { f with line := f.line + 1, wrote := f.wrote + 1, flags := f.flags ||| fl, ncrc := if p.crcOk then f.ncrc else Nat.min 0xFFFF (f.ncrc + 1),
                      fbad := if p.crcOk || f.ncrc ≠ 0 then f.fbad else f.line }
    setFrame (bufferLines s n f (64 + f.line * strStride e) (lineOut e p.bytes)) n g

/-- A packet header that cannot be corrected (R352). -/
def badHeader (s : State) (port : Nat) : State :=
  let s1 := s.count64 0x2011 port 1
  { s1 with sense := { s1.sense with frames := s1.sense.frames.map fun q => if strPort q.2.raw = port then (q.1, { q.2 with flags := q.2.flags ||| flagHdr }) else q } }

/-- `LONG_PACKET` (R348): an unmatched one is counted and discarded. -/
def longPacket (s : State) (port : Nat) (p : LongPacket) : State :=
  if !(portUp s port) then s
  else
    let s1 := (onChannel s port p.vc).foldl expireFrame s
    if !p.hdrOk then badHeader ((s1.sense.frames.map Prod.fst).foldl expireFrame s1) port
    else match (onChannel s1 port p.vc).find? fun n => strDt (s1.stream n) == p.dt with
      | none => s1.count64 0x2012 port 1
      | some n => match tfind s1.sense.frames n with
        | none => s1.count64 0x2012 port 1
        | some f => takeLine s1 n f p

/-- `LONG_PACKET` (R348). -/
def execLongPacket (port : Fin 16) (p : LongPacket) (s : State) : Res := ok (longPacket s port.val p)

/-! ## Final records (R351) -/

/-- `FRAME_RECORD_FINAL` (R351): the oldest closed frame of an entry, once its own line writes are globally complete, its queue has room
and its hub reaches it. A set for a unit that the hub does not reach is lost (R331). Log entry 168 (DEDUCED). -/
def frameFinal (s : State) (n : Nat) : State :=
  match s.sense.closing.find? fun p => p.1 == n with
  | none => s
  | some (_, f) =>
    let o := slotAt f 0
    let unit := refUnit (strNotify f.raw)
    if s.sense.inbuf.any (fun l => l.entry == n && l.tfs == f.tfs) || !(hubReach s (frameHub f) o) || !(roomFor (s.queue (queueOf o)) (frameHub f)) ||
       (strNotify f.raw ≠ 0 && routeUp s (4 + frameHub f) unit && !(unitTakes s unit (0xC00 + n))) then s
    else
      let rec_ := frameRecord n f true
      let s1 := enqueue (dramLine s o rec_ none false) o true (frameHub f) (0x40000 + n)
      let next := (f.fseq + 1) % 2 ^ 64
      let i := (lfind (fun p : Nat × Frame => p.1 == n) s1.sense.closing).getD 0
      let s2 := { s1 with sense := { s1.sense with closing := s1.sense.closing.take i ++ s1.sense.closing.drop (i + 1) } }
      let s3 := s2.setOcts 0x2102 n rec_
      let s4 := if !f.old && s3.stream n / 2 = f.raw / 2 then s3.setNum 0x2101 n next else s3
      if strNotify f.raw = 0 || !(routeUp s (4 + frameHub f) unit) then s4
      else
        let v := vtSetOn (unitTook s4 unit (0xC00 + n)) (strSector f.raw) (strNotify f.raw) (next % 2 ^ 32)
        if v.1 = 0 then v.2 else v.2.count32 0x2103 n 1

/-- `FRAME_RECORD_FINAL` (R351). -/
def execFrameRecordFinal (entry : Nat) (s : State) : Res := ok (frameFinal s entry)

/-! ## Transmission (R314, R356-R358) -/

/-- The envelope of a result record (R314). -/
def envelope (payload : List Byte) (seq src : Nat) (inv : Bool) : List Byte :=
  let body := if inv then [] else payload
  let head := toBytes 24 (pack [(128, 32, body.length), (64, 64, seq), (32, 32, src), (0, 1, b2n inv)])
  head ++ toBytes 8 (crc64 (body ++ head))

/-- The configuration word of a transmit port as it has taken effect (R343). -/
def txPort (s : State) (port : Nat) : Nat := tget s.sense.txPorts port 0

/-- Check 7 of R211 for `STR_TX` (R357). -/
def txCheck (s : State) (sec : Nat) (b : BitVec 384) : Nat :=
  let port := fld b 0 2
  let wc := fld b 272 16
  let lines := fld b 256 16
  let dt := fld b 12 6
  if fld b 2 6 ≠ 0 || fld b 18 222 ≠ 0 then 0x0102
  else if !(nbit (txPort s port) 0) || s.num 0x2002 port ≠ sec then 0x0807
  else if fld b 320 64 % 64 ≠ 0 || fld b 288 32 % 64 ≠ 0 || fld b 288 32 < wc || wc = 0 || lines = 0 || dt < 0x10 || dt = s.num 0x2003 0 || 1048576 < wc * lines then 0x0808
  else if 16 ≤ (s.cmds.slots.filter fun p => p.2.st == .inflight && p.2.code == 0xB2 && fld p.2.body 0 2 == port).length then 0x0809
  else 0

/-- `STR_TX` (R356): the frame waits for its port. -/
def execStrTx (h : Nat) (s : State) : Res := ok (runCmd s h 0xB2 fun s i _ => waitOn s i)

/-- The place of a command in acceptance order (R358). -/
def txPlace (p : Nat × Slot) : Nat := (p.2.stamp * 4096 + p.2.key) * 2 ^ 64 + p.2.order

/-- The frames that a transmit port has accepted and not sent, each with its handle, those of contexts torn down among them (R224). -/
def txAccepted (s : State) (port : Nat) : List (Nat × Slot) :=
  let mine (x : Slot) : Bool := x.code == 0xB2 && fld x.body 0 2 == port
  let open_ (x : Slot) : Bool := x.cmd == .queued || x.cmd == .started || x.cmd == .waiting
  (s.cmds.slots.filter fun p => p.2.st == .inflight && mine p.2 && open_ p.2).map (fun p => (handleOf p.1 p.2, p.2)) ++
    s.cmds.torn.filter fun p => mine p.2

/-- The command that a transmit port sends next: the first accepted, by its handle; none while that has not started (R358). -/
def nextTx (s : State) (port : Nat) : Option (Nat × Slot) :=
  (sortBy txPlace (txAccepted s port)).head?.filter fun p => p.2.cmd == .waiting

/-- The record of a transmit command: its lines. -/
def txLines (s : State) (x : Slot) : List (List Byte) :=
  (List.range (fld x.body 256 16)).map fun i => pagedRead s x.pages (fld x.body 320 64 + i * fld x.body 288 32) (fld x.body 272 16)

/-- A line of the record is poisoned. -/
def txBad (s : State) (x : Slot) : Bool :=
  (List.range (fld x.body 256 16)).any fun i => pagedBad s x.pages (fld x.body 320 64 + i * fld x.body 288 32) (fld x.body 272 16)

/-- The state once a frame is sent (R313, R358): its lines counted, its envelope's sequence number taken. -/
def txSent (s : State) (port h : Nat) (x : Slot) : State :=
  let vc := fld x.body 8 4
  let k := 16 * port + vc
  let inv := txBad s x || tfind s.host.staged port == some h
  let lines := if inv then [] else txLines s x
  let env := envelope lines.flatten (s.num 0x2110 k) (0x01000000 + 256 * port + vc) inv
  let s1 := (List.range (fld x.body 256 16)).foldl (fun a j =>
    countPaged a x.pages (fld x.body 320 64 + j * fld x.body 288 32) (fld x.body 272 16) (2 + port / 2) false) s
  let s2 := s1.setNum 0x2110 k ((s.num 0x2110 k + 1) % 2 ^ 64)
  let s3 := if inv then s2.count64 0x3821 0 1 else s2
  { s3 with host := { s3.host with out := s3.host.out ++ [.csi port vc (fld x.body 12 6) (fld x.body 240 16) lines (s.num 0x2003 0) env], staged := tdel s3.host.staged port } }

/-- `STR_TX_FRAME_SEND` (R358): the port stages its next record, checks it and sends the frame; its command is done at the frame end. -/
def txSend (s : State) (port : Nat) : State :=
  match nextTx s port with
  | none => s
  | some (h, x) =>
    if !(nbit (txPort s port) 0) || !(s.dieUp (4 + port / 2)) then s
    else if (tornCmd s h 0xB2).isSome then runTorn s h x fun a => done (txSent a port h x) (slotOf h) 0 0
    else done (txSent s port h x) (slotOf h) 0 0

/-- `STR_TX_FRAME_SEND` (R358). -/
def execStrTxFrameSend (port : Fin 4) (s : State) : Res := ok (txSend s port.val)

end Sys2Proof.Machine
end

