-- ==== Sys2Proof/Machine/Plane.lean ====
section
/-! DEFINITION. Fusion bindings, calibration and the Plane engine (R362-R371, R377): sine and cosine correctly rounded (R366), lifting,
voxelising, and the instants that commands open. -/

namespace Sys2Proof.Machine

/-! ## Sine and cosine, correctly rounded (R366; log entry 9) -/

/-- The arctangent of `1/n` in units of 2^-760, by its series. -/
def atanInv (n : Nat) : Int :=
  (List.range 170).foldl (fun a k => let t : Int := ((2 ^ 760 / (n ^ (2 * k + 1) * (2 * k + 1)) : Nat) : Int); if k % 2 = 0 then a + t else a - t) 0

/-- Half of pi in units of 2^-700. -/
def halfPi : Nat := ((8 * atanInv 5 - 2 * atanInv 239) / 2 ^ 60).toNat

/-- An alternating Taylor series in units of 2^-700: the term of degree `k`, with `t2` the square of the argument. -/
def trigSeries (t2 : Nat) : Nat → Nat → Int → Int
  | 0, _, _ => 0
  | n + 1, k, term => term - trigSeries t2 n (k + 2) (term * t2 / 2 ^ 700 / ((k + 1) * (k + 2)))

/-- The sine of `t`, below half of pi, in units of 2^-700. -/
def sinFix (t : Nat) : Nat := (trigSeries (t * t / 2 ^ 700) 80 1 t).toNat

/-- The cosine of `t`, below half of pi, in units of 2^-700. -/
def cosFix (t : Nat) : Nat := (trigSeries (t * t / 2 ^ 700) 80 0 (2 ^ 700)).toNat

/-- A magnitude of at most one in units of 2^-700, not exact, rounded once to FP32. -/
def trigNum (neg : Bool) (v : Nat) : Num := decodeNum 0xA (encFloat 0xA neg (2 * v + 1) 1 (-701)).code

/-- The sine and cosine of a magnitude in units of 2^-700. -/
def trigPair (x : Nat) : Num × Num :=
  let q := x / halfPi % 4
  let t := x % halfPi
  match q with
  | 0 => (trigNum false (sinFix t), trigNum false (cosFix t))
  | 1 => (trigNum false (cosFix t), trigNum true (sinFix t))
  | 2 => (trigNum true (sinFix t), trigNum true (cosFix t))
  | _ => (trigNum true (cosFix t), trigNum false (sinFix t))

/-- The FP32 sine and cosine of a value (R366). -/
def sinCos (v : Num) : Num × Num :=
  match v with
  | .fin n m e =>
    if m = 0 then (.fin n 0 0, Num.one)
    else
      let p := trigPair (Num.scaled m e (-700))
      (if n then p.1.neg else p.1, p.2)
  | _ => (.nan, .nan)

/-! ## FP32 arithmetic of the Plane engine -/

/-- A product rounded once. -/
def fmul (a b : Num) : Num := rne32 (Num.mul a b)

/-- A sum rounded once. -/
def fadd (a b : Num) : Num := rne32 (Num.add a b)

/-- A difference rounded once. -/
def fsub (a b : Num) : Num := rne32 (Num.add a b.neg)

/-- A quotient rounded once. -/
def fdiv (a b : Num) : Num :=
  match a, b with
  | .nan, _ => .nan
  | _, .nan => .nan
  | .inf _, .inf _ => .nan
  | .inf x, .fin y _ _ => .inf (x != y)
  | .fin x _ _, .inf y => .fin (x != y) 0 0
  | .fin x m e, .fin y n f =>
    if n = 0 then (if m = 0 then .nan else .inf (x != y))
    else if m = 0 then .fin (x != y) 0 0
    else decodeNum 0xA (encFloat 0xA (x != y) m n (e - f)).code

/-- Two values in numeric order, the zeros equal; false for a NaN. -/
def numLe (a b : Num) : Bool :=
  match a, b with
  | .nan, _ => false
  | _, .nan => false
  | .inf x, .inf y => x || !y
  | .inf x, _ => x
  | _, .inf y => !y
  | .fin x m e, .fin y n f => let g := if e ≤ f then e else f; decide (Num.at (.fin x m e) g ≤ Num.at (.fin y n f) g)

/-- Strictly below, in numeric order. -/
def numLt (a b : Num) : Bool := numLe a b && !(numLe b a)

/-- A finite value. -/
def finite (a : Num) : Bool := !a.special

/-! ## Bindings (R362, R363) -/

/-- The binding `b` as a number. -/
def State.binding (s : State) (b : Nat) : Nat := ofBytes (slice (s.octs 0x2400 b) 0 128)

/-- An FP32 field of a binding. -/
def bindNum (r lo : Nat) : Num := decodeNum 0xA (nbits r lo 32)

/-- The binding is enabled. -/
def bindOn (r : Nat) : Bool := nbit r 0
/-- Its sector. -/
def bindSector (r : Nat) : Nat := nbits r 8 6
/-- Its lag. -/
def bindLag (r : Nat) : Nat := nbits r 16 4
/-- Its fusion stage. -/
def bindEntry (r : Nat) : Nat := nbits r 256 10
/-- Sensor `i` belongs to it. -/
def bindHas (r i : Nat) : Bool := decide (i < 48) && nbit r (266 + i)
/-- The cell edge in mm (R364). -/
def bindEdge (r : Nat) : Nat := 50 * (nbits r 314 4 + 1)
/-- Columns of its grid. -/
def bindGw (r : Nat) : Nat := nbits r 318 9 + 1
/-- Rows of its grid. -/
def bindGh (r : Nat) : Nat := nbits r 327 9 + 1

/-- The five areas of a binding: check tables, proposal tables and header ring, with their lengths. -/
def bindAreas (r : Nat) : List (Nat × Nat) :=
  [(nbits r 528 48, 28672), (nbits r 576 48, 28672), (nbits r 624 48, 3072), (nbits r 672 48, 3072), (nbits r 720 48, 1024)]

/-- The ranges of R362. -/
def bindShape (r : Nat) : Bool :=
  let pos (lo : Nat) : Bool := finite (bindNum r lo) && numLt Num.zero (bindNum r lo)
  let nonneg (lo : Nat) : Bool := finite (bindNum r lo) && numLe Num.zero (bindNum r lo)
  nbits r 2 6 == 0 && nbits r 14 2 == 0 && nbits r 20 236 == 0 && (List.range 4).all (fun k => nonneg (896 + 32 * k) && nonneg (768 + 32 * k)) &&
  (bindAreas r).all (fun a => a.1 % 64 == 0) && pos 496 && pos 464 && finite (bindNum r 400) && numLt (bindNum r 400) (bindNum r 432)

/-- A write of a binding: its status, and the state after it (R363). -/
def fusWrite (s : State) (b : Nat) (value : List Byte) : Nat × State :=
  let r := ofBytes value
  let areas := (bindAreas r).map fun a => latchPages s (bindSector r) a.1 a.2 true
  if value.length ≠ 128 || !(bindShape r) || (s.sec (bindSector r)).st ≠ .active || areas.any (·.isNone) then (0x0840, s)
  else
    let s1 := s.setOcts 0x2400 b value
    let pages := areas.zipIdx.foldl (fun t p => tput t (8 * b + p.2) (pageOffsets (p.1.getD []))) s1.sense.fusPages
    (0, { s1 with sense := { s1.sense with fusPages := pages } })

/-! ## Calibration (R365, R366, R374) -/

/-- The rotation of a sensor, row by row, from its parameters (R366). -/
def rotOf (p : List Word) : List Word :=
  let (sx, cx) := sinCos (fp32 (lget p 7 0))
  let (sy, cy) := sinCos (fp32 (lget p 8 0))
  let (sz, cz) := sinCos (fp32 (lget p 9 0))
  [fmul cz cy, fsub (fmul (fmul cz sy) sx) (fmul sz cx), fadd (fmul (fmul cz sy) cx) (fmul sz sx),
   fmul sz cy, fadd (fmul (fmul sz sy) sx) (fmul cz cx), fsub (fmul (fmul sz sy) cx) (fmul cz sx),
   sy.neg, fmul cy sx, fmul cy cx].map toFp32

/-- A sensor that nothing has configured: all parameters zero. -/
def Sensor.zero : Sensor :=
  { lidar := false, p := List.replicate 10 0, ref := List.replicate 10 0,
    rot := [0x3F800000, 0, 0, 0, 0x3F800000, 0, 0x80000000, 0, 0x3F800000], cinv := false, out := 0 }

/-- Sensor `i` of binding `b`. -/
def State.sensor (s : State) (b i : Nat) : Sensor := tget s.sense.sensors (48 * b + i) Sensor.zero

/-- A sensor replaced. -/
def State.setSensor (s : State) (b i : Nat) (x : Sensor) : State := { s with sense := { s.sense with sensors := tput s.sense.sensors (48 * b + i) x } }

/-- A sensor is admitted (R374). -/
def admitted (s : State) (b i : Nat) : Bool := bindHas (s.binding b) i && !(s.sensor b i).cinv && (s.sensor b i).out == 0

/-- The checks of R365 on a record. -/
def calOk (r : Nat) : Bool :=
  let p (k : Nat) : Num := decodeNum 0xA (nbits r (32 * k) 32)
  nbits r 321 191 == 0 && (List.range 10).all (fun k => finite (p k)) &&
  (if nbit r 320 then nbits r 0 128 == 0 else numLt Num.zero (p 0) && numLt Num.zero (p 1))

/-- A write of a calibration record: its status, and the state after it (R365, R374). -/
def calWrite (s : State) (b i : Nat) (value : List Byte) : Nat × State :=
  let r := ofBytes value
  if value.length ≠ 64 || 48 ≤ i || !(calOk r) then (0x0848, s)
  else
    let p := (List.range 10).map fun k => BitVec.ofNat 32 (nbits r (32 * k) 32)
    (0, (s.setOcts (0x2408 + b) i value).setSensor b i { lidar := nbit r 320, p := p, ref := p, rot := rotOf p, cinv := false, out := 0 })

/-- The current record of a sensor (R383). -/
def calNow (s : State) (b i : Nat) : List Byte :=
  let x := s.sensor b i
  toBytes 64 (pack ([(320, 1, b2n x.lidar)] ++ x.p.zipIdx.map fun w => (32 * w.2, 32, w.1.toNat)))

/-! ## Instants (R377) -/

/-- The open instant `i` of a binding. -/
def findInstant (s : State) (b i : Nat) : Option Instant := s.sense.instants.find? fun x => x.b == b && x.i == i

/-- An instant has been closed (R377-R379). -/
def wasReleased (s : State) (b i : Nat) : Bool := s.sense.released.contains (b, i)

/-- The instant that 16 bits name: the tick within 32,768 of the present one (R377). -/
def instantOf (s : State) (low : Nat) : Nat :=
  let t := s.tickNow
  let d := (low + 65536 - t % 65536) % 65536
  if d < 32768 then t + d else if 65536 ≤ t + d then t + d - 65536 else t + d

/-- The instant checks of a Plane engine command (R377). -/
def instantCheck (s : State) (b i ts : Nat) : Nat :=
  if wasReleased s b i then 0x0842
  else if s.tickNow + 15 < i || ((findInstant s b i).isNone && 16 ≤ (s.sense.instants.filter fun x => x.b == b).length) then 0x0843
  else if i < ts / s.tickNs then 0x0844
  else 0

/-- A sample recorded in its instant, which opens; a late one is counted (R377). -/
def recordSample (s : State) (b i ts sensor : Nat) : State :=
  let j := ts / s.tickNs
  let late := decide (j < i) && wasReleased s b j
  let x := (findInstant s b i).getD { b := b, i := i, oldest := none, nlate := 0, used := 0 }
  let y := { x with oldest := some (match x.oldest with
                      | none => ts
                      | some o => Nat.min o ts),
                    nlate := if late then Nat.min 0xFFFF (x.nlate + 1) else x.nlate, used := x.used ||| 2 ^ sensor }
  let s1 := { s with sense := { s.sense with instants := s.sense.instants.filter (fun z => !(z.b == b && z.i == i)) ++ [y] } }
  if late then s1.count64 0x2413 b 1 else s1

/-! ## Plane engine commands (R367-R371) -/

/-- The fields that the two commands share, for a lift or a voxel pass: sample time, instant, sensor, binding, `clr`, `out`. -/
def peTs (voxel : Bool) (b : BitVec 384) : Nat := fld b (if voxel then 224 else 176) 64
/-- The low bits of its instant. -/
def peInst (voxel : Bool) (b : BitVec 384) : Nat := fld b (if voxel then 208 else 160) 16
/-- Its sensor. -/
def peSensor (voxel : Bool) (b : BitVec 384) : Nat := fld b (if voxel then 177 else 108) 6
/-- Its binding. -/
def peBind (voxel : Bool) (b : BitVec 384) : Nat := fld b (if voxel then 176 else 107) 1
/-- It takes the buffer and clears it. -/
def peClr (voxel : Bool) (b : BitVec 384) : Bool := b.getLsbD (if voxel then 175 else 106)
/-- It writes the buffer and releases it. -/
def peOut (voxel : Bool) (b : BitVec 384) : Bool := b.getLsbD (if voxel then 174 else 105)
/-- Channels of a lift, or slices of a voxel pass. -/
def peDepth (voxel : Bool) (b : BitVec 384) : Nat := if voxel then fld b 183 5 + 1 else fld b 128 7 + 1
/-- Its output address. -/
def peOaddr (voxel : Bool) (b : BitVec 384) : Nat := fld b (if voxel then 288 else 240) 48

/-- Words of the buffer that a layout takes. -/
def peWords (voxel : Bool) (r depth : Nat) : Nat := bindGw r * bindGh r * depth * (if voxel then 4 else 1)

/-- Check 3 of R371. Log entry 95 (DEDUCED). -/
def peShape (voxel : Bool) (r : Nat) (b : BitVec 384) : Bool :=
  (peOut voxel b || peOaddr voxel b == 0) && (!(peOut voxel b) || peOaddr voxel b != 0) && decide (peWords voxel r (peDepth voxel b) ≤ 4194304) &&
  fld b 336 48 % 64 == 0 &&
  (if voxel then fld b 0 174 == 0
   else fld b 0 105 == 0 && [0x1, 0x6, 0x8, 0x9].contains (fld b 118 4) && [0x6, 0x8, 0x9, 0xA].contains (fld b 114 4) && fld b 288 48 % 64 == 0)

/-- Check 7 of R211 for a Plane engine command posted to a hub from a sector (R371). -/
def peCheck (s : State) (voxel : Bool) (hub sec : Nat) (b : BitVec 384) : Nat :=
  let k := peBind voxel b
  let r := s.binding k
  if !(bindOn r) || k ≠ hub || bindSector r ≠ sec then 0x0840
  else if !(bindHas r (peSensor voxel b)) || (s.sensor k (peSensor voxel b)).lidar != voxel then 0x0841
  else if !(peShape voxel r b) then 0x0845
  else instantCheck s k (instantOf s (peInst voxel b)) (peTs voxel b)

/-- A buffer that nothing holds. -/
def PeBuf.fresh : PeBuf := { ctx := none, start := none, voxel := false, nc := 0, nz := 0, ofmt := 0, words := [] }

/-- The buffer of a hub's Plane engine. -/
def State.peBuf (s : State) (hub : Nat) : PeBuf := tget s.sense.pe hub PeBuf.fresh

/-- The buffer replaced. -/
def State.setPeBuf (s : State) (hub : Nat) (p : PeBuf) : State := { s with sense := { s.sense with pe := tput s.sense.pe hub p } }

/-- The context that holds the buffer of a hub; a context that has been torn down holds nothing (R370). -/
def peHolder (s : State) (hub : Nat) : Option Nat :=
  match (s.peBuf hub).ctx with
  | some c => if (tfind s.cmds.ctxs c).isSome then some c else none
  | none => none

/-- A word of the buffer: +0, or minus infinity for the maximum of a voxel (R367). -/
def peWord (p : PeBuf) (i : Nat) : Word := tget p.words i (if p.voxel && i % 4 = 3 then 0xFF800000 else 0)

/-- The layout that a command names. -/
def peLayout (voxel : Bool) (b : BitVec 384) (ctx : Nat) : PeBuf :=
  { ctx := some ctx, start := none, voxel := voxel, nc := if voxel then 0 else peDepth voxel b, nz := if voxel then peDepth voxel b else 0,
    ofmt := if voxel then 0 else fld b 114 4, words := [] }

/-- The buffer that a command works on: a cleared one, the one its context holds with the same layout, or none (R370). -/
def peTake (s : State) (x : Slot) (voxel : Bool) : Option PeBuf :=
  let want := peLayout voxel x.body x.ctx
  if peClr voxel x.body then some want
  else
    let have_ := s.peBuf x.hub
    if peHolder s x.hub = some x.ctx && have_.voxel = voxel && have_.nc = want.nc && have_.nz = want.nz && have_.ofmt = want.ofmt then some have_ else none

/-- A point in the vehicle frame (R368). -/
def toVehicle (x : Sensor) (q : List Num) : List Num :=
  (List.range 3).map fun i =>
    let t (j : Nat) : Num := fmul (fp32 (lget x.rot (3 * i + j) 0)) (lget q j .nan)
    fadd (fadd (fadd (t 0) (t 1)) (t 2)) (fp32 (lget x.p (4 + i) 0))

/-- The column or row of a coordinate in m, exact (R364, R368). -/
def cellOf (g : Num) (origin : Int) (edge n : Nat) : Option Nat :=
  match g with
  | .fin sg m e =>
    let b : Int := if e ≤ 0 then e else 0
    let v := (1000 * Num.at (.fin sg m e) b - origin * (2 ^ (-b).toNat : Nat)) / ((edge * 2 ^ (-b).toNat : Nat) : Int)
    if 0 ≤ v && v < n then some v.toNat else none
  | _ => none

/-- The cell of a point whose height is within the limits. -/
def pointCell (r : Nat) (g : List Num) : Option (Nat × Nat) :=
  if !(numLe (bindNum r 400) (lget g 2 .nan)) || !(numLt (lget g 2 .nan) (bindNum r 432)) then none
  else match cellOf (lget g 0 .nan) (sgn 32 (nbits r 336 32)) (bindEdge r) (bindGw r), cellOf (lget g 1 .nan) (sgn 32 (nbits r 368 32)) (bindEdge r) (bindGh r) with
    | some u, some v => some (u, v)
    | _, _ => none

/-- One pixel-bin pair accumulated in every channel (R368). -/
def liftPair (r nc : Nat) (feat : Nat → Num) (w : Num) (cell : Nat × Nat) (p : PeBuf) : PeBuf :=
  (List.range nc).foldl (fun p c =>
    let i := (cell.2 * bindGw r + cell.1) * nc + c
    { p with words := tput p.words i (toFp32 (Num.add (fp32 (peWord p i)) (fmul (feat c) w))) }) p

/-- The point of depth bin `k` along a ray (R368). -/
def liftPoint (r k : Nat) (rx ry : Num) : List Num :=
  let d := fadd (bindNum r 464) (fmul (Num.ofInt k) (bindNum r 496))
  [fmul d rx, fmul d ry, d]

/-- A pixel coordinate's ray component (R368). -/
def rayOf (i stride : Nat) (c f : Num) : Num :=
  let a := fsub (fsub (rne32 (.fin false ((2 * i + 1) * stride) (-1))) (.fin false 1 (-1))) c
  fdiv a f

/-- A lift of a sensor's features (R368); `byte` reads sector memory through the command's pages. -/
def lift (byte : Nat → Byte) (b : BitVec 384) (r : Nat) (x : Sensor) (p : PeBuf) : PeBuf :=
  let fw := fld b 150 10 + 1
  let fh := fld b 140 10 + 1
  let stride := fld b 135 5 + 1
  let nc := fld b 128 7 + 1
  let nd := fld b 122 6 + 1
  let fmt := fld b 118 4
  let size := (fmtOf fmt).bits / 8
  let at_ (a n : Nat) : Nat := ofBytes ((List.range n).map fun i => byte (a + i))
  let par (k : Nat) : Num := fp32 (lget x.p k 0)
  (List.range fh).foldl (fun p yf => (List.range fw).foldl (fun p xf =>
    let rx := rayOf xf stride (par 2) (par 0)
    let ry := rayOf yf stride (par 3) (par 1)
    (List.range nd).foldl (fun p k =>
      let w := decodeNum 9 (at_ (fld b 288 48 + 2 * ((yf * fw + xf) * nd + k)) 2)
      match w with
      | .fin _ 0 _ => p
      | w => match pointCell r (toVehicle x (liftPoint r k rx ry)) with
        | none => p
        | some cell =>
          liftPair r nc (fun c => decodeNum fmt (at_ (fld b 336 48 + ((yf * fw + xf) * nc + c) * size) size)) w cell p) p) p) p

/-- The slice of a height (R369). -/
def sliceOf (nz : Nat) (r : Nat) (z : Num) : Nat :=
  match bindNum r 400, bindNum r 432, z with
  | .fin a m e, .fin b n f, .fin c k g =>
    let low := [e, f, g].foldl (fun x y => if y ≤ x then y else x) e
    let v := Num.at (.fin c k g) low - Num.at (.fin a m e) low
    let w := Num.at (.fin b n f) low - Num.at (.fin a m e) low
    (nz * v / w).toNat
  | _, _, _ => 0

/-- One point placed in its voxel (R369). -/
def voxelPoint (r nz : Nat) (x : Sensor) (q : List Num) (intensity : Num) (p : PeBuf) : PeBuf :=
  let g := toVehicle x q
  match pointCell r g with
  | none => p
  | some (u, v) =>
    let z := lget g 2 .nan
    let i := 4 * ((v * bindGw r + u) * nz + sliceOf nz r z)
    let n := (sat32 ((peWord p i).toInt + 1)).1
    let si := toFp32 (Num.add (fp32 (peWord p (i + 1))) intensity)
    let sz := toFp32 (Num.add (fp32 (peWord p (i + 2))) z)
    let mz := toFp32 (Num.max (fp32 (peWord p (i + 3))) z)
    { p with words := tput (tput (tput (tput p.words i (BitVec.ofInt 32 n)) (i + 1) si) (i + 2) sz) (i + 3) mz }

/-- A voxel pass over a sensor's points (R369). -/
def voxels (byte : Nat → Byte) (b : BitVec 384) (r : Nat) (x : Sensor) (p : PeBuf) : PeBuf :=
  let nz := fld b 183 5 + 1
  let word (a : Nat) : Num := decodeNum 0xA (ofBytes ((List.range 4).map fun i => byte (a + i)))
  (List.range (fld b 188 20 + 1)).foldl (fun p i =>
    let a := fld b 336 48 + 16 * i
    voxelPoint r nz x [word a, word (a + 4), word (a + 8)] (word (a + 12)) p) p

/-- The bytes that a command's output writes: words converted to `ofmt`, or a voxel's four words unchanged (R368, R369). -/
def peBytes (p : PeBuf) (n : Nat) : List Byte :=
  (List.range n).flatMap fun i =>
    if p.voxel then toBytes 4 (peWord p i).toNat
    else toBytes ((fmtOf p.ofmt).bits / 8) (encNum p.ofmt (fp32 (peWord p i))).code

/-- The ranges that a Plane engine command reads. -/
def peReads (voxel : Bool) (b : BitVec 384) : List (Nat × Nat) :=
  if voxel then [(fld b 336 48, 16 * (fld b 188 20 + 1))]
  else
    let px := (fld b 150 10 + 1) * (fld b 140 10 + 1)
    [(fld b 336 48, px * (fld b 128 7 + 1) * ((fmtOf (fld b 118 4)).bits / 8)), (fld b 288 48, 2 * px * (fld b 122 6 + 1))]

/-- Bytes that its output takes. -/
def peOutLen (voxel : Bool) (r : Nat) (b : BitVec 384) : Nat :=
  peWords voxel r (peDepth voxel b) * (if voxel then 4 else (fmtOf (fld b 114 4)).bits / 8)

/-- A Plane engine command starts: its sensor counts as it is now, and one that clears the buffer holds it from now (R368, R370, R371). -/
def peBegin (s : State) (x : Slot) : State :=
  let voxel := x.code == 0xA1
  let k := peBind voxel x.body
  let i := peSensor voxel x.body
  let p := s.peBuf x.hub
  s.setPeBuf x.hub { p with ctx := if peClr voxel x.body then some x.ctx else p.ctx, start := if admitted s k i then some (s.sensor k i) else none }

/-- The buffer after an engine command on it (R368-R371): changed only where its sensor was admitted at the command's start. -/
def peResult (s : State) (x : Slot) (voxel : Bool) (p : PeBuf) : PeBuf :=
  let b := x.body
  let r := s.binding (peBind voxel b)
  let byte (a : Nat) : Byte := mread s.mem.dram (paged x.pages a)
  match (s.peBuf x.hub).start with
  | none => p
  | some sn => if voxel then voxels byte b r sn p else lift byte b r sn p

/-- The lines that a Plane engine command reads. -/
def peCount (s : State) (x : Slot) (voxel : Bool) : State := (peReads voxel x.body).foldl (fun a c => countPaged a x.pages c.1 c.2 (9 + x.hub) false) s

/-- The state after an engine command: its reads counted, its buffer kept, and the buffer written out where the command asks for it. -/
def peDone (s : State) (x : Slot) (voxel : Bool) (p : PeBuf) : State :=
  let b := x.body
  let r := s.binding (peBind voxel b)
  let q := peResult s x voxel p
  let s1 := peCount s x voxel
  let s2 := s1.setPeBuf x.hub q
  if peOut voxel b then
    countPaged (outWrite s2 x (peOaddr voxel b) (peBytes q (peWords voxel r (peDepth voxel b)))) x.pages (peOaddr voxel b) (peOutLen voxel r b) (9 + x.hub) true
  else s2

/-- A Plane engine command (R368-R371): poisoned input ends it without effect (R306); a sensor that was not admitted at its start contributes
nothing and gives result 1. -/
def peRun (s : State) (h code : Nat) (voxel : Bool) : State :=
  runCmd s h code fun s i x =>
    match peTake s x voxel with
    | none => done s i 0x0846 0
    | some p =>
      if (peReads voxel x.body).any fun a => pagedBad s x.pages a.1 a.2 then done (peCount s x voxel) i 0x010D 0
      else done (peDone s x voxel p) i 0 (if (s.peBuf x.hub).start.isSome then 0 else 1)

/-- `PE_LIFT` (R368). -/
def execPeLift (h : Nat) (s : State) : Res := ok (peRun s h 0xA0 false)

/-- `PE_VOXEL` (R369). -/
def execPeVoxel (h : Nat) (s : State) : Res := ok (peRun s h 0xA1 true)

end Sys2Proof.Machine
end

