-- ==== Sys2Proof/Machine/Fusion.lean ====
section
/-! DEFINITION. What fusion does at a tick boundary (R372-R376, R378, R379), and the assignment solver (R380-R382). -/

namespace Sys2Proof.Machine

/-! ## The areas of a binding -/

/-- Bytes of area `k` of a binding: 0 and 1 check tables, 2 and 3 proposal tables, 4 header ring. -/
def bindRead (s : State) (b k i n : Nat) : List Byte :=
  areaRead s (tget s.sense.fusPages (8 * b + k) []) ((lget (bindAreas (s.binding b)) k (0, 0)).1 % 4096) i n

/-- The lines of an area that the binding's hub reads or writes, counted for its Plane engine (R291). -/
def bindCount (s : State) (b k i n : Nat) (write : Bool) : State :=
  countArea s (tget s.sense.fusPages (8 * b + k) []) ((lget (bindAreas (s.binding b)) k (0, 0)).1 % 4096) i n (9 + b) write

/-- A line of an area is poisoned. -/
def bindBad (s : State) (b k n : Nat) : Bool :=
  let pages := tget s.sense.fusPages (8 * b + k) []
  let first := (lget (bindAreas (s.binding b)) k (0, 0)).1 % 4096
  (List.range (n / 64)).any fun j => dramBad s (areaAt pages first (64 * j))

/-- A table that is ignored is counted and the fleet is told (R373, R375): 0 a proposal table, 1 a check table. Log entry 93 (DEDUCED). -/
def tableError (s : State) (b which n : Nat) : State :=
  nimWarn (s.count32 0x2414 b 1) (4 + b) 0x0108 (toBytes 1 b ++ toBytes 1 which ++ toBytes 8 n)

/-! ## Calibration refinement (R373, R374) -/

/-- The class of a parameter (R362). -/
def calClass (k : Nat) : Nat := if k < 2 then 0 else if k < 4 then 1 else if k < 7 then 2 else 3

/-- A parameter moved by a proposal, within its step (R373). -/
def calStep (m q p : Num) : Num :=
  let q' := match q with
    | .nan => Num.zero
    | _ => (q.max m.neg).min m
  fadd p q'

/-- The proposals of one sensor's line applied (R373). -/
def propose (r line : Nat) (x : Sensor) : Sensor :=
  let p := x.p.zipIdx.map fun w =>
    if x.lidar && w.2 < 4 then w.1
    else toFp32 (calStep (bindNum r (768 + 32 * calClass w.2)) (decodeNum 0xA (nbits line (32 * w.2) 32)) (fp32 w.1))
  { x with p := p, rot := rotOf p }

/-- Step a of R372 for the occurrence of tick `n`. -/
def applyProposals (s0 : State) (b n : Nat) : State :=
  let k := 2 + n % 2
  let s := bindCount s0 b k 0 3072 false
  let r := s.binding b
  let lines := (List.range 48).map fun i => ofBytes (bindRead s b k (64 * i) 64)
  if bindBad s b k 3072 || lines.any fun l => nbits l 321 191 != 0 then tableError s b 0 n
  else lines.zipIdx.foldl (fun a l => if nbit l.1 320 && bindHas r l.2 then a.setSensor b l.2 (propose r l.1 (a.sensor b l.2)) else a) s

/-- The first parameter of a sensor outside its range (R374). -/
def calOut (r : Nat) (x : Sensor) : Option Nat :=
  (List.range 10).find? fun k =>
    let p := fp32 (lget x.p k 0)
    let d := Num.add p (fp32 (lget x.ref k 0)).neg
    let lim := bindNum r (896 + 32 * calClass k)
    !(numLe lim.neg d && numLe d lim) || (!x.lidar && decide (k < 2) && !(numLt Num.zero p))

/-- Step b of R372 (R374): the fleet is told where a flag becomes set. Log entry 94 (DEDUCED). -/
def flagSensors (s : State) (b : Nat) : State :=
  (List.range 48).foldl (fun a i =>
    let x := a.sensor b i
    match calOut (a.binding b) x with
    | none => if x.cinv then a.setSensor b i { x with cinv := false } else a
    | some k =>
      if x.cinv then a
      else nimWarn (a.setSensor b i { x with cinv := true }) (4 + b) 0x0109 (toBytes 1 b ++ toBytes 1 i ++ toBytes 1 k)) s

/-- Step c of R372. -/
def countOut (s : State) (b : Nat) : State :=
  (List.range 48).foldl (fun a i => let x := a.sensor b i; if x.out = 0 then a else a.setSensor b i { x with out := x.out - 1 }) s

/-! ## Cross-check voting (R375, R376) -/

/-- The admitted sensors of a binding. -/
def admittedSet (s : State) (b : Nat) : List Nat := (List.range 48).filter (admitted s b)

/-- A region record of a check table. -/
def regionRec (s : State) (b k r : Nat) : List Nat := (List.range 56).map fun i => leAt (bindRead s b k (448 * r) 448) (8 * i) 8

/-- The coverage of a region record. -/
def covOf (rec_ : List Nat) : Nat := lget rec_ 0 0

/-- Two sensors disagree in a region record (R375). -/
def disagree (rec_ : List Nat) (a b : Nat) : Bool := nbit (lget rec_ (a + 1) 0) b || nbit (lget rec_ (b + 1) 0) a

/-- What a check table decides: the sensors voted out, and the contested regions, among the sensors `adm` (R376). -/
def votes (recs : List (List Nat)) (adm : List Nat) : List Nat × List Nat :=
  let out := recs.flatMap fun rec_ =>
    let c := adm.filter fun i => nbit (covOf rec_) i
    c.filter fun i => 2 ≤ (c.filter fun j => j != i && disagree rec_ i j).length
  let contested := (List.range 64).filter fun r =>
    let rec_ := lget recs r []
    match adm.filter fun i => nbit (covOf rec_) i with
    | [i, j] => disagree rec_ i j
    | _ => false
  (adm.filter fun i => out.contains i, contested)

/-- Step d of R372 for the occurrence of tick `n`, among the sensors `adm` that were admitted after step c: the state, and the degraded mask of
its result (R375, R376). -/
def applyChecks (s0 : State) (b n : Nat) (adm : List Nat) : State × Nat :=
  let k := n % 2
  let s := bindCount s0 b k 0 28672 false
  let recs := (List.range 64).map (regionRec s b k)
  if bindBad s b k 28672 || recs.any fun rec_ => (rec_.take 49).any fun w => nbits w 48 16 != 0 then (tableError s b 1 n, 2 ^ 64 - 1)
  else
    let v := votes recs adm
    let s1 := v.1.foldl (fun a i => (a.setSensor b i { a.sensor b i with out := s.num 0x2401 0 }).count64 0x2415 b 1) s
    let left := admittedSet s1 b
    let dgr := lsum (fun r =>
      let cov := (List.range 48).filter fun i => nbit (covOf (lget recs r [])) i && bindHas (s.binding b) i
      b2n (v.2.contains r || (!cov.isEmpty && !(cov.any left.contains))) * 2 ^ r) (List.range 64)
    (s1, dgr)

/-! ## Result headers (R378, R379) -/

/-- The result header of instant `i` (R378). -/
def resultHeader (s : State) (b i dgr : Nat) (lost : Bool) : List Byte :=
  let r := s.binding b
  let x := findInstant s b i
  let tv := (i + 1) * s.tickNs
  let age := match x.bind Instant.oldest with
    | some o => tv - o
    | none => 0
  toBytes 64 (pack [(448, 64, if nbit r 1 then tv else s.now), (384, 64, if nbit r 1 then age else 0), (320, 64, dgr),
    (304, 16, (x.map Instant.nlate).getD 0), (256, 48, (x.map Instant.used).getD 0), (208, 48, i), (1, 1, b2n lost), (0, 1, nbits r 1 1)])

/-- An instant closes with its header (R378, R379), which is not written over a link that is down (R331). -/
def closeInstant (s : State) (b i dgr : Nat) (lost : Bool) : State :=
  let first := (lget (bindAreas (s.binding b)) 4 (0, 0)).1 % 4096
  let pages := tget s.sense.fusPages (8 * b + 4) []
  let s1 := if hubReach s b (areaAt pages first (64 * (i % 16)))
    then (bindCount (areaWrite s pages first (64 * (i % 16)) (resultHeader s b i dgr lost) false) b 4 (64 * (i % 16)) 64 true).setNum 0x2412 b dgr else s
  let s2 := { s1 with sense := { s1.sense with instants := s1.sense.instants.filter (fun z => !(z.b == b && z.i == i)),
                                               released := s1.sense.released.filter (· != (b, i)) ++ [(b, i)] } }
  if lost then s2 else s2.setNum 0x2416 b i

/-- No result comes for the instant of the tick that closes (R379): its occurrence was shed, or the stage has none in that tick. While the scope of
the stage is in SAFE no header says so. -/
def noResult (s : State) (e tick : Nat) : Bool :=
  match s.sched.occs.find? fun o => o.entry == e && o.tick == tick with
  | none => !((s.ent e).any fun x => entHeld s x.raw)
  | some o => o.st == .shed

/-- The steps of R372 for one enabled binding as tick `tick` closes; `committed` lists the ticks of its stage's occurrences that commit now,
in ascending order, and `lost` says that the closing tick has no result to come. -/
def fusionBoundary (s : State) (b tick : Nat) (committed : List Nat) (lost : Bool) : State :=
  let r := s.binding b
  if !(bindOn r) || !(s.dieUp (4 + b)) then s
  else
    let s1 := committed.foldl (fun a n => applyProposals a b n) s
    let s2 := countOut (flagSensors s1 b) b
    let adm := admittedSet s2 b
    let (s3, dgrs) := committed.foldl (fun p n => let q := applyChecks p.1 b n adm; (q.1, p.2 ++ [(n, q.2)])) (s2, ([] : List (Nat × Nat)))
    let s4 := dgrs.foldl (fun a p => if p.1 < bindLag r then a else closeInstant a b (p.1 - bindLag r) p.2 false) s3
    if lost && bindLag r ≤ tick then closeInstant s4 b (tick - bindLag r) (2 ^ 64 - 1) true else s4

/-- `SENSOR_OUT_EXPIRY` (R372): at a boundary that has not been taken, a sensor whose out-time has one tick left is admitted again; the
boundary counts the others down. -/
def outExpiry (s : State) (b i : Nat) : State :=
  if s.operating && s.atBoundary && decide (s.sched.closed * s.tickNs < s.now) && decide (i < 48) && bindOn (s.binding b) && (s.sensor b i).out == 1 then
    s.setSensor b i { s.sensor b i with out := 0 }
  else s

/-- `SENSOR_OUT_EXPIRY` (R372). -/
def execSensorOutExpiry (b : Fin 2) (sensor : Nat) (s : State) : Res := ok (outExpiry s b.val sensor)

/-- Bindings whose stage is not a work entry of their sector are disabled as the device enters OPERATIONAL (R363). -/
def checkBindings (s : State) : State :=
  (List.range 2).foldl (fun a b =>
    let r := a.binding b
    let e := tfind a.sched.entries (bindEntry r)
    let fits := match e with
      | some x => entKind x.raw == 0 && entSector x.raw == bindSector r
      | none => false
    if !(bindOn r) || fits then a
    else nimWarn (a.setOcts 0x2400 b (toBytes 128 (r - 1))) (4 + b) 0x0107 (toBytes 1 b)) s

/-! ## The assignment solver (R380, R381) -/

/-- An assignment of the rows that remain: pairs, cost, and the columns in row order, 512 for none. -/
structure Assignment where
  pairs : Nat
  cost  : Nat
  cols  : List Nat
  deriving DecidableEq, Repr

/-- One list of columns comes before another in lexicographic order. -/
def colsLess : List Nat → List Nat → Bool
  | [], _ => false
  | _ :: _, [] => false
  | a :: r, b :: t => if a = b then colsLess r t else decide (a < b)

/-- An assignment is preferred to another by the three rules of R381. -/
def Assignment.better (a b : Assignment) : Bool :=
  if a.pairs ≠ b.pairs then decide (b.pairs < a.pairs) else if a.cost ≠ b.cost then decide (a.cost < b.cost) else colsLess a.cols b.cols

/-- The first of the best assignments of a list, or `d`. -/
def bestOf (d : Assignment) (l : List Assignment) : Assignment := l.foldl (fun x y => if y.better x then y else x) d

/-- The assignment of R381: for each row every free column that is not forbidden, and none. `free` lists the columns not yet taken.
Log entry 10 (DEDUCED). -/
def assign : List (List Nat) → List Nat → Assignment
  | [], _ => { pairs := 0, cost := 0, cols := [] }
  | row :: rest, free =>
    let skip := assign rest free
    let none_ : Assignment := { skip with cols := 512 :: skip.cols }
    bestOf none_ ((free.filter fun c => lget row c 0xFFFF != 0xFFFF).map fun c =>
      let t := assign rest (free.filter (· != c))
      { pairs := t.pairs + 1, cost := t.cost + lget row c 0, cols := c :: t.cols })

/-- Check 7 of R211 for `AS_SOLVE` (R380). -/
def asCheck (b : BitVec 384) : Nat :=
  if fld b 18 206 ≠ 0 || fld b 224 32 % 64 ≠ 0 || fld b 224 32 < 2 * (fld b 9 9 + 1) || fld b 320 64 % 64 ≠ 0 || fld b 256 64 % 64 ≠ 0 then 0x0847 else 0

/-- Bytes of the cost matrix from its address. -/
def asLen (b : BitVec 384) : Nat := fld b 0 9 * fld b 224 32 + 2 * (fld b 9 9 + 1)

/-- Where row `r` of a cost matrix stands. -/
def solveRow (x : Slot) (r : Nat) : Nat := fld x.body 320 64 + r * fld x.body 224 32

/-- Bytes of a row of a cost matrix. -/
def solveWidth (x : Slot) : Nat := 2 * (fld x.body 9 9 + 1)

/-- The assignment of a cost matrix (R380, R381). -/
def solveOf (s : State) (x : Slot) : Assignment :=
  let nc := fld x.body 9 9 + 1
  let row (r : Nat) : List Nat := let l := pagedRead s x.pages (solveRow x r) (solveWidth x); (List.range nc).map fun c => leAt l (2 * c) 2
  assign ((List.range (fld x.body 0 9 + 1)).map row) (List.range nc)

/-- The columns and the number of pairs as they are written. -/
def solveBytes (a : Assignment) : List Byte := (a.cols.flatMap fun c => toBytes 2 (if c = 512 then 0xFFFF else c)) ++ toBytes 2 a.pairs

/-- The rows of a cost matrix read (R291, R382): what stands between them is no part of it. -/
def solveReads (s : State) (x : Slot) : State :=
  (List.range (fld x.body 0 9 + 1)).foldl (fun a r => countPaged a x.pages (solveRow x r) (solveWidth x) (9 + x.hub) false) s

/-- The state with an assignment written, its lines counted. -/
def solveDone (s : State) (x : Slot) : State :=
  let out := solveBytes (solveOf s x)
  countPaged (outWrite (solveReads s x) x (fld x.body 256 64) out) x.pages (fld x.body 256 64) out.length (9 + x.hub) true

/-- `AS_SOLVE` (R380, R381): poisoned costs end it without effect (R306). -/
def asSolve (s : State) (h : Nat) : State :=
  runCmd s h 0xA2 fun s i x =>
    if (List.range (fld x.body 0 9 + 1)).any fun r => pagedBad s x.pages (solveRow x r) (solveWidth x) then done (solveReads s x) i 0x010D 0
    else done (solveDone s x) i 0 (BitVec.ofNat 32 (solveOf s x).cost)

/-- `AS_SOLVE` (R381). -/
def execAsSolve (h : Nat) (s : State) : Res := ok (asSolve s h)

end Sys2Proof.Machine
end

