-- ==== Sys2Proof/Machine/Gateway.lean ====
section
/-! DEFINITION. The gateway (R474-R483): gPTP time, gate lists, the queues of the internal port, CAN controllers and the IEEE 1722
bridge. -/

namespace Sys2Proof.Machine

/-- A hub's own services run. -/
def hubUp (s : State) (hub : Nat) : Bool := s.dieUp (4 + hub) && s.dev.st != .off

/-! ## gPTP time (R475) -/

/-- gPTP time at a Gnomon time, by the mapping of a hub, in whole ns (R75). Log entry 78 (DEDUCED). -/
def gptp (s : State) (hub g : Nat) : Int :=
  let m := slice (s.octs 0x4C16 hub) 0 24
  let g0 := leAt m 0 8
  let r := sgn 64 (leAt m 16 8)
  (leAt m 8 8 : Nat) + rneDivInt (((g : Int) - g0) * ((2 ^ 40 : Nat) + r)) (2 ^ 40)

/-- `PTP_SYNC` (R475): the mapping of a hub is updated at this instant. -/
def ptpSync (s : State) (hub t0 ratio : Nat) : State :=
  if !(hubUp s hub) then s else s.setOcts 0x4C16 hub (toBytes 8 s.now ++ toBytes 8 t0 ++ toBytes 8 ratio)

/-- `PTP_SYNC` (R475). -/
def execPtpSync (hub : Fin 2) (t0 ratio : Dword) (s : State) : Res := ok (ptpSync s hub.val t0.toNat ratio.toNat)

/-! ## Gate control lists (R476) -/

/-- Base time of a list. -/
def qbvBase (l : List Byte) : Nat := leAt l 0 8
/-- Cycle time of a list. -/
def qbvCycle (l : List Byte) : Nat := leAt l 8 4
/-- Entries of a list, as gate states and intervals. -/
def qbvEntries (l : List Byte) : List (Nat × Nat) := (List.range (leAt l 12 2)).map fun i => (leAt l (16 + 8 * i) 1, leAt l (20 + 8 * i) 4)

/-- The checks of R476 and R487 on a list. -/
def qbvOk (l : List Byte) : Bool :=
  l.isEmpty || (decide (16 ≤ l.length) && decide (1 ≤ leAt l 12 2) && decide (leAt l 12 2 ≤ 126) && l.length == 16 + 8 * leAt l 12 2 && leAt l 14 2 == 0 &&
    (List.range (leAt l 12 2)).all (fun i => leAt l (17 + 8 * i) 3 == 0 && decide (32 ≤ leAt l (20 + 8 * i) 4)) &&
    lsum Prod.snd (qbvEntries l) == qbvCycle l)

/-- The first cycle start of a list at or after a gPTP instant. -/
def qbvStart (l : List Byte) (t : Int) : Nat :=
  if t ≤ qbvBase l then qbvBase l
  else qbvBase l + ceilDiv (t - qbvBase l).toNat (qbvCycle l) * qbvCycle l

/-- A write of a port's gate list: its status, and the state after it (R476). Log entry 153 (DEDUCED). -/
def qbvWrite (s : State) (n : Nat) (value : List Byte) : Nat × State :=
  if !(value.isEmpty || (16 ≤ value.length && value.length == 16 + 8 * leAt value 12 2)) then (0x0005, s)
  else if 12 ≤ n || !(qbvOk value) then (0x0006, s)
  else
    let running := ((tfind s.host.gates n).map Prod.fst).getD []
    let next := if value.isEmpty then (([] : List Byte), none) else (running, some (value, qbvStart value (gptp s (n / 6) (s.now + 1000000))))
    let s1 := s.setOcts 0x4C11 n value
    (0, { s1 with host := { s1.host with gates := tput s1.host.gates n next } })

/-- `GATE_LIST_SWITCH` (R476): no effect before the new list's cycle start. -/
def gateSwitch (s : State) (n : Nat) : State :=
  match tfind s.host.gates n with
  | some (_, some (l, start)) =>
    if (start : Int) ≤ gptp s (n / 6) s.now then { s with host := { s.host with gates := tput s.host.gates n (l, none) } } else s
  | _ => s

/-- `GATE_LIST_SWITCH` (R476). -/
def execGateListSwitch (n : Nat) (s : State) : Res := ok (gateSwitch s n)

/-- The gate states at a phase of a cycle. -/
def gateAt : List (Nat × Nat) → Nat → Nat
  | [], _ => 0xFF
  | (g, d) :: r, p => if p < d then g else gateAt r (p - d)

/-- The gate of a class on a port of a hub is open now. -/
def gateOpen (s : State) (hub port cls : Nat) : Bool :=
  match tfind s.host.gates (6 * hub + port) with
  | none => true
  | some (l, _) =>
    if l.isEmpty then true
    else nbit (gateAt (qbvEntries l) ((gptp s hub s.now - qbvBase l) % (qbvCycle l : Int)).toNat) cls

/-- A port of a hub carries frames: the internal one always, another while it is enabled (R474, R487). -/
def portOn (s : State) (hub port : Nat) : Bool := port == 5 || nbit (s.num 0x4C10 (5 * hub + port)) 31

/-- The frames that wait for a gate which is open now leave through their ports (R476, R478). -/
def drainGates (s : State) : State :=
  if s.host.leaving.isEmpty then s
  else
    let goes (x : Leaving) : Bool := gateOpen s x.hub x.port x.cls
    { s with host := { s.host with leaving := s.host.leaving.filter fun x => !(goes x),
                                   out := s.host.out ++ (s.host.leaving.filter goes).map fun x => .eth x.hub x.port x.cls x.frame } }

/-- A frame sent on a class to some ports of a hub's switch. -/
def sendFrame (s : State) (hub cls : Nat) (queue : Option Nat) (ports : List Nat) (frame : List Byte) : State :=
  drainGates { s with host := { s.host with
    leaving := s.host.leaving ++ (ports.filter (portOn s hub)).map fun p => { hub := hub, port := p, cls := cls, queue := queue, frame := frame } } }

/-! ## Streams (R474): identification, meters and sequence functions, as IEEE 802.1Q and 802.1CB give them. Log entry 175 (PRESUMED). -/

/-- A number spelled by bytes, highest first, as a network carries it. -/
def beAt (l : List Byte) (i n : Nat) : Nat := ofBytes (((l.drop i).take n).reverse)

/-- Bytes of a number, highest first. -/
def beBytes (n v : Nat) : List Byte := (toBytes n v).reverse

/-- Where the type of a frame stands: after a VLAN tag, where it has one. -/
def typeAt (frame : List Byte) : Nat := if beAt frame 12 2 = 0x8100 then 16 else 12

/-- The priority of a frame: its tag's, or zero. -/
def framePcp (frame : List Byte) : Nat := if beAt frame 12 2 = 0x8100 then beAt frame 14 2 / 8192 else 0

/-- The sequence tag of a frame, with its number (IEEE 802.1CB). -/
def rTag (frame : List Byte) : Option Nat :=
  if beAt frame (typeAt frame) 2 = 0xF1C1 then some (beAt frame (typeAt frame + 4) 2) else none

/-- Where the type of what a frame carries stands: after its sequence tag, where it has one. -/
def innerAt (frame : List Byte) : Nat := if (rTag frame).isSome then typeAt frame + 6 else typeAt frame

/-- The stream of a frame: the identifier of an IEEE 1722 stream, else the destination address and VLAN. Log entry 175 (PRESUMED). -/
def streamOf (frame : List Byte) : Nat :=
  if beAt frame (innerAt frame) 2 = 0x22F0 then beAt frame (innerAt frame + 6) 8
  else beAt frame 0 6 * 65536 + (if beAt frame 12 2 = 0x8100 then beAt frame 14 2 % 4096 else 0)

/-- A flow meter of a hub passes a frame of `n` bytes, from its committed or else its excess bucket, which fill at the two rates; one whose entry is
all zero meters nothing. -/
def meterPass (s : State) (hub m n : Nat) : Bool × State :=
  let k := 32 * hub + m
  let e := slice (s.octs 0x4C13 k) 0 16
  if leAt e 0 16 = 0 then (true, s)
  else
    let full (i : Nat) : Nat := 8000000 * leAt e (4 + 8 * i) 4
    let (c0, e0, t0) := tget s.host.meters k (full 0, full 1, s.now)
    let c := Nat.min (full 0) (c0 + leAt e 0 4 * (s.now - t0))
    let x := Nat.min (full 1) (e0 + leAt e 8 4 * (s.now - t0))
    let need := 8000000 * n
    let put (p : Nat × Nat) : State := { s with host := { s.host with meters := tput s.host.meters k (p.1, p.2, s.now) } }
    if need ≤ c then (true, put (c - need, x)) else if need ≤ x then (true, put (c, x - need)) else (false, put (c, x))

/-- The sequence function of a kind (0 generation, 1 recovery) that a hub's switch has for a stream. -/
def frerOf (s : State) (hub kind stream : Nat) : Option Nat :=
  ((List.range 64).map (64 * hub + ·)).find? fun k =>
    let e := slice (s.octs 0x4C14 k) 0 16
    leAt e 0 16 != 0 && leAt e 8 1 == kind && leAt e 0 8 == stream

/-- A frame that the switch sends, numbered where its stream has a generation function. -/
def frerTag (s : State) (hub : Nat) (frame : List Byte) : List Byte × State :=
  match frerOf s hub 0 (streamOf frame) with
  | none => (frame, s)
  | some k =>
    let n := (tget s.host.frer k (0, 0, 0)).1
    (frame.take (typeAt frame) ++ beBytes 2 0xF1C1 ++ beBytes 2 0 ++ beBytes 2 n ++ frame.drop (typeAt frame),
      { s with host := { s.host with frer := tput s.host.frer k ((n + 1) % 65536, 0, s.now) } })

/-- Vector recovery: whether a frame with number `n` is accepted, with the newest number and the history after it, whose bit 0 is the newest. -/
def vectorTake (h newest hist n : Nat) : Option (Nat × Nat) :=
  let ahead := (n + 65536 - newest) % 65536
  if ahead = 0 then none
  else if ahead < 32768 then (if h ≤ ahead then none else some (n, (hist * 2 ^ ahead + 1) % 2 ^ h))
  else if h ≤ 65536 - ahead || nbit hist (65536 - ahead) then none
  else some (newest, hist + 2 ^ (65536 - ahead))

/-- A received frame passes the recovery function of its stream, which takes any number first and after its reset time. -/
def frerPass (s : State) (hub : Nat) (frame : List Byte) : Bool × State :=
  match frerOf s hub 1 (streamOf frame) with
  | none => (true, s)
  | some k =>
    let e := slice (s.octs 0x4C14 k) 0 16
    let put (p : Nat × Nat) : Bool × State := (true, { s with host := { s.host with frer := tput s.host.frer k (p.1, p.2, s.now) } })
    match rTag frame, tfind s.host.frer k with
    | none, _ => (false, s)
    | some n, none => put (n, 1)
    | some n, some (newest, hist, at_) =>
      if at_ + 1000000 * leAt e 10 2 ≤ s.now then put (n, 1)
      else match vectorTake (leAt e 9 1) newest hist n with
        | none => (false, s)
        | some p => put p

/-! ## Queues on the internal port (R477-R479) -/

/-- The configuration of queue `k` of a hub: transmit 0-7, receive 8-15. -/
def queueCfg (s : State) (hub k : Nat) : List Byte := slice (s.octs 0x4C17 (16 * hub + k)) 0 16

/-- The queue is enabled. -/
def queueOn (s : State) (hub k : Nat) : Bool := leAt (queueCfg s hub k) 1 1 == 1

/-- The hub-SRAM offset of a slot of a queue. -/
def queueSlot (s : State) (hub k i : Nat) : Nat := leAt (queueCfg s hub k) 4 4 + 9344 * (i % 64)

/-- A field of a slot in hub SRAM. -/
def slotField (s : State) (hub at_ lo n : Nat) : Nat := ofBytes (sramRead s hub (at_ + lo) n)

/-- The reserved fields of a slot's header are zero (R12, R477). -/
def slotClean (s : State) (hub at_ : Nat) : Bool :=
  slotField s hub at_ 1 1 / 8 == 0 && slotField s hub at_ 3 1 == 0 && slotField s hub at_ 6 2 == 0 && slotField s hub at_ 34 30 == 0

/-- The first slot of a ring, from a place, that the device owns. -/
def ownedFrom (s : State) (hub k from_ : Nat) : Option Nat :=
  ((List.range 64).map fun i => (from_ + i) % 64).find? fun i => slotField s hub (queueSlot s hub k i) 0 1 == 1

/-- A DRAM range that a transmit slot names, through its sector's translation now; none on a fault or on a poisoned line. Log entry 96 (DEDUCED). -/
def dramPayload (s : State) (sec va n : Nat) : Option (List Byte × List (Nat × Nat)) :=
  match latchPages s sec va n false with
  | none => none
  | some pages => if pagedBad s pages va n then none else some (pagedRead s pages va n, pages)

/-- What a transmit slot sends: its bytes, whether the record was withheld, and the pages that it read (R477, R478). -/
def txPayload (s : State) (hub q at_ : Nat) : List Byte × Bool × List (Nat × Nat) :=
  let flags := slotField s hub at_ 1 1
  let len := Nat.min 9216 (slotField s hub at_ 4 2)
  if nbit flags 0 then
    match dramPayload s (leAt (queueCfg s hub q) 0 1) (slotField s hub at_ 8 8) len with
    | some (b, pages) => (b, false, pages)
    | none => ([], true, [])
  else if len ≠ 0 && sramBad s hub (at_ + 64) len then ([], true, []) else (sramRead s hub (at_ + 64) len, false, [])

/-- The frame of a queue's slot goes out (R313, R478): with its envelope where the slot asks for one. One whose header breaks R12 sends nothing, and
ends with an error like one whose payload is poisoned (R477). Log entry 176 (DEDUCED). -/
def txBegin (s : State) (hub q i : Nat) : State :=
  let k := 8 * hub + q
  let at_ := queueSlot s hub q i
  let flags := slotField s hub at_ 1 1
  let (got, poisoned, pages) := txPayload s hub q at_
  let inv := poisoned || tfind s.host.staged (4 + k) == some i
  let body := if inv then [] else got
  let seq := tget s.host.envSeq k 0
  let withEnv := nbit flags 0 && nbit flags 1
  let begun (a : State) (bad : Bool) : State := { a with host := { a.host with
    txAt := tput a.host.txAt k ((i + 1) % 64), txBusy := tput a.host.txBusy k (i, bad), staged := tdel a.host.staged (4 + k) } }
  if !(slotClean s hub at_) then begun s true
  else
    let s1 := begun (countPaged s pages (slotField s hub at_ 8 8) got.length (6 + hub) false) inv
    let s2 := if withEnv && inv then s1.count64 0x3821 0 1 else s1
    let s3 := if withEnv then { s2 with host := { s2.host with envSeq := tput s2.host.envSeq k ((seq + 1) % 2 ^ 64) } } else s2
    let (frame, s4) := frerTag s3 hub (if withEnv then body ++ envelope body seq (0x02000000 + 256 * hub + q) inv else body)
    if withEnv || !inv then sendFrame s4 hub q (some q) ((List.range 6).filter (nbit (slotField s hub at_ 2 1))) frame else s3

/-- `TX_QUEUE_SCAN` (R478): the next slot that the device owns is sent; no effect while the queue's last frame is still leaving. -/
def txScan (s : State) (hub q : Nat) : State :=
  let k := 8 * hub + q
  if !(hubUp s hub) || !(queueOn s hub q) || (tfind s.host.txBusy k).isSome then s
  else match ownedFrom s hub q (tget s.host.txAt k 0) with
    | none => s
    | some i => txBegin s hub q i

/-- `TX_QUEUE_SCAN` (R478). -/
def execTxQueueScan (hub : Fin 2) (q : Fin 8) (s : State) : Res := ok (txScan s hub.val q.val)

/-- `ETH_TX_COMPLETE` (R478): once a frame has left the last port of its mask, each through its own gate, stamps and status are written, the error flag
where it had one, and then `own` is cleared; no effect before. -/
def txComplete (s : State) (hub q status : Nat) : State :=
  let k := 8 * hub + q
  let s0 := drainGates s
  match tfind s0.host.txBusy k with
  | none => s0
  | some (i, bad) =>
    let at_ := queueSlot s0 hub q i
    if !(hubUp s0 hub) || (s0.host.leaving.any fun x => x.hub == hub && x.queue == some q) then s0
    else
      let s1 := sramWrite s0 hub (at_ + 16) (toBytes 8 s0.now ++ toBytes 8 (lowBits 64 (gptp s0 hub s0.now)) ++ toBytes 2 status)
      let s2 := if bad then sramWrite s1 hub (at_ + 1) (toBytes 1 (slotField s0 hub at_ 1 1 ||| 4)) else s1
      let s3 := sramWrite s2 hub at_ [0]
      { s3 with host := { s3.host with txBusy := tdel s3.host.txBusy k } }

/-- `ETH_TX_COMPLETE` (R478). -/
def execEthTxComplete (hub : Fin 2) (q : Fin 8) (status : Nat) (s : State) : Res := ok (txComplete s hub.val q.val status)

/-! ## CAN slots (R480-R482) -/

/-- Controller `c` is enabled and its hub runs. Log entry 154 (DEDUCED). -/
def canOn (s : State) (c : Nat) : Bool := leAt (slice (s.octs 0x4C20 c) 0 32) 1 1 == 1 && hubUp s (c / 6)

/-- The hub-SRAM offset of slot `i` of a controller: 32 transmit slots, then FIFO 0 and FIFO 1 of 64. -/
def canSlot (s : State) (c i : Nat) : Nat := s.num 0x4C02 (c / 6) + 0x60000 * (c % 6) + 2112 * i

/-- The frame that a slot holds. -/
def canRead (s : State) (c i : Nat) : CanFrame :=
  let h := c / 6
  let a := canSlot s c i
  { flags := slotField s h a 1 1, sdt := slotField s h a 2 1, vcid := slotField s h a 3 1, ident := slotField s h a 4 4, af := slotField s h a 8 4,
    data := sramRead s h (a + 64) (Nat.min 2048 (slotField s h a 12 2)), fifo := 0, admitted := false }

/-- A frame written to a slot with its header (R481). -/
def canWrite (s : State) (c i own seq : Nat) (f : CanFrame) : State :=
  let head := pack [(192, 32, seq), (128, 64, s.now), (96, 16, f.data.length), (64, 32, f.af), (32, 32, f.ident), (24, 8, f.vcid), (16, 8, f.sdt),
    (8, 8, f.flags), (0, 8, own)]
  sramWrite s (c / 6) (canSlot s c i) (toBytes 64 head ++ f.data)

/-- A frame is one of the formats of R480: a Classical one of at most 8 bytes, an FD one of at most 64, an XL one of 1 to 2,048, with an identifier of
its width and the reserved flags zero. Log entry 177 (DEDUCED). -/
def canFormat (f : CanFrame) : Bool :=
  let n := f.data.length
  let wide := nbit f.flags 0 && !(nbit f.flags 2)
  decide (f.flags < 64) && decide (f.ident < (if wide then 2 ^ 29 else 2 ^ 11)) &&
  (if nbit f.flags 2 then decide (1 ≤ n) && decide (n ≤ 2048)
   else if nbit f.flags 1 then decide (n ≤ 8) || [12, 16, 20, 24, 32, 48, 64].contains n
   else decide (n ≤ 8))

/-- A transmit slot holds a frame that its controller can send: `own` is set, and nothing in it breaks R12 or R480. -/
def canReady (s : State) (c i : Nat) : Bool :=
  let a := canSlot s c i
  slotField s (c / 6) a 0 1 == 1 && slotField s (c / 6) (a + 28) 0 36 == 0 && decide (slotField s (c / 6) a 12 2 ≤ 2048) && canFormat (canRead s c i)

/-- `CAN_FRAME_TRANSMIT` (R482): the owned transmit slot with the lowest identifier, the lower slot on a tie. -/
def canSend (s : State) (c : Nat) : State :=
  let h := c / 6
  let own := (List.range 32).filter (canReady s c)
  match (sortBy (fun i => slotField s h (canSlot s c i) 4 4) own).head? with
  | none => s
  | some i =>
    if !(canOn s c) then s
    else
      let f := canRead s c i
      let s1 := sramWrite s h (canSlot s c i + 14) (toBytes 2 0 ++ toBytes 8 s.now)
      let s2 := sramWrite s1 h (canSlot s c i) [0]
      { s2 with host := { s2.host with out := s2.host.out ++ [.can c f] } }

/-- `CAN_FRAME_TRANSMIT` (R482). -/
def execCanFrameTransmit (c : Fin 12) (s : State) : Res := ok (canSend s c.val)

/-! ## The IEEE 1722 bridge (R483) -/

/-- A bridge entry of a hub: entries 0-15 of Hub W, 16-31 of Hub E. -/
def bridgeCfg (s : State) (b : Nat) : List Byte := slice (s.octs 0x4C21 b) 0 32

/-- The entry names a controller of its hub. -/
def bridgeHas (s : State) (b c : Nat) : Bool := b / 16 == c / 6 && nbit (leAt (bridgeCfg s b) 16 1) (c % 6)

/-- An ACF CAN message: the gPTP stamp, the bus and the frame (IEEE 1722-2016). Log entry 17 (PRESUMED). -/
def acfBytes (m : Nat × Nat × CanFrame) : List Byte :=
  let f := m.2.2
  let pad := (4 - f.data.length % 4) % 4
  let quads := (16 + f.data.length + pad) / 4
  let bits := pack [(6, 2, pad), (5, 1, 1), (3, 1, b2n (nbit f.flags 0)), (2, 1, b2n (nbit f.flags 3)), (1, 1, b2n (nbit f.flags 1)), (0, 1, b2n (nbit f.flags 4)),
    (4, 1, b2n (nbit f.flags 5))]
  beBytes 2 (512 + quads) ++ beBytes 1 bits ++ beBytes 1 m.2.1 ++ beBytes 8 m.1 ++ beBytes 4 f.ident ++ f.data ++ List.replicate pad 0

/-- The Ethernet frame of a bridge entry's PDU: addresses, VLAN tag, NTSCF header with the stream, and the messages (IEEE 1722-2016). -/
def pduFrame (s : State) (b : Nat) (msgs : List (Nat × Nat × CanFrame)) : List Byte :=
  let e := bridgeCfg s b
  let body := msgs.flatMap acfBytes
  (slice e 8 6) ++ beBytes 6 (Config.portMac (b / 16) % 2 ^ 48) ++ beBytes 2 0x8100 ++ beBytes 2 (leAt e 14 2) ++ beBytes 2 0x22F0 ++ beBytes 1 0x82 ++
    beBytes 2 (32768 + body.length) ++ beBytes 1 (tget s.host.bridgeSeq b 0) ++ beBytes 8 (leAt e 0 8) ++ body

/-- An open PDU is sent on the internal port in the gate of its priority, and closes (R483). -/
def sendPdu (s : State) (b : Nat) : State :=
  match tfind s.host.pdus b with
  | none => s
  | some p =>
    let s1 := { s with host := { s.host with pdus := tdel s.host.pdus b, bridgeSeq := tput s.host.bridgeSeq b ((tget s.host.bridgeSeq b 0 + 1) % 256) } }
    sendFrame s1 (b / 16) (leAt (bridgeCfg s b) 14 2 / 8192) none [5] (pduFrame s b p.frames)

/-- A received frame offered to a bridge entry: it opens a PDU or joins the open one, which goes when it is full. -/
def bridgeFrame (s : State) (b c : Nat) (f : CanFrame) : State :=
  let e := bridgeCfg s b
  let mask := leAt e 24 4
  if !(bridgeHas s b c) || nbit f.flags 2 || (f.ident &&& mask) ≠ (leAt e 20 4 &&& mask) then s
  else
    let p := (tfind s.host.pdus b).getD { opened := s.now, frames := [] }
    let q := { p with frames := p.frames ++ [(lowBits 64 (gptp s (c / 6) s.now), c % 6, f)] }
    let s1 := { s with host := { s.host with pdus := tput s.host.pdus b q } }
    if leAt e 17 1 ≤ q.frames.length then sendPdu s1 b else s1

/-- `BRIDGE_TRANSIT_EXPIRY` (R483): no effect before the transit time has passed. -/
def bridgeExpiry (s : State) (b : Nat) : State :=
  match tfind s.host.pdus b with
  | none => s
  | some p => if s.now < p.opened + 1000 * leAt (bridgeCfg s b) 18 2 then s else sendPdu s b

/-- `BRIDGE_TRANSIT_EXPIRY` (R483). -/
def execBridgeTransitExpiry (b : Fin 32) (s : State) : Res := ok (bridgeExpiry s b.val)

/-- A frame that its filter admits takes the next slot of its FIFO that software has given up, or is counted as dropped (R479).
Log entry 97 (DEDUCED). -/
def canStore (s : State) (c : Nat) (f : CanFrame) : State :=
  let key := 100 + 2 * c + f.fifo % 2
  let i := tget s.host.rxAt key 0
  let slot := 32 + 64 * (f.fifo % 2) + i
  let seq := tget s.host.canSeq key 0
  if !f.admitted then s
  else if slotField s (c / 6) (canSlot s c slot) 0 1 = 1 then
    let a := canWrite s c slot 0 seq f
    { a with host := { a.host with rxAt := tput a.host.rxAt key ((i + 1) % 64), canSeq := tput a.host.canSeq key ((seq + 1) % 2 ^ 32) } }
  else s.count64 0x4C18 (c / 6) 1

/-- `CAN_FRAME_RECEIVE` (R481, R483): stamped now; a frame that the filters admit takes the next slot of its FIFO if the device owns it, and
is discarded and counted otherwise (R479). -/
def canReceive (s : State) (c : Nat) (f : CanFrame) : State :=
  if !(canOn s c) || !(canFormat f) then s else (List.range 32).foldl (fun a b => bridgeFrame a b c f) (canStore s c f)

/-- `CAN_FRAME_RECEIVE` (R481). -/
def execCanFrameReceive (c : Fin 12) (fr : CanFrame) (s : State) : Res := ok (canReceive s c.val fr)

/-- The ACF CAN and CAN Brief messages of an NTSCF payload: bus and frame (IEEE 1722-2016; log entry 17). -/
def acfMessages : Nat → List Byte → List (Nat × CanFrame)
  | 0, _ => []
  | n + 1, l =>
    let w := beAt l 0 2
    let kind := w / 512
    let len := 4 * (w % 512)
    if l.length < 8 || len < 8 || l.length < len then []
    else
      let fl := (lget l 2 0).toNat
      let at_ := if kind = 1 then 12 else 4
      let pad := fl / 64
      let flags := b2n (nbit fl 3) + 2 * b2n (nbit fl 1) + 8 * b2n (nbit fl 2) + 16 * b2n (nbit fl 0) + 32 * b2n (nbit fl 4)
      let f : CanFrame := { flags := flags, sdt := 0, vcid := 0, ident := beAt l at_ 4 % 2 ^ 29, af := 0,
                            data := (l.drop (at_ + 4)).take (len - at_ - 4 - pad), fifo := 0, admitted := false }
      let rest := acfMessages n (l.drop len)
      if kind = 1 || kind = 2 then ((lget l 3 0).toNat % 32, f) :: rest else rest

/-- The NTSCF stream of a frame and its payload, for a frame of IEEE 1722. -/
def ntscf (frame : List Byte) : Option (Nat × List Byte) :=
  let at_ := innerAt frame
  if beAt frame at_ 2 = 0x22F0 && lget frame (at_ + 2) 0 = 0x82 then
    some (beAt frame (at_ + 6) 8, (frame.drop (at_ + 14)).take (beAt frame (at_ + 3) 2 % 2048))
  else none

/-- A bridged message placed in the next free bridge slot of its controller, or discarded and counted (R483). -/
def bridgeIn (s : State) (b : Nat) (m : Nat × CanFrame) : State :=
  let hub := b / 16
  let c := 6 * hub + m.1
  let free := if m.1 < 6 && bridgeHas s b c && canOn s c then
      ((List.range 8).map (24 + ·)).find? fun i => slotField s hub (canSlot s c i) 0 1 == 0
    else none
  match free with
  | none => s.count64 0x4C22 hub 1
  | some i => canWrite s c i 1 0 m.2

/-- The bridge entry of a hub that a stream belongs to. -/
def bridgeOf (s : State) (hub stream : Nat) : Option Nat :=
  ((List.range 16).map (16 * hub + ·)).find? fun b => leAt (bridgeCfg s b) 17 1 != 0 && leAt (bridgeCfg s b) 0 8 == stream

/-! ## Reception (R479) -/

/-- The stream filter of a hub that a frame matches: the first that is enabled for its stream (R479). -/
def filterOf (s : State) (hub : Nat) (frame : List Byte) : Option Nat :=
  ((List.range 64).map (64 * hub + ·)).find? fun k =>
    let e := slice (s.octs 0x4C12 k) 0 16
    leAt e 11 1 == 1 && leAt e 0 8 == streamOf frame

/-- What the stream filters make of a received frame (R474, R479): its queue, the one that its filter names or the one of its priority; none where the
filter's maximum size, its meter or the stream's recovery function refuses it. -/
def rxQueue (s : State) (hub : Nat) (frame : List Byte) : Option Nat × State :=
  let found := filterOf s hub frame
  let e := slice (s.octs 0x4C12 (found.getD 0)) 0 16
  if found.isSome && leAt e 12 2 ≠ 0 && leAt e 12 2 < frame.length then (none, s)
  else
    let m := if found.isSome then meterPass s hub (leAt e 9 1 % 32) frame.length else (true, s)
    let r := if m.1 then frerPass m.2 hub frame else (false, m.2)
    (if r.1 then some (if found.isSome then leAt e 10 1 % 8 else framePcp frame) else none, r.2)

/-- A frame takes the next slot of a receive queue that software has given up, or is counted as dropped (R479). -/
def ethStore (s : State) (hub q : Nat) (frame : List Byte) : State :=
  let key := 16 * hub + 8 + q
  let i := tget s.host.rxAt key 0
  let at_ := queueSlot s hub (8 + q) i
  if !(queueOn s hub (8 + q)) || slotField s hub at_ 0 1 ≠ 1 || !(slotClean s hub at_) then s.count64 0x4C18 hub 1
  else
    let s1 := sramWrite s hub (at_ + 64) frame
    let s2 := sramWrite s1 hub (at_ + 16) (toBytes 8 s.now ++ toBytes 8 (lowBits 64 (gptp s hub s.now)) ++ toBytes 2 0)
    let s3 := sramWrite (sramWrite s2 hub (at_ + 4) (toBytes 2 frame.length)) hub at_ [0]
    { s3 with host := { s3.host with rxAt := tput s3.host.rxAt key ((i + 1) % 64) } }

/-- The bridge that a frame is for, with its ACF messages' bytes (R483). -/
def bridged (s : State) (hub : Nat) (frame : List Byte) : Option (Nat × List Byte) :=
  (ntscf frame).bind fun p => (bridgeOf s hub p.1).map fun b => (b, p.2)

/-- An Ethernet frame from its addresses and what follows them. -/
def ethFrame (dest src : BitVec 48) (rest : List Byte) : List Byte := beBytes 6 dest.toNat ++ beBytes 6 src.toNat ++ rest

/-- `ETH_FRAME_RECEIVE` (R479, R483): a frame that passes the stream filters goes to the controllers of its bridge entry; any other takes the next
owned slot of its queue, with its stamps, or is discarded and counted. -/
def ethReceive (s : State) (hub : Nat) (frame : List Byte) : State :=
  if !(hubUp s hub) || 9216 < frame.length then s
  else match rxQueue s hub frame with
    | (none, s1) => s1
    | (some q, s1) => match bridged s1 hub frame with
      | some (b, payload) => (acfMessages 256 payload).foldl (fun a m => bridgeIn a b m) s1
      | none => ethStore s1 hub q frame

/-- `ETH_FRAME_RECEIVE` (R479). -/
def execEthFrameReceive (hub : Fin 2) (dest src : BitVec 48) (rest : List Byte) (s : State) : Res :=
  ok (ethReceive s hub.val (ethFrame dest src rest))

end Sys2Proof.Machine
end

