-- ==== Sys2Proof/Machine/Secure.lean ====
section
/-! DEFINITION. Updates, attestation, Axbel key slots and recovery (R498-R508). -/

namespace Sys2Proof.Machine

/-! ## Updates (R499-R501) -/

/-- Check 7 of R211 for `UPD_VERIFY` and `UPD_WRITE`, posted from a sector (R499, R500). -/
def updCheck (write : Bool) (sec : Nat) (b : BitVec 384) : Nat :=
  if sec ≠ 0 then 0x091A
  else if fld b 2 286 ≠ 0 || (!write && fld b 0 2 ≠ 0) then 0x0102
  else if fld b 320 64 % 64 ≠ 0 || fld b 288 32 < 448 || 6291456 < fld b 288 32 || (write && fld b 0 2 = 0) then 0x0910
  else 0

/-- The bytes of the image that an update command names. -/
def updImage (s : State) (x : Slot) : List Byte := pagedRead s x.pages (fld x.body 320 64) (fld x.body 288 32)

/-- The status of checks 2 to 7 of R493 on an image of a stated length, which is its own (R500). -/
def updStatus (s : State) (hub : Nat) (img : List Byte) : Nat :=
  if img.length ≠ fwClen img + 3309 then 0x0910 else fwCheck s hub img

/-- `UPD_VERIFY` (R499). -/
def updVerify (s : State) (h : Nat) : State :=
  runCmd s h 0xE0 fun s i x =>
    let va := fld x.body 320 64
    let n := fld x.body 288 32
    if pagedBad s x.pages va n then done (countPaged s x.pages va n 11 false) i 0x010D 0
    else
      let img := updImage s x
      let st := updStatus s x.hub img
      let s1 := countPaged s x.pages va n 11 false
      if st = 0 then done (s1.setOcts 0x4803 0 (fwIdentity img)) i 0 (BitVec.ofNat 32 (fwSvn img))
      else done (s1.setOcts 0x4803 0 []) i st 0

/-- `UPD_VERIFY` (R499). -/
def execUpdVerify (h : Nat) (s : State) : Res := ok (updVerify s h)

/-- The hub whose flash an update writes next: the first that it names and has not done; `from_` is the least it may be. -/
def updNext (hubs from_ : Nat) : Option Nat := [0, 1].find? fun k => decide (from_ ≤ k) && nbit hubs k

/-- The flash of a hub is being written by the command of a handle. -/
def setWriting (s : State) (hub h : Nat) : State := s.modHub hub fun x => { x with writing := some h }

/-- The hubs of an update written in order, each with the copy that was read back from its flash; the next one stays in writing when the
copies run out, and one that another update is writing waits for that (R500, R501). -/
def updHubs (s : State) (i : Nat) (x : Slot) (img : List Byte) : List (List Byte) → Option Nat → State
  | _, none =>
    let hubs := fld x.body 0 2
    done (nimWarn s (4 + x.hub) 0x0302 (toBytes 1 hubs ++ toBytes 1 (fwSvn img) ++ fwIdentity img)) i 0 0
  | [], some k => if (s.hubBoot k).writing.isSome then s else setWriting s k (handleOf i x)
  | copy :: rest, some k =>
    let s1 := s.modHub k fun y => { y with flash := some copy, writing := none }
    if fwCheck s1 k copy ≠ 0 then done s1 i 0x0917 0 else updHubs s1 i x img rest (updNext (fld x.body 0 2) (k + 1))

/-- The hub whose flash the command of a handle is writing. -/
def updAt (s : State) (h : Nat) : Option Nat := [0, 1].find? fun k => (s.hubBoot k).writing == some h

/-- Another update writes a flash that this one names (R500). -/
def updBusy (s : State) (hubs h : Nat) : Bool := [0, 1].any fun k => nbit hubs k && (s.hubBoot k).writing.isSome && (s.hubBoot k).writing != some h

/-- `UPD_WRITE` (R500): the first step checks the staged identity; each copy in `readback` is what one hub's flash reads back as, and the
command goes on with a later step where copies are still to come. Log entry 98 (DESIGN CHOICE). -/
def updWrite (s : State) (h : Nat) (readback : List (List Byte)) : State :=
  runCmd s h 0xE1 fun s i x =>
    let img := updImage s x
    let at_ := updAt s (handleOf i x)
    let s1 := if at_.isNone then countPaged s x.pages (fld x.body 320 64) (fld x.body 288 32) 11 false else s
    if updBusy s (fld x.body 0 2) (handleOf i x) then s
    else if at_.isNone && pagedBad s x.pages (fld x.body 320 64) (fld x.body 288 32) then done s1 i 0x010D 0
    else if at_.isNone && ((s.octs 0x4803 0).isEmpty || fwIdentity img ≠ s.octs 0x4803 0) then done s1 i 0x0916 0
    else if at_.isNone && img.length ≠ fwClen img + 3309 then done s1 i 0x0910 0
    else updHubs s1 i x img readback (at_.or (updNext (fld x.body 0 2) 0))

/-- `UPD_WRITE` (R500). -/
def execUpdWrite (h : Nat) (readback : List (List Byte)) (s : State) : Res := ok (updWrite s h readback)

/-! ## Identity and attestation (R506-R508) -/

/-- The trace block of a die as `ID_DIE` reads it (R506). -/
def traceOf (s : State) (seat : Nat) : List Byte :=
  let b := lget s.dev.traces seat 0
  if crc32c (toBytes 12 (fld b 0 96)) = fld b 96 32 then toBytes 16 b.toNat else toBytes 16 0

/-- The seed of the identity key (R507). -/
def identitySeed (s : State) : List Byte :=
  shake256 ((s.hubBoot 0).seed ++ [0x4B, 0x58, 0x2D, 0x41, 0x54, 0x54, 0x2D, 0x31] ++ toBytes 8 s.dev.serial)

/-- The first 256 bytes of an attestation report (R508). -/
def reportBody (s : State) (hub sector : Nat) (nonce : Nat) : List Byte :=
  let x := s.hubBoot hub
  let digest := ((tfind s.work.images sector).map Image.digest).getD []
  toBytes 4 0x5241584B ++ toBytes 2 1 ++ toBytes 1 x.svn ++ toBytes 1 x.rollback ++ toBytes 8 s.dev.serial ++ toBytes 32 nonce ++ toBytes 8 s.now ++
  slice (x.image.getD []) 0 32 ++ toBytes 1 x.slot ++ toBytes 1 (devCode s.dev.st) ++ toBytes 1 sector ++ toBytes 5 0 ++ slice digest 0 32 ++
  shake256 (toBytes 192 (s.sec sector).record.toNat) ++ (List.range 6).flatMap (traceOf s)

/-- Check 7 of R211 for `ATT_REPORT`, posted from a sector (R508). -/
def attCheck (sec : Nat) (b : BitVec 384) : Nat :=
  if fld b 6 58 ≠ 0 then 0x0102 else if sec ≠ 0 && fld b 0 6 ≠ sec then 0x0920 else 0

/-- `ATT_REPORT` (R508). -/
def attReport (s : State) (h : Nat) : State :=
  runCmd s h 0xE2 fun s i x =>
    let va := fld x.body 320 64
    let body := reportBody s x.hub (fld x.body 0 6) (fld x.body 64 256)
    let report := body ++ slice (mldsaSign (identitySeed s) body) 0 3309
    done (countPaged (outWrite s x va report) x.pages va 3565 11 true) i 0 0

/-- `ATT_REPORT` (R508). -/
def execAttReport (h : Nat) (s : State) : Res := ok (attReport s h)

/-! ## Axbel key slots (R505) -/

/-- A key slot that holds nothing. -/
def KeySlot.empty : KeySlot := { installed := false, gen := 0, mask := 0, key := [], salt := [], tx := 0, high := 0, seen := [] }

/-- Key slot `n`. -/
def State.keySlot (s : State) (n : Nat) : KeySlot := tget s.plant.keys n KeySlot.empty

/-- Key slot `n` replaced. -/
def State.setKeySlot (s : State) (n : Nat) (k : KeySlot) : State := { s with plant := { s.plant with keys := tput s.plant.keys n k } }

/-- A write of a key slot: its status, and the state after it (R505). `via` is the slot of the datagram that carries it, none over I3C. -/
def keyWrite (s : State) (via : Option Nat) (n : Nat) (value : List Byte) : Nat × State :=
  let allowed := match via with
    | none => true
    | some k => nbit (s.keySlot k).mask 2
  if !(s.dev.st == .config || s.dev.st == .operational) then (0x0004, s)
  else if 15 ≤ n || !allowed then (0x0921, s)
  else if value.isEmpty then (0, { s with plant := { s.plant with keys := tdel s.plant.keys n } })
  else if value.length ≠ 48 then (0x0005, s)
  else if leAt value 39 1 / 8 ≠ 0 || leAt value 40 8 ≠ 0 then (0x0921, s)
  else if (s.keySlot n).installed && leAt value 36 3 = (s.keySlot n).gen then (0x0921, s)
  else
    (0, s.setKeySlot n { installed := true, gen := leAt value 36 3, mask := leAt value 39 1, key := value.take 32, salt := (value.drop 32).take 4,
                         tx := 1, high := 0, seen := [] })

/-- `BS_AX_KEY` (R505). -/
def execBsAxKey (_hub : Fin 2) (via : Option Nat) (slot : Nat) (value : List Byte) (s : State) : Res := ok (keyWrite s via slot value).2

/-! ## Recovery (R498) -/

/-- The hub is in recovery (R498, R501). -/
def recovering (s : State) (hub : Nat) : Bool := (s.hubBoot hub).phase == 0xE || mismatched (s.hubBoot hub)

/-- A write of recovery bytes: its status, and the state after it. Log entry 100 (DEDUCED). -/
def recData (s : State) (hub : Nat) (value : List Byte) : Nat × State :=
  let off := leAt value 0 8
  let data := value.drop 8
  if !(recovering s hub) then (0x0004, s)
  else if data.isEmpty || 1016 < data.length then (0x0005, s)
  else if 0x600000 < off + data.length then (0x0919, s)
  else
    let s1 := sramWrite s hub (0x01A00000 + off) data
    (0, s1.modHub hub fun x => { x with recovery := data.zipIdx.foldl (fun t p => tput t (off + p.2) p.1) x.recovery })

/-- `BS_REC_DATA` (R498). -/
def execBsRecData (hub : Fin 2) (value : List Byte) (s : State) : Res := ok (recData s hub.val value).2

/-- The image that the received bytes hold: what has not been received reads as zero. -/
def recImage (s : State) (hub : Nat) : List Byte :=
  let r := (s.hubBoot hub).recovery
  let byte (i : Nat) : Byte := tget r i 0
  let head := (List.range 128).map byte
  (List.range (Nat.min 0x600000 (fwClen head + 3309))).map byte

/-- The received image verified (R493, R498): a failure keeps the hub in recovery. -/
def recVerify (s : State) (hub : Nat) : State :=
  if !(recovering s hub) then s
  else if fwCheck s hub (recImage s hub) = 0 then takeImage s hub (recImage s hub) else bootStatus s hub 0x0919 0xE

/-- `BS_REC_CMD_VERIFY` (R498). -/
def execBsRecCmdVerify (hub : Fin 2) (s : State) : Res := ok (recVerify s hub.val)

/-- The received image verified, written to flash, and its copy verified (R498). -/
def recFlash (s : State) (hub : Nat) (readback : List Byte) : State :=
  if !(recovering s hub) then s
  else if fwCheck s hub (recImage s hub) ≠ 0 then bootStatus s hub 0x0919 0xE
  else
    let s1 := s.modHub hub fun x => { x with flash := some readback }
    if fwCheck s1 hub readback = 0 then takeImage s1 hub readback else bootStatus s1 hub 0x0917 0xE

/-- `BS_REC_CMD_FLASH` (R498). -/
def execBsRecCmdFlash (hub : Fin 2) (readback : List Byte) (s : State) : Res := ok (recFlash s hub.val readback)

/-- `BS_REC_CMD_DISCARD` (R498). -/
def execBsRecCmdDiscard (hub : Fin 2) (s : State) : Res :=
  ok (if recovering s hub.val then s.modHub hub.val fun x => { x with recovery := [] } else s)

end Sys2Proof.Machine
end

