-- ==== Sys2Proof/Machine/Tap.lean ====
section
/-! DEFINITION. The IEEE 1149.1 chain (R576): the state machine that all six TAPs follow, their instruction registers and the data registers
between `TDI` and `TDO`. The spec gives no instruction codes: log entry 18. -/

namespace Sys2Proof.Machine

/-- The seats of the chain from `TDO` back to `TDI` (R576). -/
def chainSeats : List Nat := [5, 3, 2, 1, 0, 4]

/-- The next state of a TAP on a rising edge of `TCK`. -/
def TapSt.next (st : TapSt) (tms : Bool) : TapSt :=
  match st, tms with
  | .reset, true => .reset | .reset, false => .idle
  | .idle, true => .selDr | .idle, false => .idle
  | .selDr, true => .selIr | .selDr, false => .capDr
  | .capDr, true => .ex1Dr | .capDr, false => .shDr
  | .shDr, true => .ex1Dr | .shDr, false => .shDr
  | .ex1Dr, true => .updDr | .ex1Dr, false => .pauDr
  | .pauDr, true => .ex2Dr | .pauDr, false => .pauDr
  | .ex2Dr, true => .updDr | .ex2Dr, false => .shDr
  | .updDr, true => .selDr | .updDr, false => .idle
  | .selIr, true => .reset | .selIr, false => .capIr
  | .capIr, true => .ex1Ir | .capIr, false => .shIr
  | .shIr, true => .ex1Ir | .shIr, false => .shIr
  | .ex1Ir, true => .updIr | .ex1Ir, false => .pauIr
  | .pauIr, true => .ex2Ir | .pauIr, false => .pauIr
  | .ex2Ir, true => .updIr | .ex2Ir, false => .shIr
  | .updIr, true => .selDr | .updIr, false => .idle

/-- `n` bits of a number, lowest first. -/
def bitsOf (n v : Nat) : List Bool := (List.range n).map (nbit v)

/-- The number that bits spell, lowest first. -/
def ofBits (l : List Bool) : Nat := l.foldr (fun b a => b2n b + 2 * a) 0

/-- The identification code of a die (R576). -/
def idcode (s : State) (seat : Nat) : Nat :=
  pack [(28, 4, dieSeat s seat), (12, 16, 0x3280), (1, 11, Config.jep106), (0, 1, 1)]

/-- What the data register that an instruction selects captures: the identification code, a bypass bit of zero, or free bits where the
spec gives no contents (boundary cells and the debug transport registers). -/
def captured (s : State) (seat ir : Nat) : List Bool :=
  match ir with
  | 0x01 => bitsOf 32 (idcode s seat)
  | 0x00 => bitsOf (Config.boundaryCells seat) (Config.freeNat (s.free + seat))
  | 0x02 => bitsOf (Config.boundaryCells seat) (Config.freeNat (s.free + seat))
  | 0x10 => bitsOf 32 (Config.freeNat (s.free + seat))
  | 0x11 => bitsOf (Config.dmiBits seat) (Config.freeNat (s.free + seat))
  | _ => [false]

/-- What the chain captures in its data registers. -/
def captureDr (s : State) : List Bool := (chainSeats.zipIdx).flatMap fun p => captured s p.1 (lget s.plant.taps.ir p.2 1)

/-- The instructions that a full shift register holds, five bits each, nearest `TDO` first. -/
def irOf (sh : List Bool) : List Nat := (List.range 6).map fun i => ofBits ((sh.drop (5 * i)).take 5)

/-- One shift towards `TDO`. -/
def shiftIn (l : List Bool) (tdi : Bool) : List Bool := l.drop 1 ++ [tdi]

/-- The chain after Test-Logic-Reset: every TAP selects its identification code. -/
def Taps.cleared (t : Taps) : Taps := { t with st := .reset, ir := List.replicate 6 1 }

/-- One rising edge of `TCK` with the update that its falling edge brings (R576). -/
def tckEdge (s : State) (tms tdi : Bool) : State :=
  if s.dev.st = .off then s
  else
    let t := s.plant.taps
    let t1 : Taps := match t.st with
      | .capDr => { t with drSh := captureDr s }
      | .shDr => { t with drSh := shiftIn t.drSh tdi }
      | .capIr => { t with irSh := (List.replicate 6 (bitsOf 5 1)).flatten }
      | .shIr => { t with irSh := shiftIn t.irSh tdi }
      | _ => t
    let st := t.st.next tms
    let t2 : Taps := match st with
      | .reset => Taps.cleared t1
      | .updIr => { t1 with st := st, ir := irOf t1.irSh }
      | .shDr => { t1 with st := st, tdo := t1.drSh.headD false }
      | .shIr => { t1 with st := st, tdo := t1.irSh.headD false }
      | _ => { t1 with st := st }
    { s.takeFree 7 with plant := { s.plant with taps := t2 } }

/-- `TCK_RISING_EDGE` (R576). -/
def execTckRisingEdge (tms tdi : Bool) (s : State) : Res := ok (tckEdge s tms tdi)

/-- `TRST_N_ASSERT` (R576): a low of 1 us or more resets every TAP. -/
def execTrstNAssert (lowNs : Nat) (s : State) : Res :=
  ok (if lowNs < 1000 then s else { s with plant := { s.plant with taps := Taps.cleared s.plant.taps } })

end Sys2Proof.Machine
end

