-- ==== Sys2Proof/Machine/VertexCmds.lean ====
section
/-! DEFINITION. The Vertex and barrier commands (R174, R184, R186, R194, R195, R200, R201, R260). -/

namespace Sys2Proof.Machine

/-! ## Acceptance (R201, R211) -/

/-- The status of a Vertex command's body at acceptance (R201, R202). Log entry 38 (DEDUCED). -/
def vertexBody (code : Nat) (b : BitVec 384) : Nat :=
  let need (fs : List (Nat × Nat)) (more : Bool) : Nat := if onlyFields b fs && more then 0 else 0x0507
  let count := fld b 24 8
  let counted (n : Nat) : Nat := if n ≠ 0 then n else if count = 0 || 64 < count then 0x050A else 0
  match code with
  | 0x70 => counted (need [(16, 3), (24, 8), (326, 58)] (fld b 16 3 < 6))
  | 0x71 => counted (need [(24, 8), (326, 58)] true)
  | 0x72 => need [(224, 32), (288, 32)] true
  | 0x73 => need [(224, 32), (288, 32)] true
  | 0x74 => need [(0, 9), (12, 4), (192, 96)] (fld b 14 2 ≠ 3 && (fld b 12 2 = 1 || (fld b 12 2 = 2 && fld b 0 9 = 0)))
  | 0x75 => need [(288, 32)] true
  | 0x78 => need [(16, 4), (40, 8), (326, 58)] (if b.getLsbD 19 then fld b 16 3 = 4 || fld b 16 3 = 5 else fld b 16 3 < 4 && fld b 40 8 = 0)
  | _ => need [(224, 32)] true

/-- The buffers of a Vertex command. -/
def vertexBufs (code : Nat) (b : BitVec 384) : List Buf :=
  let a := fld b 320 64
  match code with
  | 0x70 => [{ va := a, len := 4 * fld b 24 8, write := true, input := false }]
  | 0x71 => [{ va := a, len := 4 * fld b 24 8, write := false, input := true }]
  | 0x78 => [{ va := a, len := 64, write := false, input := true }, { va := a + 64, len := 4, write := true, input := false }]
  | _ => []

/-! ## Objects (R174, R186, R200) -/

/-- Live objects that a sector holds on a unit (R260). -/
def liveOn (s : State) (sec u : Nat) : Nat :=
  (s.sync.objs.filter fun p => p.1 / 4096 == u && p.2.st == .live && p.2.sector == sec).length

/-- Objects taken by `VT_ALLOC`: the lowest indices of a unit that are FREE or LOST (R174). -/
def takeObjs (s : State) (u n : Nat) : List Nat :=
  (((List.range (unitSize u)).map (4096 * u + ·)).filter fun k => (s.vobj k).st != .live).take n

/-- `VT_ALLOC` at its unit (R174, R260). -/
def vtAlloc (s : State) (h : Nat) : State :=
  runCmd s h 0x70 fun s i x =>
    let u := fld x.body 16 3
    let n := fld x.body 24 8
    let ks := takeObjs s u n
    if awaitsFwd x u || unitBusy s x u then s
    else if fld (s.sec x.sector).record (800 + 16 * u) 16 < liveOn s x.sector u + n then done s i 0x0509 0
    else if ks.length < n then done s i 0x0508 0
    else
      let s1 := ks.foldl (fun a k => a.setVobj k { st := .live, gen := ((a.vobj k).gen + 1) % 65536, value := 0, owner := x.ctx, sector := x.sector })
        (unitTook s u x.key)
      let refs := ks.map fun k => pack [(29, 3, u), (12, 16, (s1.vobj k).gen), (0, 12, k % 4096)]
      done (outWrite s1 x (fld x.body 320 64) (refs.flatMap (toBytes 4))) i 0 0

/-- `VT_ALLOC` (R174). -/
def execVtAlloc (h : Nat) (s : State) : Res := ok (vtAlloc s h)

/-- The status of a reference that a context frees: usable, and owned by the context (R200, R202). -/
def freeStatus (s : State) (x : Slot) (r : Nat) : Nat :=
  let st := refStatus s x.sector r
  if st ≠ 0 then st else if (s.vobj (refKey r)).owner ≠ x.ctx then 0x050A else 0

/-- `VT_FREE`: every reference is checked, then each unit's request is on its way (R186, R200). -/
def vtFree (s : State) (h : Nat) : State :=
  runCmd s h 0x71 fun s i x =>
    match (inWords x (fld x.body 24 8)).find? fun r => freeStatus s x r != 0 with
    | some r => done s i (freeStatus s x r) 0
    | none => waitOn s i

/-- `VT_FREE` (R200). -/
def execVtFree (h : Nat) (s : State) : Res := ok (vtFree s h)

/-- A unit frees the object of reference `i` at its own stamp (R186); the command is done once every unit has (R200). A
reference that has been applied is kept as all ones. Log entry 165 (DESIGN CHOICE). -/
def vtFreeIn (s : State) (h i : Nat) : State :=
  let x := s.slot (slotOf h)
  let n := fld x.body 24 8
  let r := inWord x i
  if !(s.holds h && x.st == .inflight && x.cmd == .waiting && x.code == 0x71 && x.sgen == (s.sec x.sector).gen) || n ≤ i || r = 0xFFFFFFFF || unitBusy s x (refUnit r) || cmdCut s x then s
  else
    let s1 := if freeStatus s x r = 0 then freeObj (unitTook s (refUnit r) x.key) (refKey r) else s
    let ws := lset (inWords x n) i 0xFFFFFFFF
    let s2 := s1.setSlot (slotOf h) { s1.slot (slotOf h) with input := ws.flatMap (toBytes 4) }
    if ws.all (· == 0xFFFFFFFF) then done s2 (slotOf h) 0 0 else s2

/-- `VT_FREE_UNIT_APPLY`: of a command that waits, or of one whose context has been torn down meanwhile (R224). -/
def vtFreeUnit (s : State) (h i : Nat) : State :=
  match tornCmd s h 0x71 with
  | some x => runTorn s h x fun a => vtFreeIn a h i
  | none => vtFreeIn s h i

/-- `VT_FREE_UNIT_APPLY` (R186). -/
def execVtFreeUnitApply (h i : Nat) (s : State) : Res := ok (vtFreeUnit s h i)

/-- The command form of a post or a set (R176, R177, R200). -/
def vtSignal (s : State) (h code : Nat) (f : State → Nat → Nat → Nat → Nat × State) : State :=
  runCmd s h code fun s i x =>
    let r := fld x.body 224 32
    if refUnit r < 6 && (awaitsFwd x (refUnit r) || unitBusy s x (refUnit r)) then s
    else
      let a := f (unitTook s (refUnit r) x.key) x.sector r (fld x.body 288 32)
      done a.2 i a.1 0

/-- `VT_POST` (R200). -/
def execVtPost (h : Nat) (s : State) : Res := ok (vtSignal s h 0x72 vtPostOn)

/-- `VT_SET` (R200). -/
def execVtSet (h : Nat) (s : State) : Res := ok (vtSignal s h 0x73 vtSetOn)

/-- `VT_WATCH` (R182, R184): its handle completes when the watch is released. -/
def vtWatch (s : State) (h : Nat) : State :=
  runCmd s h 0x74 fun s i x =>
    let b := x.body
    let r := fld b 224 32
    if refUnit r < 6 && (awaitsFwd x (refUnit r) || unitBusy s x (refUnit r)) then s
    else
      let w : Watch := { id := 0, unit := 0, ref := r, cond := fld b 14 2, cmp := fld b 256 32, cookie := fld b 192 32,
                         dkind := fld b 12 2, dest := fld b 0 9, sector := x.sector, site := none, handle := some h, wake := none }
      let a := vtRegister (waitOn (unitTook s (refUnit r) x.key) i) w
      if a.1 = 0 then a.2 else done s i a.1 0

/-- `VT_WATCH` (R184). -/
def execVtWatch (h : Nat) (s : State) : Res := ok (vtWatch s h)

/-- The pending `VT_WATCH` that a handle names, by its generation and its context (R200, R216). -/
def pendingWatch (s : State) (ctx v : Nat) : Option Watch :=
  if s.holdsGen v && (s.slot (slotOf v)).ctx == ctx then s.sync.watches.find? fun w => w.handle.any fun h => h % 2 ^ 24 == v % 2 ^ 24
  else none

/-- `VT_UNWATCH`: a pending `VT_WATCH` of the context is cancelled by its unit (R179, R200). -/
def vtUnwatch (s : State) (h : Nat) : State :=
  runCmd s h 0x75 fun s i x =>
    let v := fld x.body 288 32
    match pendingWatch s x.ctx v with
    | none => done s i 0x0105 0
    | some w =>
      if awaitsFwd x w.unit || unitBusy s x w.unit then s
      else
        let s1 := unitTook (dropWatch s w.id) w.unit x.key
        done (finish s1 (slotOf v) 0x050C (s.vobj (refKey w.ref)).value s.now) i 0 0

/-- `VT_UNWATCH` (R200). -/
def execVtUnwatch (h : Nat) (s : State) : Res := ok (vtUnwatch s h)

/-! ## Barriers (R189-R195, R200, R201) -/

/-- Homes that a bitmap names. -/
def bitmapHomes (m : Nat) : List Nat := (List.range 512).filter (nbit m)

/-- A home is granted to a sector (R258). -/
def homeGranted (s : State) (sec h : Nat) : Bool :=
  decide (h % 128 < 72) && (s.sec sec).record.getLsbD (512 + 72 * (h / 128) + h % 128)

/-- Keys of the barriers of a Prism or of a root (R189). -/
def barKeys (dev : Bool) (u : Nat) : List Nat :=
  if dev then (List.range 8).map (256 + 8 * (u - 4) + ·) else (List.range 64).map (64 * u + ·)

/-- The barriers that a sector may hold on a Prism or root (R258). -/
def barQuota (s : State) (sec : Nat) (dev : Bool) (u : Nat) : Nat :=
  if dev then fld (s.sec sec).record (if u = 4 then 1024 else 1028) 4 else fld (s.sec sec).record (992 + 8 * u) 8

/-- A device barrier's participants lie in both halves (R195). -/
def spans (parts : List Nat) (nx u : Nat) : Bool :=
  let hs := parts.map (fun h => halfOf (dieOf h)) ++ (if 0 < nx then [halfOf u] else [])
  hs.contains 0 && hs.contains 1

/-- `APX_CREATE` (R190, R195, R201, R260). Log entry 164 (DESIGN CHOICE). -/
def apxCreate (s : State) (h : Nat) : State :=
  runCmd s h 0x78 fun s i x =>
    let dev := x.body.getLsbD 19
    let u := fld x.body 16 3
    let nx := fld x.body 40 8
    let parts := bitmapHomes (leAt x.input 0 64)
    let keys := barKeys dev u
    if awaitsFwd x u || unitBusy s x u then s
    else if parts.any (fun p => !(homeGranted s x.sector p) || (!dev && dieOf p != u)) || (parts.isEmpty && nx = 0) then done s i 0x0516 0
    else if dev && s.num 0x4000 0 == 1 && spans parts nx u then done s i 0x0515 0
    else
      let mine := keys.filter fun k => (s.bar k).live && (s.bar k).sector == x.sector
      match keys.find? fun k => !(s.bar k).live with
      | none => done s i 0x0514 0
      | some k =>
        if barQuota s x.sector dev u ≤ mine.length then done s i 0x0514 0
        else
          let b : Barrier := { Barrier.never with live := true, gen := ((s.bar k).gen + 1) % 4096, parts := parts, nx := nx,
                                                  owner := x.ctx, sector := x.sector }
          let s1 := (unitTook s u x.key).setBar k b
          done (outWrite s1 x (fld x.body 320 64 + 64) (toBytes 4 (barRef s1 k))) i 0 0

/-- `APX_CREATE` (R201). -/
def execApxCreate (h : Nat) (s : State) : Res := ok (apxCreate s h)

/-- `APX_DESTROY` (R194, R200). -/
def apxDestroy (s : State) (h : Nat) : State :=
  runCmd s h 0x79 fun s i x =>
    let r := fld x.body 224 32
    let st := barStatus s x.sector r
    if st ≠ 0 then done s i st 0
    else if awaitsFwd x (barSeat (barKey r)) || unitBusy s x (barSeat (barKey r)) then s
    else done (barDestroy (unitTook s (barSeat (barKey r)) x.key) (barKey r)) i 0 0

/-- `APX_DESTROY` (R200). -/
def execApxDestroy (h : Nat) (s : State) : Res := ok (apxDestroy s h)

/-- `APX_ARRIVE`: an arrival of a core or the host, whose handle completes with the round (R191, R193). -/
def apxArrive (s : State) (h : Nat) : State :=
  runCmd s h 0x7A fun s i x =>
    let r := fld x.body 224 32
    let k := barKey r
    let b := s.bar k
    let st := barStatus s x.sector r
    if st ≠ 0 then done s i st 0
    else if awaitsFwd x (barSeat k) || unitBusy s x (barSeat k) then s
    else if b.broken then done s i 0x0513 0
    else if b.nx ≤ b.narr then done s i 0x0511 0
    else barCheck ((barCompare (waitOn (unitTook s (barSeat k) x.key) i) k).setBar k
      { b with narr := b.narr + 1, handles := b.handles ++ [h], dup := (b.dup.1, b.dup.2 + 1) }) k

/-- `APX_ARRIVE` (R191). -/
def execApxArrive (h : Nat) (s : State) : Res := ok (apxArrive s h)

end Sys2Proof.Machine
end

