-- ==== Sys2Proof/Machine/Post.lean ====
section
/-! DEFINITION. Windows, posts, engines and completions (R203-R225, R255, R256, R580). -/

namespace Sys2Proof.Machine

/-! ## Commands by code (R210) -/

/-- The defined command codes. -/
def cmdCodes : List Nat :=
  [0x01, 0x02, 0x40, 0x41, 0x42, 0x43, 0x44, 0x50, 0x51, 0x60, 0x61, 0x62, 0x63, 0x64, 0x65, 0x70, 0x71, 0x72, 0x73, 0x74, 0x75,
   0x78, 0x79, 0x7A, 0x90, 0xA0, 0xA1, 0xA2, 0xB0, 0xB2, 0xC0, 0xC1, 0xE0, 0xE1, 0xE2]

/-- The engine that runs a command (R210). -/
def cmdEngine (code : Nat) : Engine :=
  if code = 0xA0 || code = 0xA1 then .plane else if code = 0xA2 then .solver else if 0xE0 ≤ code && code < 0xF0 then .crypto else .control

/-- Commands accepted only in CONFIG (R580). -/
def configOnly (code : Nat) : Bool := [0x40, 0x41, 0x50, 0x51, 0xE1].contains code

/-- The device state allows a command (R248, R367, R580). -/
def stateAllows (s : State) (code : Nat) : Bool :=
  if configOnly code then s.dev.st == .config
  else if [0xA0, 0xA1, 0xC0].contains code then s.operating
  else s.operating || s.dev.st == .config

/-- The status for the wrong device state (R171, R580). -/
def stateStatus (code : Nat) : Nat := if code = 0x50 || code = 0x51 then 0x0150 else 0x010A

/-- Check 7 of R211: the body of a command posted from a sector through a window of a hub. -/
def bodyStatus (s : State) (code sec hub : Nat) (b : BitVec 384) : Nat :=
  let only (fs : List (Nat × Nat)) : Nat := if onlyFields b fs then 0 else 0x0102
  if code < 0x40 then only []
  else if code < 0x50 then sectorBody s code sec b
  else if code = 0x50 then only [(320, 64)]
  else if code = 0x51 then only []
  else if code < 0x70 then poolBody code b
  else if code < 0x80 then vertexBody code b
  else if code = 0x90 then probeCheck b
  else if code = 0xA0 then peCheck s false hub sec b
  else if code = 0xA1 then peCheck s true hub sec b
  else if code = 0xA2 then asCheck b
  else if code = 0xB0 then (if sec ≠ 0 then 0x0801 else only [(0, 7), (325, 59)])
  else if code = 0xB2 then txCheck s sec b
  else if code < 0xE0 then schedBody s code sec b
  else if code = 0xE2 then attCheck sec b
  else updCheck (code == 0xE1) sec b

/-- A buffer that is read, whose bytes are no list to take at acceptance. -/
def readBuf (va len : Nat) : Buf := { va := va, len := len, write := false, input := false }

/-- A buffer that is written. -/
def writeBuf (va len : Nat) : Buf := { va := va, len := len, write := true, input := false }

/-- The image that `IMG_LOAD` names, as long as its header says; the header alone where it cannot be read. Log entry 104 (DEDUCED). -/
def imgBuf (s : State) (sec va : Nat) : Buf :=
  match latchPages s sec va 64 false with
  | none => readBuf va 64
  | some pg => readBuf va (imgSpan (ofBytes (pagedRead s pg va 64)))

/-- The buffers of a Plane engine command. -/
def peBufs (s : State) (voxel : Bool) (b : BitVec 384) : List Buf :=
  (peReads voxel b).map (fun p => readBuf p.1 p.2) ++
    (if peOut voxel b then [writeBuf (peOaddr voxel b) (peOutLen voxel (s.binding (peBind voxel b)) b)] else [])

/-- Check 8 of R211: the buffers that a body names. -/
def cmdBufs (s : State) (code sec : Nat) (b : BitVec 384) : List Buf :=
  let a := fld b 320 64
  if code < 0x40 then []
  else if code < 0x50 then sectorBufs s code b
  else if code = 0x50 then [imgBuf s sec a]
  else if code = 0x51 then []
  else if code < 0x70 then poolBufs code b
  else if code < 0x80 then vertexBufs code b
  else if code = 0x90 then [readBuf a (64 * fld b 224 32), writeBuf (fld b 256 64) 16]
  else if code = 0xA0 then peBufs s false b
  else if code = 0xA1 then peBufs s true b
  else if code = 0xA2 then [readBuf a (asLen b), writeBuf (fld b 256 64) (2 * fld b 0 9 + 4)]
  else if code = 0xB0 then [{ va := a, len := 32, write := false, input := true }]
  else if code = 0xB2 then [readBuf a ((fld b 256 16 - 1) * fld b 288 32 + fld b 272 16)]
  else if code < 0xE0 then []
  else if code = 0xE2 then [writeBuf a 3565]
  else [readBuf a (fld b 288 32)]

/-- The translations of every buffer, or none where one is not wholly mapped with its access (R211, R212). -/
def latchBufs (s : State) (sec : Nat) : List Buf → Option (List (Nat × Nat))
  | [] => some []
  | c :: r => match latchPages s sec c.va c.len c.write, latchBufs s sec r with
    | some p, some q => some (p ++ q)
    | _, _ => none

/-! ## The descriptor (R209, R211) -/

/-- The header's fields of a 64-byte descriptor: code, tag, `after`, `rep`, `dkind`, `dest`. -/
structure Descriptor where
  code  : Nat
  tag   : Nat
  after : Nat
  rep   : Nat
  dkind : Nat
  dest  : Nat
  body  : BitVec 384
  hdrOk : Bool
  deriving DecidableEq, Repr

/-- A descriptor read from its 64 bytes (R209). -/
def descriptor (bytes : List Byte) : Descriptor :=
  let h := leAt bytes 0 16
  { code := nbits h 112 16, tag := nbits h 64 32, after := nbits h 32 32, rep := nbits h 12 2, dkind := nbits h 10 2, dest := nbits h 0 9,
    body := BitVec.ofNat 384 (leAt bytes 16 48), hdrOk := nbits h 96 16 == 0 && nbits h 14 18 == 0 && nbits h 9 1 == 0 }

/-- Check 5 of R211. -/
def reportOk (s : State) (host : Bool) (sec : Nat) (d : Descriptor) : Bool :=
  match d.rep with
  | 0 => d.dkind == 0 && d.dest == 0
  | 1 => d.dkind == 1 || (d.dkind == 0 && taskIn s sec d.dest)
  | 2 => host && d.dkind == 0 && d.dest == 0
  | _ => false

/-- Check 6 of R211. Log entry 101 (DEDUCED). -/
def afterOk (s : State) (ctx after : Nat) : Bool :=
  after == 0xFFFFFFFF || (s.holdsGen after && (s.slot (slotOf after)).ctx == ctx && (s.slot (slotOf after)).kind != 2 &&
    (s.slot (slotOf after)).st != .free)

/-- The commands of an engine queue (R219). -/
def queued (s : State) (hub : Nat) (eng : Engine) : List (Nat × Slot) :=
  s.cmds.slots.filter fun p => p.2.st == .inflight && p.2.cmd == .queued && p.2.hub == hub && p.2.eng == eng

/-- Check 9 of R211. -/
def queueRoom (s : State) (hub : Nat) (eng : Engine) (ctx : Nat) : Bool :=
  let q := queued s hub eng
  decide (q.length < 256) && decide ((q.filter fun p => p.2.ctx == ctx).length < 64)

/-- Checks 2 to 7 of R211, in their order: a status, zero when every one passes. -/
def postStatus (s : State) (host : Bool) (sec ctx hub : Nat) (d : Descriptor) : Nat :=
  if !(s.operating) && s.dev.st != .config then 0x010A
  else if cmdCodes.contains d.code && !(stateAllows s d.code) then stateStatus d.code
  else if !(cmdCodes.contains d.code) then 0x0101
  else if !d.hdrOk then 0x0102
  else if !(reportOk s host sec d) then 0x0103
  else if !(afterOk s ctx d.after) then 0x0104
  else bodyStatus s d.code sec hub d.body

/-- What acceptance itself does (R242, R377): a trigger arms its entry, and a Plane engine command records its sample. -/
def atAcceptance (s : State) (d : Descriptor) (h : Nat) : State :=
  if d.code = 0xC0 then arm s d.body h
  else if d.code = 0xA0 || d.code = 0xA1 then
    let v := d.code == 0xA1
    recordSample s (peBind v d.body) (instantOf s (peInst v d.body)) (peTs v d.body) (peSensor v d.body)
  else s

/-- A command that depends on nothing or on a handle that failed is settled at acceptance (R210, R220). -/
def settleNew (s : State) (i : Nat) (d : Descriptor) : State :=
  if d.after = 0xFFFFFFFF then (if d.code = 1 then finish s i 0 0 s.now else s)
  else if (s.slot (slotOf d.after)).st = .complete && (s.slot (slotOf d.after)).obj.status ≠ 0 then finish (unarmSlot s i) i 0x010B 0 s.now
  else s

/-- A post to an open window by the source of a key (R179, R211, R212): its status, the handle issued and the state; a rejected one changes nothing. -/
def post (s : State) (k key : Nat) (bytes : List Byte) : Nat × Nat × State :=
  let w := s.win k
  let host := decide (2048 ≤ k)
  let d := descriptor bytes
  let st := postStatus s host w.sector w.ctx w.hub d
  if st ≠ 0 then (st, 0xFFFFFFFF, s)
  else match latchBufs s w.sector (cmdBufs s d.code w.sector d.body) with
    | none => (0x0108, 0xFFFFFFFF, s)
    | some pages =>
      if !(queueRoom s w.hub (cmdEngine d.code) w.ctx) then (0x0107, 0xFFFFFFFF, s)
      else match nextSlot s w.sector with
        | none => (0x0106, 0xFFFFFFFF, s)
        | some i =>
          let lists := (cmdBufs s d.code w.sector d.body).filter fun c => c.input
          let x : Slot := { s.slot i with
            kind := if d.code = 0x74 || d.code = 0x7A then 1 else 0, ctx := w.ctx, hub := w.hub, eng := cmdEngine d.code,
            code := d.code, body := d.body, tag := BitVec.ofNat 32 d.tag, after := BitVec.ofNat 32 d.after, rep := d.rep,
            dkind := d.dkind, dest := d.dest, stamp := s.now, key := key, order := s.id,
            cmd := .queued, input := lists.flatMap fun c => pagedRead s pages c.va c.len,
            bad := lists.any fun c => pagedBad s pages c.va c.len, pages := pages, fwd := false }
          let s1 := allocSlot s.takeId w.sector i x
          let h := handleOf i (s1.slot i)
          (0, h, settleNew (atAcceptance s1 d h) i d)

/-! ## Core windows (R203, R205, R206, R208, R255) -/

/-- A discarded window access, counted (R206, R255). -/
def badWrite (s : State) : State := s.count32 0x1430 0 1

/-- The sector whose range holds core window `n` of a hub. -/
def winSector (s : State) (hub n : Nat) : Option Nat :=
  (s.sectors.find? fun p => p.2.st != .free && decide ((winRange p.2.record hub).1 ≤ n) &&
    decide (n < (winRange p.2.record hub).1 + (winRange p.2.record hub).2)).map Prod.fst

/-- Sector modes of R252: true when mediated. -/
def mediated (s : State) : Bool := s.num 0x3000 0 == 1

/-- The hub of an application core (R179, R278). -/
def coreHub (core : Fin 16) : Fin 2 := ⟨core.val / 8, by omega⟩

/-- The application core a hub numbers `c` (R254): cores 0 to 7 are those of Hub W, 8 to 15 of Hub E. -/
def coreOf (hub : Fin 2) (c : Fin 8) : Fin 16 := ⟨8 * hub.val + c.val, by omega⟩

/-- The process identifier that a core's accesses carry (R254). -/
def corePid (s : State) (core : Fin 16) : Nat := nbits (lget s.dev.kxpid core.val 0) 0 20

/-- Every access of core window `n` is discarded: it is in no sector's range, or its sector is in a reset (R255). -/
def windowDead (s : State) (hub n : Nat) : Bool :=
  match winSector s hub n with
  | none => true
  | some q => (s.sec q).st != .active

/-- R255 for a control-word write. -/
def ctlAllowed (s : State) (hub n pid field : Nat) : Bool :=
  match winSector s hub n with
  | none => false
  | some q =>
    let root := recPid (s.sec 0).record
    (s.sec q).st == .active && field == q && (if mediated s then pid == root else pid == root || pid == recPid (s.sec q).record)

/-- R255 for every other access of a window. -/
def accessAllowed (s : State) (hub n pid : Nat) (checked : Bool) : Bool :=
  match winSector s hub n with
  | none => false
  | some q => (s.sec q).st == .active && (mediated s || !checked || pid == recPid (s.sec q).record)

/-- A new context on a window (R204). -/
def openWindow (s : State) (ref : WinRef) (hub sec : Nat) : State :=
  let k := winKey ref
  let s1 := { s.takeId with cmds := { s.cmds with ctxs := tput s.cmds.ctxs s.id { window := ref, sector := sec, hub := hub } } }
  s1.setWin k { s.win k with isOpen := true, sector := sec, ctx := s.id, hub := hub, fifo := [] }

/-- A control word applied to a window that may take it (R203, R204): it opens the window, keeps it open, closes it, or sets the
sector of a closed one. -/
def setControl (s : State) (ref : WinRef) (hub v : Nat) : State :=
  let k := winKey ref
  let w := s.win k
  if nbit v 31 then (if w.isOpen then s else openWindow s ref hub (nbits v 0 6))
  else if w.isOpen then tearDown s w.ctx
  else s.setWin k { w with sector := nbits v 0 6 }

/-- The control word of a window as it reads (R203). -/
def controlWord (s : State) (k : Nat) : Nat :=
  let w := s.win k
  pack [(31, 1, b2n w.isOpen), (30, 1, b2n w.ovf), (0, 6, w.sector)]

/-- A write of a core window's control word: one that fails R255 is discarded and counted. -/
def coreControl (s : State) (core : Fin 16) (n v : Nat) : State :=
  if ctlAllowed s (coreHub core).val n (corePid s core) (nbits v 0 6) then setControl s (.core (coreHub core) n) (coreHub core).val v else badWrite s

/-- A post to a core window (R206, R208, R211): its response goes to the window's FIFO, and one that finds 16 unread is lost. -/
def corePost (s : State) (core : Fin 16) (n : Nat) (bytes : List Byte) : State :=
  let k := winKey (.core (coreHub core) n)
  if !(accessAllowed s (coreHub core).val n (corePid s core) true) || bytes.length ≠ 64 || !(s.win k).isOpen then badWrite s
  else if 16 ≤ (s.win k).fifo.length then s.setWin k { s.win k with ovf := true }
  else
    let r := post s k (0x400 + core.val) bytes
    let z := r.2.2
    z.setWin k { z.win k with fifo := (z.win k).fifo ++ [(r.1, BitVec.ofNat 32 r.2.1)] }

/-- A response word (R208). -/
def responseWord (r : Nat × Word) : Nat := pack [(32, 16, r.1), (0, 32, r.2.toNat)]

/-- A read of a core window's response word (R208): its value and what it pops. -/
def popResponse (s : State) (core : Fin 16) (n : Nat) : Nat × State :=
  let k := winKey (.core (coreHub core) n)
  if !(accessAllowed s (coreHub core).val n (corePid s core) true) then (0, badWrite s)
  else match (s.win k).fifo with
    | [] => (0xFFFFFFFF, s)
    | r :: rest => (responseWord r, s.setWin k { s.win k with fifo := rest })

/-- A read of a core window's control word (R203): its value, and `ovf` cleared. -/
def readControl (s : State) (core : Fin 16) (n : Nat) : Nat × State :=
  let k := winKey (.core (coreHub core) n)
  if !(accessAllowed s (coreHub core).val n (corePid s core) false) then (0, badWrite s)
  else (controlWord s k, s.setWin k { s.win k with ovf := false })

/-- A read inside a core window's completion view (R205, R218): slots of the window's context, and step handles of its sector. -/
def viewBytes (s : State) (k : Nat) (o n : Nat) : List Byte :=
  let w := s.win k
  (List.range n).map fun j =>
    let i := (o + j) / 32
    let x := s.slot i
    if (w.isOpen && x.ctx == w.ctx && x.kind != 2 && x.used) || (x.kind == 2 && x.sector == w.sector) then lget (toBytes 32 (objBits x.obj)) ((o + j) % 32) 0
    else 0

/-! ## Retiring (R215) -/

/-- A retire by a context: zero, or the status that refuses it. -/
def retire (s : State) (ctx h : Nat) : Nat × State :=
  let x := s.slot (slotOf h)
  if s.holdsGen h && x.st == .complete && x.ctx == ctx && x.kind != 2 && x.rep == 0 then (0, freeSlot s (slotOf h)) else (0x0105, s)

/-- A retire through a core window. -/
def coreRetire (s : State) (core : Fin 16) (n h : Nat) : State :=
  let k := winKey (.core (coreHub core) n)
  if !(accessAllowed s (coreHub core).val n (corePid s core) true) then badWrite s
  else if (s.win k).isOpen then (retire s (s.win k).ctx h).2 else s

/-! ## Host windows (R204, R207, R215, R256) -/

/-- A write of `PW_HOST_CTL` through the front end of a hub; one that names another sector than that of the open context has no effect (R204). -/
def hostControl (s : State) (hub : Fin 2) (n v : Nat) : Nat × State :=
  let w := s.win (2048 + n)
  let q := nbits v 0 6
  if w.isOpen && q ≠ w.sector then (0x0109, s)
  else if !w.isOpen && nbit v 31 && !((s.sec q).st == .active && (s.sec q).record.getLsbD 20) then (0x020C, s)
  else (0, setControl s (.host hub n) hub.val v)

/-- A write of `PW_HOST_POST`. Log entry 108 (DEDUCED). -/
def hostPost (s : State) (n : Nat) (bytes : List Byte) : Nat × State :=
  let k := 2048 + n
  if !(s.win k).isOpen || bytes.length ≠ 64 then (0x0109, s)
  else
    let r := post s k 0x800 bytes
    (r.1, if r.1 = 0 then r.2.2.setWin k { r.2.2.win k with last := BitVec.ofNat 32 r.2.1 } else r.2.2)

/-- A write of `PW_HOST_RETIRE`. -/
def hostRetire (s : State) (n h : Nat) : Nat × State :=
  if (s.win (2048 + n)).isOpen then retire s (s.win (2048 + n)).ctx h else (0x0105, s)

/-! ## The rows -/

/-- What a window read returns goes out. Log entry 11 (DESIGN CHOICE). -/
def answer (s : State) (w : WinRef) (v : Nat) : State := { s with host := { s.host with out := s.host.out ++ [.windowWord w v] } }

/-- `WINDOW_CONTROL_WRITE` (R204, R255, R256): nothing reaches a hub that does not run. -/
def execWindowControlWrite (w : WinRef) (core : Fin 8) (v : Word) (s : State) : Res :=
  ok (match w with
    | .core hub n => if hubUp s hub.val then coreControl s (coreOf hub core) n v.toNat else s
    | .host hub n => if hubUp s hub.val then (hostControl s hub n v.toNat).2 else s)

/-- `WINDOW_CONTROL_READ` (R203). -/
def execWindowControlRead (w : WinRef) (core : Fin 8) (s : State) : Res :=
  ok (match w with
    | .core hub n =>
      let r := readControl s (coreOf hub core) n
      if hubUp s hub.val then answer r.2 w r.1 else s
    | .host hub n => if hubUp s hub.val then answer s w (controlWord s (2048 + n)) else s)

/-- `RESPONSE_READ` (R208). -/
def execResponseRead (hub : Fin 2) (win : Nat) (core : Fin 8) (s : State) : Res :=
  let r := popResponse s (coreOf hub core) win
  ok (if hubUp s hub.val then answer r.2 (.core hub win) r.1 else s)

/-- `HANDLE_RETIRE` (R215). -/
def execHandleRetire (w : WinRef) (core : Fin 8) (v : Word) (s : State) : Res :=
  ok (match w with
    | .core hub n => if hubUp s hub.val then coreRetire s (coreOf hub core) n v.toNat else s
    | .host hub n => if hubUp s hub.val then (hostRetire s n v.toNat).2 else s)

/-- A write to an offset of a core window (R205, R206); any access of a dead window is discarded and counted (R255). -/
def coreWindowWrite (s : State) (core : Fin 16) (n offset : Nat) (data : List Byte) : State :=
  if windowDead s (coreHub core).val n then badWrite s
  else if offset < 0x40 then (if offset = 0 then corePost s core n data else badWrite s)
  else if offset = 0x80 && data.length = 4 then coreRetire s core n (ofBytes data)
  else if offset = 0xC0 && data.length = 4 then coreControl s core n (ofBytes data)
  else s

/-- A read of an offset of a core window (R205, R218): the bytes and the state. Log entry 166 (DESIGN CHOICE). -/
def coreWindowRead (s : State) (core : Fin 16) (n offset len : Nat) : List Byte × State :=
  if windowDead s (coreHub core).val n then (List.replicate len 0, badWrite s)
  else if 0x20000 ≤ offset then
    (if accessAllowed s (coreHub core).val n (corePid s core) true then (viewBytes s (winKey (.core (coreHub core) n)) (offset - 0x20000) len, s)
     else (List.replicate len 0, badWrite s))
  else if offset = 0x40 && len = 8 then (toBytes 8 (popResponse s core n).1, (popResponse s core n).2)
  else if offset = 0xC0 && len = 4 then (toBytes 4 (readControl s core n).1, (readControl s core n).2)
  else (List.replicate len 0, s)

/-- An application core's access (R278); at a core window's address it is an access of the window with the core's process identifier
(R205, R254). Log entry 87 (DEDUCED). -/
def coreAt (s : State) (core : Fin 16) (a : Nat) (op : CoreOp) : State :=
  let b := a - s.num 0x1400 0
  if s.num 0x1400 0 ≤ a && b < 0x4000000 then
    if !(hubUp s (coreHub core).val) then s
    else match op with
      | .store data => coreWindowWrite s core (b / 0x40000) (b % 0x40000) data
      | .load n => let r := coreWindowRead s core (b / 0x40000) (b % 0x40000) n
                   toGuest r.2 (.coreData core.val r.1)
  else coreAccess s core.val a op

/-- `APPLICATION_CORE_ACCESS` (R278). -/
def execApplicationCoreAccess (core : Fin 16) (addr : Nat) (op : CoreOp) (s : State) : Res := ok (coreAt s core addr op)

/-! ## Engines (R219-R221, R265, R370, R580) -/

/-- A queued command may start now. -/
def eligible (s : State) (x : Slot) : Bool :=
  x.sgen == (s.sec x.sector).gen &&
  (x.after == 0xFFFFFFFF || !(s.holdsGen x.after.toNat && (s.slot (slotOf x.after.toNat)).st == .inflight)) &&
  (x.eng != .plane || peHolder s x.hub == none || peHolder s x.hub == some x.ctx)

/-- A command has started and its engine has not completed it. -/
def atWork : CmdSt → Bool
  | .started => true
  | .done _ _ => true
  | _ => false

/-- An engine other than the control processor is still at a command. Log entry 102 (DEDUCED). -/
def engineBusy (s : State) (hub : Nat) (eng : Engine) : Bool :=
  eng != .control && s.cmds.slots.any fun p => p.2.st == .inflight && atWork p.2.cmd && p.2.hub == hub && p.2.eng == eng

/-- The place of a queued command in its engine's order: acceptance stamp, then source key, then posting order (R179, R220, R221). -/
def queuePlace (x : Slot) : Nat := (x.stamp * 4096 + x.key) * 2 ^ 64 + x.order

/-- `ENGINE_START` (R220): the first eligible command in acceptance order starts; one accepted only in CONFIG completes instead where the
device has left it (R580), and one of the Plane engine takes its sensor, and the buffer that it clears, from now (R368, R370). -/
def engineStart (s : State) (hub : Nat) (eng : Engine) : State :=
  if !(hubUp s hub) || engineBusy s hub eng then s
  else match (sortBy (fun p => queuePlace p.2) ((queued s hub eng).filter fun p => eligible s p.2)).head? with
    | none => s
    | some (i, x) =>
      if configOnly x.code && s.dev.st != .config then finish s i (stateStatus x.code) 0 s.now
      else
        let s1 := s.setSlot i { x with cmd := .started }
        if eng = .plane then peBegin s1 x else s1

/-- `ENGINE_START` (R220). -/
def execEngineStart (hub : Fin 2) (eng : Engine) (s : State) : Res := ok (engineStart s hub.val eng)

/-- A command completes, and its context goes down with it after poison or an internal fault: its own completion is reported first, and the
commands of the context that depend on it lose to the teardown (R223, R224). -/
def completeCmd (s : State) (i status : Nat) (result : Word) : State :=
  if status = 0x010D || status = 0x010E then
    let h := handleOf i (s.slot i)
    let s1 := tearDownAll (finishOne s i status result s.now) [(s.slot i).ctx] [i]
    (dependants s1 h).foldl (fun a j => finish (unarmSlot a j) j 0x010B 0 a.now) s1
  else finish s i status result s.now

/-- The buffer of a Plane engine given up as its context's command with `out` = 1 completes (R370). -/
def peRelease (s : State) (x : Slot) (status : Nat) : State :=
  if x.eng = .plane && status = 0 && peOut (x.code == 0xA1) x.body && (s.peBuf x.hub).ctx = some x.ctx then s.setPeBuf x.hub { s.peBuf x.hub with ctx := none }
  else s

/-- `ENGINE_COMMAND_COMPLETE` (R217, R223): the effect is done and the command completes, or an engine fault ends a command that has started and
has no effect yet. One that has an effect, or has a flash in writing, is past the point at which its engine's fault could leave none (R16): it goes on
and completes with its own status. Log entry 103 (DEDUCED). -/
def engineComplete (s : State) (h : Nat) (internalFault : Bool) : State :=
  let x := s.slot (slotOf h)
  if !(s.holds h) || x.st ≠ .inflight then s
  else match x.cmd with
    | .done st r => completeCmd (peRelease s x st) (slotOf h) st r
    | .started => if internalFault && !(s.plant.hubs.any fun b => b.writing == some h) then completeCmd s (slotOf h) 0x010E 0 else s
    | _ => s

/-- `ENGINE_COMMAND_COMPLETE` (R217). -/
def execEngineCommandComplete (h : Nat) (internalFault : Bool) (s : State) : Res := ok (engineComplete s h internalFault)

/-- `CMD_NOP` (R210). -/
def execCmdNop (h : Nat) (s : State) : Res := ok (runCmd s h 1 fun s i _ => done s i 0 0)

/-- A command of the context of `x` that was accepted before it has not completed (R210). -/
def earlierOpen (s : State) (x : Slot) : Bool :=
  s.cmds.slots.any fun p => p.2.ctx == x.ctx && p.2.st == .inflight && p.2.kind != 2 && decide (p.2.order < x.order)

/-- `CMD_FENCE` (R210): done once nothing earlier of its context is open; until then it waits. -/
def cmdFence (s : State) (h : Nat) : State :=
  let x := s.slot (slotOf h)
  if s.holds h && x.st == .inflight && x.code == 2 && (x.cmd == .started || x.cmd == .waiting) && x.sgen == (s.sec x.sector).gen then
    (if earlierOpen s x then waitOn s (slotOf h) else done s (slotOf h) 0 0)
  else s

/-- `CMD_FENCE` (R210). -/
def execCmdFence (h : Nat) (s : State) : Res := ok (cmdFence s h)

end Sys2Proof.Machine
end

