-- ==== Sys2Proof/Machine/Entries.lean ====
section
/-! DEFINITION. The Cerlon dictionary: which entries exist (R443, R444), which half holds each (R579), what a read returns, and the range and
step of each numeric entry, as the tables of R226, R250, R274, R298, R316, R359, R383, R414, R441, R460, R466, R487, R509 and R541
give them. -/

namespace Sys2Proof.Machine

/-- The type of an entry (R444): a number of so many bytes, a BOOL, octets of a fixed length, octets up to a length, or a string. -/
inductive EType where
  | num (bytes : Nat) | bool | fixed (n : Nat) | octs (max : Nat) | str
  deriving DecidableEq, Repr

/-- The access class of an entry. -/
inductive Access where
  | ro | rw | rwCfg | rw2k | wo
  deriving DecidableEq, Repr

/-- A row of a dictionary table: its first index, how many indices it covers, its number of subindices, type and access. -/
structure EntryRow where
  index : Nat
  span  : Nat
  subs  : Nat
  type  : EType
  acc   : Access
  deriving DecidableEq, Repr

/-- One row with one index. -/
def row (index subs : Nat) (type : EType) (acc : Access) : EntryRow := { index := index, span := 1, subs := subs, type := type, acc := acc }

/-- One row with several indices. -/
def rows (index span subs : Nat) (type : EType) (acc : Access) : EntryRow :=
  { index := index, span := span, subs := subs, type := type, acc := acc }

/-- Identity and state (R460, R509). -/
def rowsIdentity : List EntryRow :=
  [row 0x1000 1 .str .ro, row 0x1001 1 .str .ro, row 0x1002 1 (.num 2) .ro, row 0x1003 1 (.num 8) .ro, row 0x1004 6 (.fixed 20) .ro,
   row 0x1005 1 (.num 2) .ro, row 0x1040 6 (.fixed 16) .ro, row 0x1041 4 (.octs 1024) .ro, row 0x1042 2 (.fixed 976) .ro,
   row 0x1100 1 (.num 1) .ro, row 0x1101 1 (.num 1) .rw2k, row 0x1102 1 (.num 8) .ro, row 0x1103 1 (.num 8) .ro,
   row 0x1104 1 (.num 4) .ro, row 0x1108 1 (.octs 64) .ro]

/-- Windows and handles (R226). -/
def rowsHandles : List EntryRow :=
  [row 0x1400 1 (.num 8) .ro, row 0x1401 64 (.num 4) .rw, row 0x1410 64 (.octs 1024) .wo, row 0x1411 64 (.num 4) .ro,
   row 0x1412 64 (.num 4) .wo, row 0x1420 1 (.num 2) .ro, row 0x1421 64 (.num 2) .ro, row 0x1430 1 (.num 4) .ro,
   rows 0x1480 16 256 (.fixed 32) .ro]

/-- Streams and fusion (R359, R383). -/
def rowsSense : List EntryRow :=
  [row 0x2000 16 (.num 4) .rwCfg, row 0x2001 4 (.num 4) .rwCfg, row 0x2002 4 (.num 1) .rwCfg, row 0x2003 1 (.num 1) .rwCfg,
   row 0x2010 16 (.num 4) .ro, row 0x2011 16 (.num 8) .ro, row 0x2012 16 (.num 8) .ro, row 0x2013 2 (.num 8) .ro,
   row 0x2014 2 (.num 4) .ro, row 0x2015 2 (.num 1) .ro, row 0x2100 128 (.fixed 32) .rw, row 0x2101 128 (.num 8) .ro,
   row 0x2102 128 (.fixed 64) .ro, row 0x2103 128 (.num 4) .ro, row 0x2110 64 (.num 8) .ro] ++
  [row 0x2400 2 (.fixed 128) .rwCfg, row 0x2401 1 (.num 2) .rwCfg, rows 0x2408 2 48 (.fixed 64) .rwCfg, rows 0x240A 2 48 (.fixed 64) .ro,
   rows 0x2410 2 48 (.num 4) .ro, row 0x2412 2 (.num 8) .ro, row 0x2413 2 (.num 8) .ro, row 0x2414 2 (.num 4) .ro,
   row 0x2415 2 (.num 8) .ro, row 0x2416 2 (.num 8) .ro]

/-- Schedule and sectors (R250, R274). -/
def rowsSchedule : List EntryRow :=
  [row 0x2800 1 (.num 2) .rwCfg, row 0x2801 1 (.num 1) .rwCfg, row 0x2802 1 (.num 8) .ro, row 0x2803 1 (.num 8) .ro,
   row 0x2804 1 (.num 2) .ro, row 0x2805 1 (.num 4) .ro, row 0x2808 4 (.num 4) .ro, row 0x2809 4 (.num 4) .ro, row 0x280A 4 (.num 4) .ro,
   row 0x280B 1 (.num 4) .ro, row 0x280C 1 (.fixed 16) .ro, rows 0x2840 4 256 (.fixed 32) .ro] ++
  [row 0x3000 1 (.num 1) .rwCfg, row 0x3001 1 (.fixed 192) .rwCfg, row 0x3002 1 (.num 1) .ro, row 0x3010 64 (.fixed 192) .ro,
   row 0x3011 64 (.num 4) .ro, row 0x3012 64 (.num 4) .ro, row 0x3013 64 .bool .ro]

/-- Memory and integrity (R298, R316). -/
def rowsMemory : List EntryRow :=
  [row 0x3400 4 (.num 4) .ro, row 0x3401 1 (.num 2) .rwCfg, row 0x3402 4 (.num 8) .ro, row 0x3403 4 (.num 8) .ro,
   row 0x3410 64 (.num 2) .rwCfg, row 0x3411 4 (.num 2) .ro, row 0x3412 192 (.num 1) .ro, row 0x3420 16 (.fixed 16) .rw,
   row 0x3430 192 (.num 8) .ro, row 0x3431 192 (.num 4) .ro, row 0x3440 3 (.num 1) .rwCfg, row 0x3441 3 (.num 4) .ro,
   row 0x3442 3 (.num 8) .ro] ++
  [row 0x3800 4 (.num 8) .ro, row 0x3801 4 (.num 8) .ro, row 0x3802 4 (.num 8) .ro, row 0x3803 4 (.num 1) .ro,
   row 0x3804 4 (.octs 256) .ro, row 0x3805 4 (.octs 1024) .rwCfg, row 0x3806 4 (.num 1) .ro, row 0x3808 1 (.num 2) .rwCfg,
   row 0x3809 3 (.num 4) .rwCfg, rows 0x3810 4 72 (.num 4) .ro, row 0x3814 4 (.num 8) .ro, row 0x3818 2 (.num 8) .ro,
   row 0x3819 2 (.num 8) .ro, row 0x381A 2 (.num 8) .ro, row 0x3820 1 (.num 8) .ro, row 0x3821 1 (.num 8) .ro, row 0x3822 1 (.fixed 16) .ro]

/-- Pairing and the Meridians (R414, R441). -/
def rowsSafety : List EntryRow :=
  [row 0x4000 1 (.num 1) .rw2k, row 0x4001 1 (.num 4) .ro, row 0x4002 256 (.num 4) .rwCfg, row 0x4003 4 (.num 8) .ro,
   row 0x4004 4 (.num 8) .ro, row 0x4005 4 (.num 4) .ro, row 0x4006 4 (.num 4) .ro, row 0x4007 1 (.num 4) .ro, row 0x4008 1 (.num 4) .ro,
   row 0x4010 32 (.fixed 64) .ro, row 0x4011 1 (.num 1) .ro] ++
  [row 0x4040 6 (.num 4) .ro, row 0x4041 1 (.num 2) .rwCfg, row 0x4042 4 (.num 8) .ro, row 0x4043 4 (.num 4) .ro, row 0x4044 1 (.num 1) .rwCfg,
   row 0x4045 4 (.octs 1024) .rwCfg, rows 0x4048 4 72 (.num 1) .ro, row 0x4050 64 (.fixed 64) .ro, row 0x4051 1 (.num 1) .ro,
   row 0x4052 256 (.num 8) .ro, row 0x4054 6 (.num 4) .ro]

/-- Power, thermal and coolant (R541). -/
def rowsPower : List EntryRow :=
  [row 0x4400 8 (.num 4) .ro, row 0x4401 8 (.num 4) .rwCfg, row 0x4402 7 (.num 2) .rwCfg, row 0x4403 7 (.num 2) .ro, row 0x4404 1 (.num 2) .rwCfg,
   row 0x4405 1 (.num 2) .rwCfg, row 0x4406 4 (.num 2) .ro, row 0x4407 2 (.num 2) .rwCfg, rows 0x4410 4 72 (.num 8) .ro,
   row 0x4414 18 (.num 4) .ro, row 0x4415 1 (.num 2) .rwCfg, row 0x4416 4 (.num 8) .ro, row 0x4420 2 (.num 4) .ro, row 0x4421 3 (.num 4) .ro,
   row 0x4422 1 (.num 1) .ro, row 0x4423 1 (.num 1) .rwCfg, row 0x4424 1 (.num 2) .rwCfg, row 0x4425 1 (.num 2) .rwCfg,
   row 0x4426 1 (.num 2) .rwCfg, row 0x4427 1 (.num 4) .ro]

/-- Boot and security (R509). -/
def rowsBoot : List EntryRow :=
  [row 0x4800 2 (.num 4) .ro, row 0x4801 2 (.num 4) .ro, row 0x4802 1 (.octs 32) .ro, row 0x4803 1 (.octs 32) .ro, row 0x4804 1 (.num 1) .ro,
   row 0x4806 1 (.num 1) .rw2k, row 0x4807 1 (.num 1) .rw2k, row 0x4810 16 (.fixed 16) .rwCfg, row 0x4811 1 (.num 4) .rwCfg,
   row 0x4812 1 (.num 4) .rwCfg, row 0x4813 1 (.num 8) .ro, row 0x4820 15 (.octs 48) .wo, row 0x4821 16 (.num 4) .ro,
   row 0x4830 1 (.octs 1024) .wo, row 0x4831 1 (.num 1) .wo]

/-- The gateway (R487). -/
def rowsGateway : List EntryRow :=
  [row 0x4C00 2 (.num 4) .rwCfg, row 0x4C01 2 (.num 4) .rwCfg, row 0x4C02 2 (.num 4) .rwCfg, row 0x4C03 16 (.num 2) .rw, row 0x4C04 2 (.num 8) .ro,
   row 0x4C10 10 (.num 4) .rwCfg, row 0x4C11 12 (.octs 1024) .rw, row 0x4C12 128 (.fixed 16) .rwCfg, row 0x4C13 64 (.fixed 16) .rwCfg,
   row 0x4C14 128 (.fixed 16) .rwCfg, row 0x4C15 32 (.fixed 64) .wo, row 0x4C16 2 (.fixed 24) .ro, row 0x4C17 32 (.fixed 16) .rwCfg,
   row 0x4C18 2 (.num 8) .ro, row 0x4C20 12 (.fixed 32) .rwCfg, row 0x4C21 32 (.fixed 32) .rwCfg, row 0x4C22 2 (.num 8) .ro,
   row 0x4C30 64 (.num 4) .rw, row 0x4C31 1 (.num 8) .ro]

/-- Nimbusor and diagnostics (R460, R466). -/
def rowsDiag : List EntryRow :=
  [row 0x5000 2 (.num 4) .ro, row 0x5001 2 (.num 4) .wo, row 0x5002 2 (.octs 964) .ro, row 0x5003 2 (.num 4) .ro, row 0x5004 1 (.fixed 24) .rwCfg,
   row 0x5005 1 (.num 2) .rwCfg, row 0x5006 1 (.num 4) .rwCfg, row 0x5007 6 (.num 4) .rwCfg, row 0x5008 1 (.num 1) .rwCfg] ++
  [row 0x5F00 2 (.num 8) .ro, row 0x5F01 2 (.num 8) .ro, row 0x5F02 2 (.num 8) .ro, row 0x5F03 2 (.num 8) .ro, row 0x5F04 2 (.num 8) .ro,
   row 0x5F08 1 (.num 2) .rwCfg, row 0x5F09 2 (.num 1) .rwCfg, row 0x5F10 14 (.num 4) .ro, row 0x5F11 14 (.num 8) .ro,
   row 0x5F12 1 (.num 2) .rwCfg, row 0x5F13 1 (.num 4) .rwCfg, row 0x5F18 1 (.num 8) .ro]

/-- Every row of the dictionary. -/
def entryRows : List EntryRow :=
  rowsIdentity ++ rowsHandles ++ rowsSense ++ rowsSchedule ++ rowsMemory ++ rowsSafety ++ rowsPower ++ rowsBoot ++ rowsGateway ++ rowsDiag

/-- The row that names an index. -/
def findRow (i : Nat) : Option EntryRow := entryRows.find? fun r => decide (r.index ≤ i) && decide (i < r.index + r.span)

/-- The entry is held as a number. -/
def EType.numeric : EType → Bool
  | .num _ => true
  | .bool => true
  | _ => false

/-- The bytes of a number or a BOOL. -/
def EType.size : EType → Nat
  | .num n => n
  | .bool => 1
  | .fixed n => n
  | .octs n => n
  | .str => 0

/-! ## The half that holds an entry (R579) -/

/-- Entries with a subindex for each of so many units, a half's share of them first: pairs of index and units in one half. -/
def perHalf : List (Nat × Nat) :=
  [(0x1041, 2), (0x2000, 8), (0x2001, 2), (0x2002, 2), (0x2010, 8), (0x2011, 8), (0x2012, 8), (0x2013, 1), (0x2014, 1), (0x2015, 1),
   (0x2110, 32), (0x2400, 1), (0x2412, 1), (0x2413, 1), (0x2414, 1), (0x2415, 1), (0x2416, 1), (0x2808, 2), (0x2809, 2), (0x280A, 2),
   (0x3400, 2), (0x3402, 2), (0x3403, 2), (0x3410, 32), (0x3411, 2), (0x3412, 96), (0x3430, 96), (0x3431, 96), (0x3440, 1), (0x3441, 1),
   (0x3442, 1), (0x3800, 2), (0x3801, 2), (0x3802, 2), (0x3803, 2), (0x3804, 2), (0x3805, 2), (0x3806, 2), (0x3814, 2), (0x3818, 1),
   (0x3819, 1), (0x381A, 1)] ++
  [(0x4003, 2), (0x4004, 2), (0x4005, 2), (0x4006, 2), (0x4400, 4), (0x4401, 4), (0x4406, 2), (0x4407, 1), (0x4416, 2), (0x4800, 1), (0x4801, 1),
   (0x4C00, 1), (0x4C01, 1), (0x4C02, 1), (0x4C03, 8), (0x4C04, 1), (0x4C10, 5), (0x4C11, 6), (0x4C12, 64), (0x4C13, 32), (0x4C14, 64),
   (0x4C15, 16), (0x4C16, 1), (0x4C17, 16), (0x4C18, 1), (0x4C20, 6), (0x4C21, 16), (0x4C22, 1), (0x5000, 1), (0x5001, 1), (0x5002, 1),
   (0x5003, 1), (0x5F00, 1), (0x5F01, 1), (0x5F02, 1), (0x5F03, 1), (0x5F04, 1), (0x5F09, 1)]

/-- The half that holds an entry, or none for one that both halves hold. Log entry 86 (DEDUCED). -/
def holder (i sub : Nat) : Option Nat :=
  match perHalf.find? fun p => p.1 == i with
  | some p => some (Nat.min 1 (sub / p.2))
  | none =>
    if i = 0x1004 || i = 0x1040 then some (halfOf sub)
    else if i = 0x4040 || i = 0x4054 then some (if sub < 4 then sub / 2 else sub % 2)
    else if i = 0x4042 || i = 0x4043 || i = 0x4045 then some (sub / 2)
    else if 0x4048 ≤ i && i < 0x404C then some ((i - 0x4048) / 2)
    else if i = 0x2408 || i = 0x240A || i = 0x2410 then some 0
    else if i = 0x2409 || i = 0x240B || i = 0x2411 then some 1
    else if 0x3810 ≤ i && i < 0x3814 then some ((i - 0x3810) / 2)
    else if 0x4410 ≤ i && i < 0x4414 then some ((i - 0x4410) / 2)
    else if i = 0x4402 || i = 0x4403 then (if sub < 6 then some (halfOf sub) else none)
    else if i = 0x4414 then some (if sub < 8 then sub / 4 else if sub < 14 then (sub - 8) / 3 else (sub - 14) / 2)
    else if (0x4810 ≤ i && i < 0x4814) || i = 0x4C30 || i = 0x4C31 then some 1
    else if i = 0x5F10 || i = 0x5F11 then
      (if halfOf (linkEnds sub).1 = halfOf (linkEnds sub).2 then some (halfOf (linkEnds sub).1) else none)
    else none

/-! ## What a read returns -/

/-- A change of `PX_MODE` is pending or waits for its boundary (R404). -/
def pxPending (s : State) : Bool := s.safety.mode.isSome || s.host.twoK.any fun w => w.index == 0x4000 && w.pending.isSome

/-- `PX_STATE` (R404, R414). -/
def pxState (s : State) : Nat :=
  let trial := match s.safety.join with
    | .trial t => decide (t = s.tickNow)
    | .abandon _ t => decide (t = s.tickNow)
    | _ => false
  let single := s.sched.entries.any fun p => p.2.en && entKind p.2.raw == 0 && !(entPair p.2.raw)
  let mode := if s.safety.join ≠ .none then 3 else if s.num 0x4000 0 ≠ 0 then 2 else if single then 1 else 0
  pack [(3, 1, b2n (pxPending s)), (2, 1, b2n trial), (0, 2, mode)]

/-- `THM_FACET` of a site. -/
def thmFacet (s : State) (f : Nat) : Nat :=
  let x := s.spot f
  pack [(48, 16, lowBits 16 x.a), (32, 16, lowBits 16 x.b), (16, 16, throttleCap s f), (3, 1, b2n (x.aBad || x.bBad)), (2, 1, b2n x.suspect),
        (1, 1, b2n (decide (throttleCap s f < dieTarget s (dieOf f)))), (0, 1, b2n (isStandby s f))]

/-- `THM_SPOT`. -/
def thmSpot (s : State) (sub : Nat) : Nat :=
  let x := s.spot (512 + sub)
  pack [(16, 16, lowBits 16 (reading s (512 + sub))), (1, 1, b2n (x.aBad || x.bBad)), (0, 1, b2n x.suspect)]

/-- The programmed key-hash slots of a hub. -/
def programmed (x : HubBoot) : Nat := lsum (fun k => b2n ((lget x.hashes k []).any (· != 0)) * 2 ^ k) (List.range 4)

/-- A numeric entry as the hub that serves the request reads it: a budget is the one in force (R37, R445). Log entry 116 (DEDUCED). -/
def numRead (s : State) (i sub : Nat) : Nat :=
  match i with
  | 0x1003 => s.dev.serial
  | 0x1100 => devCode s.dev.st
  | 0x1103 => s.now
  | 0x1401 => controlWord s (2048 + sub)
  | 0x1411 => (s.win (2048 + sub)).last.toNat
  | 0x1420 => 4096 - (s.cmds.slots.filter fun p => p.2.st != .free).length
  | 0x1421 => (s.cmds.slots.filter fun p => p.2.st == .inflight && p.2.sector == sub).length
  | 0x2015 => openFrames s sub
  | 0x2802 => s.tickNow % 2 ^ 48
  | 0x2803 => s.tickNow / s.num 0x2801 0 * s.num 0x2801 0 * s.tickNs
  | 0x2804 => s.sched.entries.length
  | 0x3002 => (s.sectors.filter fun p => p.2.st == .active).length
  | 0x3011 => pack [(16, 16, (s.sec sub).gen), (0, 2, match (s.sec sub).st with | .free => 0 | .active => 1 | .resetting => 2)]
  | 0x3013 => b2n (s.sec sub).dirtyOn
  | 0x3400 => s.num i sub + 2 * b2n (stackHot s sub)
  | 0x3410 => if sub % 16 = 15 then 0 else tget s.mem.masters sub (numDefault 0x3410 sub)
  | 0x3411 => sectorCap s sub
  | 0x3442 => s.num i sub + (let p := lget s.mem.panics sub { level := 0, on := false, since := 0, told := false }; if p.on then s.now - p.since else 0)
  | 0x4812 => s.chord.fw.limits
  | 0x4C03 => tget s.mem.coreCaps sub 0
  | 0x2410 => pack [(17, 1, b2n (admitted s 0 sub)), (16, 1, b2n (s.sensor 0 sub).cinv), (0, 16, (s.sensor 0 sub).out)]
  | 0x2411 => pack [(17, 1, b2n (admitted s 1 sub)), (16, 1, b2n (s.sensor 1 sub).cinv), (0, 16, (s.sensor 1 sub).out)]
  | 0x4001 => pxState s
  | 0x4040 => pack [(16, 16, s.num i sub), (0, 3, (s.scope sub).st)]
  | 0x4406 => dieTarget s sub
  | 0x4410 => thmFacet s sub
  | 0x4411 => thmFacet s (128 + sub)
  | 0x4412 => thmFacet s (256 + sub)
  | 0x4413 => thmFacet s (384 + sub)
  | 0x4414 => thmSpot s sub
  | 0x4800 => pack [(16, 16, (s.hubBoot sub).status), (0, 8, (s.hubBoot sub).phase)]
  | 0x4801 => let x := s.hubBoot sub
              pack [(24, 8, x.svn), (16, 8, x.rollback), (12, 4, x.slot), (8, 4, x.revoked), (4, 4, programmed x), (0, 1, b2n x.recKey.isSome)]
  | 0x4804 => match (s.hubBoot 0).placeKey with
              | none => 0
              | some (_, must) => 1 + 2 * b2n must
  | 0x4806 => (s.hubBoot 0).rollback
  | 0x4821 => let k := s.keySlot sub
              pack [(8, 24, k.gen), (7, 1, b2n k.installed), (0, 3, k.mask)]
  | 0x5F10 => pack [(16, 16, Nat.min 0xFFFF (s.num i sub)), (0, 1, b2n (linkUp s sub))]
  | 0x5F18 => s.dev.pll % 2 ^ 40
  | _ => s.num i sub

/-- The unacknowledged records of a ring, up to 15, after the sequence of the first (R464). -/
def nimRead (s : State) (hub : Nat) : List Byte :=
  let g := lget s.host.rings hub Ring.fresh
  toBytes 4 g.first ++ (((g.recs.filter fun r => decide (g.first ≤ r.1)).take 15).flatMap fun r => toBytes 64 r.2.toNat)

/-- A schedule entry with its present enable state (R231, R250). -/
def schedRead (s : State) (e : Nat) : List Byte :=
  match s.ent e with
  | none => List.replicate 32 0
  | some x => toBytes 32 ((x.raw &&& ~~~(BitVec.ofNat 256 (2 ^ 216))).toNat + 2 ^ 216 * b2n x.en)

/-- The countersigned writes that are pending (R449, R460). -/
def pendingList (s : State) : List Byte :=
  s.host.twoK.flatMap fun w => match w.pending with
    | none => []
    | some t => toBytes 2 w.index ++ toBytes 1 w.sub ++ toBytes 5 0 ++ toBytes 8 t

/-- The bytes of ASCII text. -/
def ascii (t : String) : List Byte := t.toList.map fun c => BitVec.ofNat 8 c.toNat

/-- An OCTETS or STRING entry as the hub that serves the request reads it. -/
def octRead (s : State) (hub i sub : Nat) : List Byte :=
  match i with
  | 0x1000 => ascii "Knaxon"
  | 0x1001 => ascii "SV3280-AQ2"
  | 0x1004 => fuseBlock s sub
  | 0x1040 => traceOf s sub
  | 0x1041 => s.octs i sub
  | 0x1042 => slice (mldsaPublic (identitySeed s)) (976 * sub) 976
  | 0x1108 => pendingList s
  | 0x240A => calNow s 0 sub
  | 0x240B => calNow s 1 sub
  | 0x3001 => toBytes 192 (s.sec 0).record.toNat
  | 0x3010 => toBytes 192 (s.sec sub).record.toNat
  | 0x3804 => ((tget s.mem.repair sub []).take 64).flatMap (toBytes 4)
  | 0x3805 => s.octs i sub
  | 0x4045 => slice (s.octs i sub) 0 9
  | 0x4802 => (s.hubBoot hub).image.getD []
  | 0x4803 => s.octs i sub
  | 0x3420 => toBytes 16 (lget s.mem.ranges sub 0).toNat
  | 0x4C11 => ((tfind s.host.gates sub).map Prod.fst).getD []
  | 0x5002 => nimRead s sub
  | _ =>
    if 0x1480 ≤ i && i < 0x1490 then toBytes 32 (objBits (s.slot (256 * (i - 0x1480) + sub)).obj)
    else if 0x2840 ≤ i && i < 0x2844 then schedRead s (256 * (i - 0x2840) + sub)
    else match findRow i with
      | some r => slice (s.octs i sub) 0 r.type.size
      | none => []

/-- The value of an entry as bytes. -/
def readBytes (s : State) (hub i sub : Nat) : List Byte :=
  match findRow i with
  | none => []
  | some r => if r.type.numeric then toBytes r.type.size (numRead s i sub) else octRead s hub i sub

/-- The status of a read of a completion object that no host may see (R218). -/
def readStatus (s : State) (i sub : Nat) : Nat :=
  if 0x1480 ≤ i && i < 0x1490 then
    let k := 256 * (i - 0x1480) + sub
    let x := s.slot k
    let ok := if x.kind = 2 then (s.sec x.sector).record.getLsbD 20 else x.key == 0x800
    if x.used && ok then 0 else 0x0105
  else 0

/-! ## Ranges and steps -/

/-- A value lies in a range. -/
def inRange (v lo hi : Nat) : Bool := decide (lo ≤ v) && decide (v ≤ hi)

/-- A status where a condition fails. -/
def unless_ (c : Bool) (st : Nat) : Nat := if c then 0 else st

/-- The range of a rail in mV (R512). -/
def railRange (r : Nat) : Nat × Nat := if r % 4 < 2 then (600, 850) else if r % 4 = 2 then (650, 900) else (700, 900)

/-- A port word keeps its ranges, in use or not (R343). Log entry 105 (DEDUCED). -/
def portOk (v : Nat) : Bool :=
  let cphy := nbit v 1
  inRange (nbits v 16 9) 8 (if cphy then 350 else 450) && nbits v 4 2 != (if cphy then 3 else 2) && !(cphy && nbit v 2)

/-- A `NIM_SEL` value selects a numeric entry that can be read (R465). -/
def selOk (v : Nat) : Bool :=
  !(nbit v 31) || match findRow (nbits v 8 16) with
    | none => false
    | some r => r.type.numeric && r.acc != .wo && decide (nbits v 0 8 < r.subs)

/-- A port of a switch has a mode (R474, R487). -/
def portMode (port mode : Nat) : Bool := if port < 2 then decide (mode ≤ 3) else if port < 4 then decide (4 ≤ mode) && decide (mode ≤ 6) else mode == 7

/-- Bits that a register keeps; the others are reserved, read zero and ignore writes (R11). -/
def keptBits (i v : Nat) : Nat :=
  match i with
  | 0x2000 => v &&& 0x01FF0037
  | 0x2001 => v &&& 0x01FF0037
  | 0x4811 => v &&& 0x3F
  | 0x4812 => v &&& 0x0FFF0FFF
  | 0x4C10 => v &&& 0x8FFFFF82
  | 0x5007 => v &&& 0x80FFFFFF
  | _ => v

/-- The state with a numeric entry as it would be. -/
def withNum (s : State) (i sub v : Nat) : State := s.setNum i sub v

/-- The status of a value of a numeric entry: zero where it is in its range and on its step. -/
def numStatus (s : State) (i sub v : Nat) : Nat :=
  match i with
  | 0x2000 => unless_ (portOk v) 0x0807
  | 0x2001 => unless_ (portOk v) 0x0807
  | 0x2002 => unless_ (v < 64) 0x0807
  | 0x2003 => unless_ (inRange v 0x30 0x37) 6
  | 0x2401 => unless_ (1 ≤ v) 0x0849
  | 0x2800 => if !(inRange v 500 20000) || v % 10 ≠ 0 then 6 else unless_ (tableFits (withNum s i sub v)) 0x0607
  | 0x2801 => if !(inRange v 1 64) then 6 else unless_ (tableFits (withNum s i sub v)) 0x0607
  | 0x3000 => if 1 < v then 6 else unless_ (s.sectors.all fun p => p.1 == 0 || p.2.st != .active) 0x0209
  | 0x3401 => unless_ (inRange v 256 16384 && v % 256 == 0) 0x0303
  | 0x3410 =>
    let n := sub / 16
    let others := lsum (fun m => if 16 * n + m = sub then v else s.num 0x3410 (16 * n + m)) (List.range 15)
    let sectors := lsum (fun p => if p.2.st = .free then 0 else recShare p.2.record n) s.sectors
    unless_ (sub % 16 != 15 && decide (others + sectors ≤ 12288)) 0x0301
  | 0x3440 => unless_ (inRange v 15 95) 0x0303
  | 0x3808 => unless_ (inRange v 1024 65280 && v % 256 == 0) 0x0403
  | 0x3809 => unless_ (inRange v 100 86400000) 0x0403
  | 0x4002 => unless_ (nbits v 26 5 == 0 && nbits v 10 6 == 0 && !(nbit v 31 && nbits v 16 10 == nbits v 0 10)) 0x0704
  | 0x4041 => unless_ (inRange v 10 10000) 0x0740
  | 0x4044 => unless_ (1 ≤ v) 0x0740
  | 0x4401 =>
    if v / 65536 < v % 65536 then 0x0A02 else unless_ ((railRange sub).1 ≤ v % 65536 && v / 65536 ≤ (railRange sub).2) 0x0A01
  | 0x4402 => unless_ (if sub < 4 then inRange v 40 115 else if sub < 6 then inRange v 10 26 else inRange v 200 570) 0x0A01
  | 0x4404 => if !(inRange v 400 1000) || v % 25 ≠ 0 then 0x0A01 else unless_ (s.num 0x4405 0 ≤ v) 0x0A02
  | 0x4405 => if !(inRange v 400 1000) || v % 25 ≠ 0 then 0x0A01 else unless_ (v ≤ s.num 0x4404 0) 0x0A02
  | 0x4407 => unless_ (inRange v 800 2200 && v % 100 == 0) 0x0A01
  | 0x4415 => unless_ (inRange v 1 10000) 0x0A01
  | 0x4423 => unless_ (inRange v 1 8) 0x0A01
  | 0x4424 => unless_ (inRange v 100 10000) 0x0A01
  | 0x4425 => unless_ (inRange v 500 20000) 0x0A01
  | 0x4426 => unless_ (inRange v 10 600) 0x0A01
  | 0x4812 => unless_ (nbits v 0 12 ≤ 3072 && nbits v 16 12 ≤ 3072) 0x0930
  | 0x4831 => unless_ (inRange v 1 3) 6
  | 0x4C00 => unless_ (v % 0x10000 == 0 && decide (v < 0x2000000)) 6
  | 0x4C01 => unless_ (v % 0x10000 == 0 && decide (v + 0x20000 ≤ 0x2000000)) 6
  | 0x4C02 => unless_ (v % 0x100000 == 0 && decide (v < 0x2000000)) 6
  | 0x4C10 => unless_ (nbits v 24 4 ≤ 7 && (!(nbit v 31) || portMode (sub % 5) (nbits v 24 4)) && !(sub % 5 == 4 && nbit v 7)) 6
  | 0x5005 => unless_ (inRange v 100 60000) 6
  | 0x5006 => unless_ (v == 0 || inRange v 100 3600000) 6
  | 0x5007 => unless_ (selOk v) 6
  | 0x5008 => unless_ (v ≤ 4) 6
  | 0x5F08 => unless_ (1024 ≤ v) 6
  | 0x5F09 => unless_ (inRange v 0x08 0x77) 6
  | 0x5F12 => unless_ (inRange v 1 1024) 6
  | 0x5F13 => unless_ (inRange v 100 100000) 6
  | _ => 0

/-- Functions of one kind that a hub's `GW_FRER` entries enable, other than entry `sub`. -/
def frerCount (s : State) (sub kind : Nat) : Nat :=
  ((List.range 64).filter fun k => 64 * (sub / 64) + k != sub && (s.octs 0x4C14 (64 * (sub / 64) + k)).any (· != 0) &&
    leAt (s.octs 0x4C14 (64 * (sub / 64) + k)) 8 1 == kind).length

/-- The status of a value of an OCTETS entry that is stored as it is. Log entry 106 (DEDUCED). -/
def octStatus (s : State) (i sub : Nat) (v : List Byte) : Nat :=
  let n := ofBytes v
  match i with
  | 0x3420 => unless_ (nbits n 66 62 == 0 && nbits n 57 7 == 0 && nbits n 25 7 == 0 &&
      (if nbit n 24 then decide (nbits n 0 24 < nbits n 32 25) && decide (nbits n 32 25 ≤ 2 ^ 24) && nbits n 64 2 != 3 else n == 0)) 0x0302
  | 0x3805 => unless_ (v.length % 4 == 0 && decide (v.length ≤ 256) && (List.range (v.length / 4)).all fun k => nbits (leAt v (4 * k) 4) 24 8 == 0) 0x0402
  | 0x4045 => unless_ (v.length == 9 && decide (((List.range 72).filter (nbit n)).length ≤ 8)) 0x0741
  | 0x4810 => unless_ (nbits n 68 60 == 0 && nbits n 57 7 == 0 && nbits n 25 7 == 0 &&
      (if nbit n 24 then decide (nbits n 0 24 < nbits n 32 25) else n == 0)) 0x0930
  | 0x4C12 => unless_ (leAt v 8 1 ≤ 63 && leAt v 9 1 ≤ 31 && leAt v 10 1 ≤ 7 && leAt v 11 1 ≤ 1 && leAt v 14 2 == 0) 6
  | 0x4C14 => unless_ (n == 0 || (leAt v 8 1 ≤ 1 && inRange (leAt v 9 1) 1 32 && leAt v 12 4 == 0 && decide (frerCount s sub (leAt v 8 1) < 32))) 6
  | 0x4C15 => unless_ (leAt v 8 1 ≤ 3 && leAt v 9 1 ≤ 1 && leAt v 10 2 == 0) 6
  | 0x4C17 => unless_ (leAt v 0 1 ≤ 63 && leAt v 1 1 ≤ 1 && leAt v 2 1 ≤ 1 && leAt v 3 1 == 0 && leAt v 8 8 == 0) 6
  | 0x4C20 => unless_ (leAt v 0 1 ≤ 63 && leAt v 1 1 ≤ 1 && leAt v 2 1 ≤ 1 && leAt v 3 1 == 0) 6
  | 0x4C21 => unless_ (n == 0 || (leAt v 16 1 ≤ 63 && inRange (leAt v 17 1) 1 16 && inRange (leAt v 18 2) 1 10000 && leAt v 28 4 == 0)) 6
  | 0x5004 => unless_ (leAt v 18 1 ≤ 15 && leAt v 19 5 == 0) 6
  | _ => 0

end Sys2Proof.Machine
end

