-- ==== Sys2Proof/Machine/Axbel.lean ====
section
/-! DEFINITION. Writes of the dictionary (R444, R445), countersigned writes (R448, R449, R459, R502, R503), Axbel requests and sessions
(R445-R453, R457, R458), the I3C target (R454-R456), and Nimbusor delivery and telemetry (R464, R465). -/

namespace Sys2Proof.Machine

/-! ## Writes (R444) -/

/-- Armed occurrences that a new grid no longer has complete as shed at the due times that they had (R242). -/
def regrid (old s : State) : State :=
  let gone (x : SchEntry) : Bool := match x.armed with
    | some (n, _) => old.tickNs != s.tickNs || n % s.num 0x2801 0 != entSlot x.raw
    | none => false
  { s with sched := { s.sched with entries := tmap (fun _ x => if gone x then { x with armed := none } else x) s.sched.entries,
                                   orphans := s.sched.orphans ++ (s.sched.entries.filter fun p => gone p.2).flatMap (orphanOf old) } }

/-- What a numeric entry's write does beside setting it. Log entry 110 (DEDUCED). -/
def numEffect (old s : State) (i : Nat) : State :=
  if i = 0x4404 || i = 0x4405 || i = 0x4407 then followClocks s
  else if i = 0x2800 then
    let s1 := regrid old s
    { s1 with sched := { s1.sched with closed := s.tickNow, tick := s.tickNow } }
  else if i = 0x2801 then regrid old s
  else if i = 0x5006 then
    let p := s.num 0x5006 0 * 1000000
    { s with host := { s.host with telemetry := if p = 0 then 0 else (s.now / p + 1) * p } }
  else s

/-- A write of a numeric entry. -/
def writeNum (s : State) (i sub : Nat) (t : EType) (v : List Byte) : Nat × State :=
  let n := ofBytes v
  if v.length ≠ t.size then (5, s)
  else if t = .bool && 1 < n then (6, s)
  else
    let st := numStatus s i sub n
    if st ≠ 0 then (st, s) else (0, numEffect s (s.setNum i sub (keptBits i n)) i)

/-- A write of an OCTETS entry that is stored as it is. -/
def writeOct (s : State) (i sub : Nat) (t : EType) (v : List Byte) : Nat × State :=
  let lenOk := match t with
    | .fixed n => v.length == n
    | _ => decide (v.length ≤ t.size)
  if !lenOk then (5, s)
  else
    let st := octStatus s i sub v
    if st ≠ 0 then (st, s) else (0, s.setOcts i sub v)

/-- A write of `SEC_ROOT` (R257): checked as `SEC_CREATE` checks a record; its masters are granted anew. Log entry 50 (DEDUCED). -/
def writeRoot (s : State) (v : List Byte) : Nat × State :=
  let r := BitVec.ofNat 1536 (ofBytes v)
  let st := recordStatus s 0 r
  if v.length ≠ 192 then (5, s)
  else if st ≠ 0 then (st, s)
  else
    let t := grantMasters ((freeMasters s 0).setSec 0 { s.sec 0 with record := r }) 0 r
    -- the shares in force stay so until the next window (R37)
    (0, { t with mem := { t.mem with bw := s.mem.bw } })

/-- A write of `MER_SUSPECT` (R431, R441): a set of at most eight sites ends a Prism's retirement (R577). Log entry 117 (DEDUCED). -/
def writeSuspect (s : State) (d : Nat) (v : List Byte) : Nat × State :=
  let w := writeOct s 0x4045 d (.octs 1024) v
  (w.1, if w.1 = 0 && (s.scope d).st = 2 then
      { w.2 with dev := { w.2.dev with scopes := lmod w.2.dev.scopes d fun c => { c with st := 0, ready := false } } }
    else w.2)

/-- A write of `NIM_DEST` (R464): the records that are not acknowledged go to the destination. -/
def destWrite (s : State) (v : List Byte) : Nat × State :=
  let w := writeOct s 0x5004 0 (.fixed 24) v
  let push (a : State) (hub : Nat) : State :=
    let g := lget a.host.rings hub Ring.fresh
    if hubDown a hub then a else (g.recs.filter fun r => decide (g.first ≤ r.1)).foldl (fun b r => pushRecord b hub r.1 r.2) a
  (w.1, if w.1 = 0 then push (push w.2 0) 1 else w.2)

/-- A write of `NIM_ACK` (R464): a sequence not yet written is refused; records that remain raise the interrupt again (R456). -/
def nimAckWrite (s : State) (ring q : Nat) : Nat × State :=
  let g := lget s.host.rings ring Ring.fresh
  if g.next ≤ q then (6, s)
  else if q < g.first then (0, s)
  else
    let s1 := { s with host := { s.host with rings := lset s.host.rings ring { g with first := q + 1 } } }
    (0, if q + 1 < g.next then raiseIbi s1 ring { mdb := 3, bytes := toBytes 4 (q + 1), handle := none } else s1)

/-- A write of `BS_REC_CMD` (R498): answered at once. Command 2 goes on when its flash copy has been read back, which is
`BS_REC_CMD_FLASH`. Log entry 111 (DESIGN CHOICE). -/
def recCommand (s : State) (hub : Nat) (v : Nat) : Nat × State :=
  if !(recovering s hub) then (4, s)
  else if v = 1 then (0, recVerify s hub)
  else if v = 2 then (0, s)
  else if v = 3 then (0, s.modHub hub fun x => { x with recovery := [] })
  else (6, s)

/-- The write of an entry that is not countersigned, through the front end of a hub: its status under check 7 and the state after it. -/
def writeEntry (s : State) (hub : Fin 2) (via : Option Nat) (r : EntryRow) (i sub : Nat) (v : List Byte) : Nat × State :=
  let sized (n : Nat) (g : Nat × State) : Nat × State := if v.length = n then g else (5, s)
  match i with
  | 0x1401 => sized 4 (hostControl s hub sub (ofBytes v))
  | 0x1410 => hostPost s sub v
  | 0x1412 => sized 4 (hostRetire s sub (ofBytes v))
  | 0x2100 => sized 32 (strWrite s sub v)
  | 0x2400 => sized 128 (fusWrite s sub v)
  | 0x2408 => sized 64 (calWrite s 0 sub v)
  | 0x2409 => sized 64 (calWrite s 1 sub v)
  | 0x3001 => writeRoot s v
  | 0x4045 => writeSuspect s sub v
  | 0x4820 => keyWrite s via sub v
  | 0x4830 => recData s hub.val v
  | 0x4831 => sized 1 (recCommand s hub.val (ofBytes v))
  | 0x4C11 => if 1024 < v.length then (5, s) else qbvWrite s sub v
  | 0x5001 => sized 4 (nimAckWrite s sub (ofBytes v))
  | 0x5004 => destWrite s v
  | _ => if r.type.numeric then writeNum s i sub r.type v else writeOct s i sub r.type v

/-! ## Checks 3 to 6 of R445 -/

/-- The plane of an index range as a bit of a key slot's mask (R33, R505): data 0, control 1, management 2. -/
def planeOf (i : Nat) : Nat :=
  let p := i / 256
  if [0x11, 0x14, 0x28, 0x30].contains p then 1 else if [0x20, 0x21, 0x24, 0x4C].contains p then 0 else 2

/-- A hub that has not finished its boot, and so admits only the entries of R497. -/
def booting (s : State) (hub : Nat) : Bool := s.dev.st == .boot || (s.hubBoot hub).phase != 4

/-- In BOOT a request is taken over I3C, or over UDP under key slot 15 only (R497). -/
def bootSlot (slot : Option Nat) : Bool := slot == none || slot == some 15

/-- R497: what the front end admits in BOOT. Log entry 114 (DEDUCED). -/
def bootAdmits (s : State) (hub : Nat) (write : Bool) (slot : Option Nat) (i : Nat) : Bool :=
  bootSlot slot &&
  (if write then recovering s hub && (i == 0x4830 || i == 0x4831)
   else (decide (0x1000 ≤ i) && decide (i < 0x1100)) || i == 0x1100 || i == 0x4800 || i == 0x4801 || (decide (0x5F00 ≤ i) && decide (i < 0x6000)))

/-- A half is in SAFE or restarting (R579). -/
def halfDown (s : State) (h : Nat) : Bool := (s.scope (4 + h)).st == 1 || s.dev.st == .safe

/-- Checks 3 to 6 of R445, which let a write to key slot 15 reach R505's own check, on a READ or WRITE that came under a key slot or over I3C: zero
where all pass. Log entry 107 (DEDUCED). -/
def entryStatus (s : State) (hub : Nat) (slot : Option Nat) (write : Bool) (i sub : Nat) : Nat :=
  match findRow i with
  | none => 1
  | some r =>
    let inMask := match slot with
      | none => true
      | some k => nbit (s.keySlot k).mask (planeOf i)
    if r.subs ≤ sub && !(write && i == 0x4820 && sub == 15) then 2
    else if !inMask then 0x0015
    else if (write && r.acc == .ro) || (!write && r.acc == .wo) then 3
    else if booting s hub then (if bootAdmits s hub write slot i then 0 else 4)
    else if write && r.acc == .rwCfg && s.dev.st != .config then (if i = 0x3000 then 0x0209 else 4)
    else if halfDown s ((holder i sub).getD hub) then 7
    else 0

/-! ## Writes that the table names (R345, R363, R365, R445, R476) -/

/-- An entry written through the front end of a hub, under no key slot: checks 3 to 8 of R445, its effect, and its status as the answer. -/
def directWrite (s : State) (hub : Fin 2) (i sub : Nat) (v : List Byte) : State :=
  match findRow i with
  | none => s
  | some r =>
    let st := entryStatus s hub.val none true i sub
    let w := if st ≠ 0 then (st, s) else writeEntry s hub none r i sub v
    { w.2 with host := { w.2.host with out := w.2.host.out ++ [.entryStatus i sub w.1] } }

/-- `STR_ENTRY_WRITE` (R345). -/
def execStrEntryWrite (hub : Fin 2) (n : Nat) (value : List Byte) (s : State) : Res := ok (directWrite s hub 0x2100 n value)

/-- `FUS_BIND_WRITE` (R363). -/
def execFusBindWrite (hub b : Fin 2) (value : List Byte) (s : State) : Res := ok (directWrite s hub 0x2400 b.val value)

/-- `CAL_REC_WRITE` (R365). -/
def execCalRecWrite (hub b : Fin 2) (sensor : Nat) (value : List Byte) (s : State) : Res := ok (directWrite s hub (0x2408 + b.val) sensor value)

/-- `GW_QBV_WRITE` (R476): through the hub whose port it is. -/
def execGwQbvWrite (n : Nat) (value : List Byte) (s : State) : Res := ok (directWrite s (if n < 6 then 0 else 1) 0x4C11 n value)

/-! ## Countersigned writes (R442, R448, R449) -/

/-- Every mirror that R389 needs lies in its sector's granules. -/
def mirrorsOk (s : State) : Bool :=
  (s.work.tasks.all fun p => !(pairedHome s p.1) || p.2.slices.all fun l => match l.carry with
    | none => true
    | some c => (c.pagesA ++ c.pagesB).all fun o => inGranules (s.sec p.2.sector).record (mirrorOf o) 4096) &&
  (s.work.images.all fun p => p.2.prisms.all fun q =>
    !(p.2.homes.any fun h => dieOf h == q.die && pairedHome s h) || q.pages.all fun o => inGranules (s.sec p.1).record (mirrorOf o) 4096)

/-- Another programmed key-hash slot of a hub that is not revoked remains beside slot `k` (R503). -/
def otherKey (x : HubBoot) (k : Nat) : Bool := (List.range 4).any fun j => j != k && keyLive x j

/-- The value check of an `rw-2k` entry on the serving hub (R389, R404, R459, R502, R503). Log entry 109 (DEDUCED). -/
def twoKStatus (s : State) (hub i v : Nat) : Nat :=
  let x := s.hubBoot hub
  match i with
  | 0x1101 =>
    if v = 1 then (if s.dev.st ≠ .config then 4 else if s.num 0x4000 0 = 0 && !(mirrorsOk s) then 0x0703 else 0)
    else if v = 2 then (if s.operating then 0 else 4) else 4
  | 0x4000 => if 1 < v then 0x0701 else if v = 0 && s.num 0x4000 0 ≠ 0 && s.operating && !(mirrorsOk s) then 0x0703 else 0
  | 0x4806 => unless_ (v == x.svn && decide (x.rollback < v) && decide (v ≤ 64)) 0x0918
  | _ => unless_ (decide (v < 4) && keyLive x v && v != x.slot && otherKey x v) 0x0911

/-- A countersigned write that passed checks 1 to 7 is forwarded to both Meridians at its stamp. -/
def forwardTwoK (s : State) (hub i sub v : Nat) (session : Option (Option (Nat × Nat × Nat))) (seq : Nat) : State :=
  let w : TwoK := { id := s.id, hub := hub, index := i, sub := sub, value := v, stamp := s.now, session := session, seq := seq, signW := none,
                    signE := none, pending := none, status := 0 }
  { s.takeId with host := { s.host with twoK := s.host.twoK ++ [w] } }

/-! ## Sessions and responses (R450-R453) -/

/-- A session of a hub: its I3C target, or one UDP requester. -/
def findSession (s : State) (hub : Nat) (key : Option (Nat × Nat × Nat)) : Option Session :=
  s.host.sessions.find? fun x => x.hub == hub && x.udp == key

/-- A session replaced, or added. -/
def putSession (s : State) (x : Session) : State :=
  { s with host := { s.host with sessions := s.host.sessions.filter (fun y => !(y.hub == x.hub && y.udp == x.udp)) ++ [x] } }

/-- A session that has seen no request. -/
def Session.fresh (hub : Nat) (key : Option (Nat × Nat × Nat)) : Session :=
  { hub := hub, number := 0, udp := key, kept := [], busy := [], used := 0, unread := [] }

/-- The number of a session on its hub: 0 for the I3C target, the lowest unused for a UDP session. -/
def sessionNumber (s : State) (hub : Nat) (key : Option (Nat × Nat × Nat)) : Nat :=
  match findSession s hub key with
  | some x => x.number
  | none =>
    if key.isNone then 0
    else (((List.range 16).map (1 + ·)).find? fun n => !(s.host.sessions.any fun x => x.hub == hub && x.number == n)).getD 16

/-- A session opened: a seventeenth UDP session of a hub evicts the one idle longest. -/
def openSession (s : State) (hub : Nat) (key : Option (Nat × Nat × Nat)) : State :=
  if (findSession s hub key).isSome then s
  else
    let udp := s.host.sessions.filter fun x => x.hub == hub && x.udp.isSome
    let s1 := if key.isSome && 16 ≤ udp.length then
        match (sortBy (fun x => x.used) udp).head? with
        | none => s
        | some o => { s with host := { s.host with sessions := s.host.sessions.filter fun y => !(y.hub == o.hub && y.udp == o.udp) } }
      else s
    putSession s1 { Session.fresh hub key with number := sessionNumber s1 hub key }

/-- A response leaves: to be read from the I3C target, or as a datagram under the requester's slot (R452, R457). -/
def deliver (s : State) (hub : Nat) (key : Option (Nat × Nat × Nat)) (unit : List Byte) : State :=
  match key with
  | some (slot, addr, port) => sendUdp s hub slot addr port unit
  | none =>
    let x := (findSession s hub none).getD (Session.fresh hub none)
    putSession s { x with unread := x.unread ++ [unit] }

/-- A request's fields (R450). -/
structure Request where
  bytes   : List Byte
  op      : Nat
  seq     : Nat
  index   : Nat
  sub     : Nat
  payload : List Byte
  deriving DecidableEq, Repr

/-- A request read from its bytes. -/
def request (pdu : List Byte) : Request :=
  { bytes := pdu, op := nbits (leAt pdu 0 1) 0 4, seq := leAt pdu 2 2, index := leAt pdu 4 2, sub := leAt pdu 6 1,
    payload := (pdu.drop 12).take (pdu.length - 16) }

/-- The response to a request. -/
def responseTo (q : Request) (status : Nat) (payload : List Byte) (dup : Bool) : List Byte :=
  axUnit (q.op + 0x110 + 0x200 * b2n dup) q.seq q.index q.sub status payload

/-- A retained response marked as repeated. -/
def asDup (unit : List Byte) : List Byte :=
  let body := (unit.take (unit.length - 4)).zipIdx.map fun p => if p.2 = 1 then p.1 ||| 2 else p.1
  body ++ toBytes 4 (crc32c body)

/-- A response retained with the last 16 sequences (R452). -/
def keepAnswer (s : State) (hub : Nat) (key : Option (Nat × Nat × Nat)) (q : Request) (unit : List Byte) : State :=
  let x := (findSession s hub key).getD (Session.fresh hub key)
  let kept := (x.kept.filter fun k => k.1 != q.seq) ++ [(q.seq, q.bytes, unit)]
  putSession s { x with kept := kept.drop (kept.length - 16) }

/-- A response retained and sent. -/
def answerKept (s : State) (hub : Nat) (key : Option (Nat × Nat × Nat)) (q : Request) (unit : List Byte) : State :=
  deliver (keepAnswer s hub key q unit) hub key unit

/-- A countersigned write is answered (R448): its session gets the response, and a copy for each repeat that waits. -/
def answerTwoK (s : State) (w : TwoK) (status : Nat) : State :=
  match w.session with
  | none => s
  | some key =>
    match findSession s w.hub key with
    | none => s
    | some x =>
      match x.busy.filter fun b => b.2.2 == w.id with
      | [] => s
      | b :: repeats =>
        let q := request b.2.1
        let unit := responseTo q status [] false
        let s1 := answerKept (putSession s { x with busy := x.busy.filter fun c => c.2.2 != w.id }) w.hub key q unit
        repeats.foldl (fun a _ => deliver (a.count64 0x5F04 w.hub 1) w.hub key (asDup unit)) s1

/-- A countersigned write ends without effect: its response reports the failure. -/
def failTwoK (s : State) (w : TwoK) (status : Nat) : State :=
  answerTwoK { s with host := { s.host with twoK := s.host.twoK.filter fun y => y.id != w.id } } w status

/-- The conditions under which a Meridian signs (R442). -/
def signs (s : State) (h : Nat) : Bool :=
  (s.operating || s.dev.st == .config) && [2 * h, 2 * h + 1, 4 + h].all fun i => (s.scope i).st != 1

/-- Both signatures are taken: the write becomes pending, within the limits of that instant (R448). -/
def makePending (s : State) (w : TwoK) : State :=
  if 4 ≤ (s.host.twoK.filter fun y => y.pending.isSome).length then failTwoK s w 8
  else if w.index = 0x4000 && pxPending s then failTwoK s w 0x0702
  else if s.host.twoK.any fun y => y.pending.isSome && y.index == w.index && y.sub == w.sub then failTwoK s w 8
  else
    answerTwoK { s with host := { s.host with twoK := s.host.twoK.map fun y =>
      if y.id = w.id then { w with pending := some s.now } else y } } w 0

/-- `MERIDIAN_COUNTERSIGN` (R448): a Meridian's receipt of a forwarded write. -/
def countersign (s : State) (hub id : Nat) : State :=
  match s.host.twoK.find? fun w => w.id == id with
  | none => s
  | some w =>
    let had := if hub = 0 then w.signW else w.signE
    if w.pending.isSome || had.isSome || !(meridianUp s hub) then s
    else if w.stamp + 10000000 < s.now then failTwoK s w 9
    else if !(signs s hub) then failTwoK s w 0x0742
    else
      let w1 := if hub = 0 then { w with signW := some true } else { w with signE := some true }
      let s1 := { s with host := { s.host with twoK := s.host.twoK.map fun y => if y.id = id then w1 else y } }
      if w1.signW = some true && w1.signE = some true then makePending s1 w1 else s1

/-- `MERIDIAN_COUNTERSIGN` (R448). -/
def execMeridianCountersign (hub : Fin 2) (id : Nat) (s : State) : Res := ok (countersign s hub.val id)

/-- `COUNTERSIGN_TIMEOUT` (R448): no effect before 10 ms have passed, or once the write is pending. -/
def countersignLate (s : State) (id : Nat) : State :=
  match s.host.twoK.find? fun w => w.id == id with
  | none => s
  | some w => if w.pending.isSome || s.now < w.stamp + 10000000 then s else failTwoK s w 9

/-- `COUNTERSIGN_TIMEOUT` (R448). -/
def execCountersignTimeout (id : Nat) (s : State) : Res := ok (countersignLate s id)

/-- A countersigned write by a row of its own: checks 3 to 7, and the forwarding. -/
def askTwoK (s : State) (hub i v : Nat) : State :=
  if entryStatus s hub none true i 0 = 0 && twoKStatus s hub i v = 0 then forwardTwoK s hub i 0 v none 0 else s

/-! ## Requests (R445, R452, R458) -/

/-- A datagram's counter is new for its slot (R458). -/
def ctrNew (k : KeySlot) (ctr : Nat) : Bool := decide (k.high < ctr) || (decide (k.high < ctr + 64) && !(k.seen.contains ctr))

/-- What an authentic datagram of R457 carries: its key slot, counter and unit; none where R458 discards it. Log entry 99 (DEDUCED). -/
def openDatagram (s : State) (bytes : List Byte) : Option (Nat × Nat × List Byte) :=
  let kid := leAt bytes 0 4
  let k := s.keySlot (kid % 256)
  let ctr := leAt bytes 4 8
  if bytes.length < 44 || !k.installed || k.gen ≠ kid / 256 || !(ctrNew k ctr) then none
  else (gcmOpen k.key (k.salt ++ (bytes.drop 4).take 8) (bytes.take 24) (bytes.drop 24)).map fun p => (kid % 256, ctr, (bytes.drop 12).take 12 ++ p)

/-- A datagram discarded under R458: counted, and the first in each second is told. -/
def authFail (s : State) (hub slot addr port : Nat) : State :=
  let s1 := s.count64 0x5F02 hub 1
  let sec := s.now / 1000000000 + 1
  if s1.host.authTold = sec then s1
  else nimWarn { s1 with host := { s1.host with authTold := sec } } (4 + hub) 0x010D (toBytes 1 slot ++ toBytes 16 addr ++ toBytes 2 port)

/-- The counter of an accepted datagram is recorded. -/
def takeCtr (s : State) (slot ctr : Nat) : State :=
  let k := s.keySlot slot
  let high := Nat.max k.high ctr
  s.setKeySlot slot { k with high := high, seen := (ctr :: k.seen).filter fun c => decide (high < c + 64) }

/-- Check 1 of R445. -/
def framing (pdu : List Byte) : Nat :=
  if pdu.length < 16 || crc32c (pdu.take (pdu.length - 4)) ≠ leAt pdu (pdu.length - 4) 4 then 0x0010
  else if 1024 < leAt pdu 8 2 || leAt pdu 8 2 ≠ pdu.length - 16 then 0x0011
  else 0

/-- Check 2 of R445. -/
def opStatus (q : Request) : Nat :=
  let h := leAt q.bytes 0 2
  if nbits h 4 4 ≠ 1 then 0x0012
  else if !([1, 2, 4].contains q.op) || h / 256 ≠ 0 || leAt q.bytes 7 1 ≠ 0 || leAt q.bytes 10 2 ≠ 0 then 0x0013
  else if (q.op = 1 && !q.payload.isEmpty) || (q.op = 4 && (q.index ≠ 0 || q.sub ≠ 0)) then 0x0013
  else 0

/-- The slot under which a request came. -/
def slotUsed (key : Option (Nat × Nat × Nat)) : Option Nat := key.map Prod.fst

/-- A WRITE that passed checks 1 to 6: the effect and the response. A countersigned one waits for its signatures; the response to a write
that replaces the slot carrying it leaves under the old key (R505). -/
def doWrite (s : State) (hub : Fin 2) (key : Option (Nat × Nat × Nat)) (q : Request) (r : EntryRow) : State :=
  if r.acc = .rw2k then
    let st := if q.payload.length ≠ 1 then 5 else twoKStatus s hub.val q.index (ofBytes q.payload)
    if st ≠ 0 then answerKept s hub.val key q (responseTo q st [] false)
    else
      let x := (findSession s hub.val key).getD (Session.fresh hub.val key)
      forwardTwoK (putSession s { x with busy := x.busy ++ [(q.seq, q.bytes, s.id)] }) hub.val q.index q.sub (ofBytes q.payload) (some key) q.seq
  else
    let w := writeEntry s hub (slotUsed key) r q.index q.sub q.payload
    let unit := responseTo q w.1 [] false
    match key with
    | none => answerKept w.2 hub.val key q unit
    | some (slot, addr, port) =>
      if q.index = 0x4820 && slot = q.sub && w.1 = 0 then
        udpOut (keepAnswer w.2 hub.val key q unit) hub.val addr port (datagram slot (s.keySlot slot) unit)
      else answerKept w.2 hub.val key q unit

/-- A request that is new to its session: checks 2 to 8, its effect and its response. -/
def doRequest (s : State) (hub : Fin 2) (key : Option (Nat × Nat × Nat)) (q : Request) : State :=
  let st := opStatus q
  let reply (status : Nat) (payload : List Byte) : State := answerKept s hub.val key q (responseTo q status payload false)
  if st ≠ 0 then reply st []
  else if q.op = 4 then reply (if booting s hub.val && !(bootSlot (slotUsed key)) then 4 else 0) (if booting s hub.val && !(bootSlot (slotUsed key)) then [] else q.payload)
  else
    let es := entryStatus s hub.val (slotUsed key) (q.op == 2) q.index q.sub
    if es ≠ 0 then reply es []
    else if q.op = 1 then
      (if readStatus s q.index q.sub ≠ 0 then reply (readStatus s q.index q.sub) [] else reply 0 (readBytes s hub.val q.index q.sub))
    else match findRow q.index with
      | none => reply 1 []
      | some r => doWrite s hub key q r

/-- A request of a session (R452): a damaged one is answered and not retained, a repeat is not executed again. -/
def takeRequest (s : State) (hub : Fin 2) (key : Option (Nat × Nat × Nat)) (pdu : List Byte) : State :=
  let s1 := openSession (s.count64 0x5F00 hub.val 1) hub.val key
  let x0 := (findSession s1 hub.val key).getD (Session.fresh hub.val key)
  let s2 := putSession s1 { x0 with used := s.now }
  let x := (findSession s2 hub.val key).getD x0
  let q := request pdu
  let fr := framing pdu
  if fr ≠ 0 then deliver (s2.count64 0x5F01 hub.val 1) hub.val key (responseTo q fr [] false)
  else match x.kept.find? fun k => k.1 == q.seq with
    | some (_, old, unit) =>
      if old = pdu then deliver (s2.count64 0x5F04 hub.val 1) hub.val key (asDup unit)
      else deliver s2 hub.val key (responseTo q 0x0014 [] false)
    | none => match x.busy.find? fun b => b.1 == q.seq with
      | some (_, old, id) =>
        if old = pdu then putSession s2 { x with busy := x.busy ++ [(q.seq, pdu, id)] }
        else deliver s2 hub.val key (responseTo q 0x0014 [] false)
      | none => doRequest s2 hub key q

/-- The front end of a hub runs: the device is powered and the hub has left reset. -/
def frontUp (s : State) (hub : Nat) : Bool := meridianUp s hub

/-- A session with four unanswered requests takes no more (R452, R455). -/
def sessionFull (s : State) (hub : Nat) (key : Option (Nat × Nat × Nat)) : Bool :=
  match findSession s hub key with
  | none => false
  | some x => decide (4 ≤ x.busy.length)

/-- The stamp of a request of a session that is applied now: none that R446 puts after it has been applied before. -/
def reqStamp (s : State) (hub number : Nat) : Nat :=
  let l := s.host.lastReq
  if l.1 < s.now then s.now else if l.2.1 < hub || (l.2.1 = hub && l.2.2 ≤ number) then l.1 else l.1 + 1

/-- A request taken at its stamp (R446). Log entry 170 (DEDUCED). -/
def stampRequest (s : State) (hub : Fin 2) (key : Option (Nat × Nat × Nat)) (pdu : List Byte) : State :=
  let s1 := openSession s hub.val key
  let n := sessionNumber s1 hub.val key
  let t := reqStamp s1 hub.val n
  { takeRequest { s1 with now := t, host := { s1.host with lastReq := (t, hub.val, n) } } hub key pdu with now := s.now }

/-- The target of a hub has a dynamic address (R454). -/
def addressed (s : State) (hub : Nat) : Bool := (lget s.host.i3c hub I3c.fresh).addr != 0

/-- The target leaves HDR-DDR at the HDR exit that ends a transfer in it (R454). -/
def hdrExit (s : State) (hub : Nat) : State := { s with host := { s.host with i3c := lmod s.host.i3c hub fun x => { x with hdr := false } } }

/-- A request arrives at a hub (R452, R454, R455, R457, R458), over I3C once the target has its dynamic address, or as a datagram to the port of R457.
Log entry 113 (DEDUCED). -/
def arriveRequest (s : State) (hub : Fin 2) (src : AxSource) (bytes : List Byte) : State :=
  if !(frontUp s hub.val) then s
  else match src with
    | .i3c =>
      if !(addressed s hub.val) then s
      else if sessionFull s hub.val none then hdrExit s hub.val else stampRequest (hdrExit s hub.val) hub none bytes
    | .udp addr port dport =>
      if dport ≠ s.num 0x5F08 0 then s
      else match openDatagram s bytes with
        | none => authFail s hub.val (leAt bytes 0 1) addr port
        | some (slot, ctr, pdu) =>
          let s1 := takeCtr s slot ctr
          if sessionFull s1 hub.val (some (slot, addr, port)) then s1.count64 0x5F03 hub.val 1
          else stampRequest s1 hub (some (slot, addr, port)) pdu

/-- A request of a row's operation, or one whose framing or operation fails and that any of the three rows carries. -/
def carriesPdu (op : Nat) (pdu : List Byte) : Bool :=
  framing pdu != 0 || opStatus (request pdu) != 0 || (request pdu).op == op

/-- The bytes that arrive carry a request of a row's operation; any row carries a datagram that is discarded. -/
def carries (s : State) (op : Nat) (src : AxSource) (bytes : List Byte) : Bool :=
  match src with
  | .i3c => carriesPdu op bytes
  | .udp _ _ _ => match openDatagram s bytes with
    | none => true
    | some (_, _, pdu) => carriesPdu op pdu

/-! ## Register writes -/

/-- A write of a dictionary entry at the unit that owns it, under checks 3 to 8 of R445. -/
def registerEntry (s : State) (hub : Fin 2) (i sub : Nat) (v : List Byte) : State :=
  match findRow i with
  | none => s
  | some r =>
    if !(frontUp s hub.val) || entryStatus s hub.val none true i sub ≠ 0 then s
    else if r.acc = .rw2k then (if v.length = 1 then askTwoK s hub.val i (ofBytes v) else s)
    else (writeEntry s hub none r i sub v).2

/-- An access of `kxpid` (R254): from S-mode and above the core gets its value, and a form that writes changes it; from a virtual mode or
U-mode it traps. -/
def accessKxpid (s : State) (core priv : Nat) (write : Bool) (v : Nat) : State :=
  if !(hubUp s (core / 8)) then s
  else if priv < 3 then
    let s1 := toGuest s (.coreData core (toBytes 4 (lget s.dev.kxpid core 0)))
    if write then { s1 with dev := { s1.dev with kxpid := lset s1.dev.kxpid core (v % 2 ^ 20) } } else s1
  else toGuest s (.coreTrap core (decide (priv < 5)))

/-! ## The I3C target (R454-R456) -/

/-- What a target sends. -/
def i3cOut (s : State) (hub : Nat) (bytes : List Byte) : State :=
  { s with host := { s.host with out := s.host.out ++ [.i3c hub bytes] } }

/-- `I3C_PRIVATE_READ` (R455): the oldest unread response whole; an early end discards and counts the rest. A target without a response
NACKs. -/
def privateRead (s : State) (hub maxlen : Nat) : State :=
  if !(frontUp s hub) || !(addressed s hub) then s
  else match findSession s hub none with
    | none => hdrExit s hub
    | some x => match x.unread with
      | [] => hdrExit s hub
      | u :: rest =>
        let s1 := i3cOut (putSession (hdrExit s hub) { x with unread := rest }) hub (u.take maxlen)
        if maxlen < u.length then s1.count64 0x5F03 hub 1 else s1

/-- `I3C_PRIVATE_READ` (R455). -/
def execI3cPrivateRead (hub : Fin 2) (maxlen : Nat) (s : State) : Res := ok (privateRead s hub.val maxlen)

/-- The I3C target of a hub. -/
def State.target (s : State) (hub : Nat) : I3c := lget s.host.i3c hub I3c.fresh

/-- The target changed. -/
def State.modTarget (s : State) (hub : Nat) (g : I3c → I3c) : State := { s with host := { s.host with i3c := lmod s.host.i3c hub g } }

/-- The bytes of a number, highest first, as I3C carries them. -/
def toBytesBE (n v : Nat) : List Byte := (toBytes n v).reverse

/-- The 48-bit provisional identifier (R454). -/
def i3cPid (hub : Nat) : Nat := pack [(33, 15, Config.i3cVendor), (16, 16, 0x3280), (12, 4, hub)]

/-- A common command code at a target that runs (R454); `events` holds the events that DISEC turned off. Log entry 115 (PRESUMED). -/
def cccRun (s : State) (hub : Nat) (c : Ccc) : State :=
  let t := s.target hub
  match c with
  | .enec e => s.modTarget hub fun x => { x with events := x.events &&& (255 - e.toNat) }
  | .disec e => s.modTarget hub fun x => { x with events := x.events ||| e.toNat }
  | .entdaa a => if t.addr = 0 then s.modTarget hub fun x => { x with addr := a.toNat % 128, hotJoin := false } else s
  | .setdasa st a => if t.addr = 0 && st.toNat = s.num 0x5F09 hub then s.modTarget hub fun x => { x with addr := a.toNat % 128, hotJoin := false } else s
  | .rstdaa => s.modTarget hub fun x => { x with addr := 0 }
  | .getpid => i3cOut s hub (toBytesBE 6 (i3cPid hub))
  | .getbcr => i3cOut s hub (toBytes 1 Config.i3cBcr)
  | .getdcr => i3cOut s hub (toBytes 1 Config.i3cDcr)
  | .getstatus => i3cOut (s.takeFree 1) hub (toBytesBE 2 (Config.freeNat s.free))
  | .setmrl n i => s.modTarget hub fun x => { x with maxRead := n, maxIbi := i }
  | .getmrl => i3cOut s hub (toBytesBE 2 t.maxRead ++ toBytes 1 t.maxIbi)
  | .setmwl n => s.modTarget hub fun x => { x with maxWrite := n }
  | .getmwl => i3cOut s hub (toBytesBE 2 t.maxWrite)
  | .getmxds => i3cOut (s.takeFree 1) hub (toBytes 2 (Config.freeNat s.free))
  | .enthdr0 => s.modTarget hub fun x => { x with hdr := true }
  | .rstact a => s.modTarget hub fun x => { x with rstAction := a.toNat }
  | .unsupported _ => s

/-- A code that the controller sends to one target by its dynamic address. -/
def cccDirect : Ccc → Bool
  | .getpid => true
  | .getbcr => true
  | .getdcr => true
  | .getstatus => true
  | .getmrl => true
  | .getmwl => true
  | .getmxds => true
  | _ => false

/-- A common command code on the bus of a hub: those for one target need its address; any code comes in SDR, so that a target in HDR-DDR has
left it before. -/
def cccArrive (s : State) (hub : Nat) (c : Ccc) : State :=
  if !(frontUp s hub) then s else if cccDirect c && !(addressed s hub) then hdrExit s hub else cccRun (hdrExit s hub) hub c

/-- `I3C_CCC` (R454): a code outside the table is not acknowledged. -/
def execI3cCcc (hub : Fin 2) (ccc : Ccc) (s : State) : Res := ok (cccArrive s hub.val ccc)

/-- A report delivered by an acknowledged interrupt frees its slot (R215). -/
def ibiDelivered (s : State) (h : Nat) : State :=
  let x := s.slot (slotOf h)
  if s.holds h && x.st == .complete && x.rep == 2 then freeSlot s (slotOf h) else s

/-- A Hot-Join request of a target that its hub's restart has left without an address (R454), which the controller acknowledges or leaves to be
raised again; DISEC turns it off by its bit 3. -/
def hotJoin (s : State) (hub : Nat) (ack : Bool) : State :=
  let t := s.target hub
  if !t.hotJoin || nbit t.events 3 || !ack then s
  else toGuest (s.modTarget hub fun x => { x with hotJoin := false }) (.hotJoin hub)

/-- `I3C_IBI` (R456): a target without an address may ask to join; one that has an address raises the oldest queued interrupt if it may; an
acknowledgment delivers it, and a NACK leaves it to be raised again. A hub in recovery raises none (R498). -/
def raiseQueued (s : State) (hub : Nat) (ack : Bool) : State :=
  let t := s.target hub
  if !(frontUp s hub) then s
  else if t.addr = 0 then hotJoin s hub ack
  else match lget s.host.ibis hub [] with
    | [] => s
    | i :: rest =>
      if recovering s hub || nbit t.events 0 || !ack then s
      else
        let s1 := i3cOut { s with host := { s.host with ibis := lset s.host.ibis hub rest } } hub (toBytes 1 i.mdb ++ i.bytes)
        match i.handle with
        | none => s1
        | some h => ibiDelivered s1 h

/-- `I3C_IBI` (R456). -/
def execI3cIbi (hub : Fin 2) (ack : Bool) (s : State) : Res := ok (raiseQueued s hub.val ack)

/-! ## Nimbusor delivery and telemetry (R464, R465) -/

/-- The records of a ring that are not acknowledged. -/
def unacked (g : Ring) : List (Nat × BitVec 512) := g.recs.filter fun r => decide (g.first ≤ r.1)

/-- `NIM_RETRANSMIT` (R464): each record that is not acknowledged is pushed again once `NIM_RETX_MS` has passed since it last was. -/
def retransmit (s : State) (hub : Nat) : State :=
  let g := lget s.host.rings hub Ring.fresh
  let due (q : Nat) : Bool := match tfind g.pushed q with
    | none => true
    | some t => decide (t + s.num 0x5005 0 * 1000000 ≤ s.now)
  if !(meridianUp s hub) then s else ((unacked g).filter fun r => due r.1).foldl (fun a r => pushRecord a hub r.1 r.2) s

/-- `NIM_RETRANSMIT` (R464). -/
def execNimRetransmit (hub : Fin 2) (s : State) : Res := ok (retransmit s hub.val)

/-- The sample that `NIM_SEL` k selects. -/
def sampleOf (s : State) (k : Nat) : Nat :=
  let v := s.num 0x5007 k
  if nbit v 31 then numRead s (nbits v 8 16) (nbits v 0 8) else 0

/-- A multiple of the period is owed at this boundary: none between it and now, and none that an earlier boundary took (R465). -/
def telemetryOwed (s : State) : Bool :=
  let p := s.num 0x5006 0 * 1000000
  let m := s.now / p * p
  p != 0 && s.atBoundary && decide (s.host.telemetry ≤ m) && decide (s.now < m + s.tickNs)

/-- `NIM_TELEMETRY` (R465). -/
def telemetry (s : State) : State :=
  let p := s.num 0x5006 0 * 1000000
  if !(telemetryOwed s) || hubDown s 0 || s.dev.st = .off then s
  else nim { s with host := { s.host with telemetry := (s.now / p + 1) * p } } s.now 7 0x1FF none 0x0400 0 false
    (ofBytes ((List.range 6).flatMap fun k => toBytes 8 (sampleOf s k)))

/-- `NIM_TELEMETRY` (R465). -/
def execNimTelemetry (s : State) : Res := ok (telemetry s)

end Sys2Proof.Machine
end

