-- ==== Sys2Proof/Machine/Close.lean ====
section
/-! DEFINITION. A tick window closes: steps 1 to 4 of R38. Watchdogs and budgets are evaluated, faults are concluded and their outputs
withheld (R148, R393, R394), and the carry sets of good steps are committed (R149, R400). What ends a step at the instant of a close
belongs to the new tick (R13). -/

namespace Sys2Proof.Machine

/-- The close of a tick window whose steps 1 to 4 have not run. -/
def closeDue (s : State) : Bool := s.dev.st != .off && s.atBoundary && decide (s.sched.closed < s.tickNow)

/-! ## Step 2: watchdogs and budgets -/

/-- An occurrence that was not released before its window closed is shed, unless it is held (R237). -/
def lateRelease (s : State) (o : Occ) : State :=
  if o.st ≠ .waiting || s.now < tickStart s o.tick + fld (s.entRaw o.entry) 112 16 * 1000 then s
  else if entHeld s (s.entRaw o.entry) then abandon s o else shed s o.entry o.tick

/-- A step whose carry write is not complete as its tick closes has overrun (R148). -/
def overran (o : Occ) (t : TaskOut) : Bool := taskEnded o t && !(carriesDone o t)

/-- The carry overruns of a finished occurrence, each a fault stamped just before the close. Log entry 121 (DEDUCED). -/
def carryOverruns (s : State) (o : Occ) : State :=
  if o.st ≠ .finished && o.st ≠ .released then s
  else
    (o.tasks.filter (overran o)).foldl (fun a t =>
      let a1 := modOcc (lastEvent a (a.now - 1) o.entry 1) o.entry o.tick fun p => { p with overrun := true }
      raiseFault a1 (a1.now - 1) o.entry 0x04 (dieOf t.home) (a1.siteOf t.home) 0x3F (some (entSector (a1.entRaw o.entry)))) s

/-- An occurrence as it stands in the table, acted on. -/
def onOccs (s : State) (g : State → Occ → State) : State :=
  s.sched.occs.foldl (fun a o => match findOcc a o.entry o.tick with
    | none => a
    | some p => g a p) s

/-- Step 2 of R38. -/
def watchdogs (s : State) : State :=
  let s1 := (s.work.facets.map Prod.fst).foldl budgetClose s
  let s2 := onOccs s1 lateRelease
  let s3 := onOccs s2 fun a o => if o.st == .released && windowMissed a o then windowFault a o.entry o.tick (tickStart a o.tick + fld (a.entRaw o.entry) 144 16 * 1000 - 1) else a
  onOccs s3 carryOverruns

/-! ## Step 3: conclusions (R393, R394) -/

/-- A task's step failed at its latch (R126). -/
def latchFailed (t : TaskOut) : Bool :=
  match t.mainCause with
  | some c => c.code == 0
  | none => false

/-- A paired checkpoint that has not been judged by both units (R393). Log entry 120 (DEDUCED). -/
def noExchange (o : Occ) (t : TaskOut) : Bool := needsBoth o t && !(latchFailed t) && (t.verdict.isNone || t.cverdict.isNone)

/-- The cause code and pc of a stopped copy. -/
def causeKey (c : Option Cause) : Nat × Nat := match c with
  | some x => (x.code, x.pc.toNat)
  | none => (0, 0)

/-- What the close at `now` sees of a task: a cause stamped at it belongs to the new tick (R13, R38). -/
def closedOut (now : Nat) (t : TaskOut) : TaskOut :=
  let before (c : Cause) : Bool := decide (c.stamp < now)
  { t with mainCause := t.mainCause.filter before, chkCause := t.chkCause.filter before }

/-- What a close orders for one task (R394): nothing where its step stands, else whether it is replayed. -/
def conclusion (o : Occ) (t : TaskOut) : Option Bool :=
  if latchFailed t || noExchange o t then some false
  else if needsBoth o t then
    if t.verdict == some true && t.cverdict == some true && t.mainCause.isNone && t.chkCause.isNone then
      (if o.wfault || overran o t then some true else none)
    else
      let m := causeKey t.mainCause
      let c := causeKey t.chkCause
      some (pairResponse t.mainCause.isSome t.chkCause.isSome m.1 c.1 m.2 c.2).1
  else match t.mainCause with
    | some c => some (imprecise c.code)
    | none => if t.mainEnd.isNone then some false else if o.wfault || overran o t then some true else none

/-- A checkpoint without exchange while the cross-half link of the pair is up is a Congruence fault (R420). -/
def exchangeFault (s : State) (o : Occ) (t : TaskOut) : State :=
  let d := dieOf t.home
  if !(noExchange o t) || !(linkUp s (2 + d % 2)) then s
  else
    let sec := some (entSector (s.entRaw o.entry))
    let s1 := raiseFault s (s.now - 1) o.entry 0x10 d 0x1FF 0x3F sec
    raiseFault s1 (s1.now - 1) o.entry 0x10 (d ^^^ 2) 0x1FF 0x3F sec

/-! ## Step 4: commits (R149, R400) -/

/-- One task's step is committed: the buffer just written becomes the committed one, and its view is released (R128). -/
def commitTask (s : State) (o : Occ) (h : Nat) : State :=
  let s1 := match tfind s.work.tasks h with
    | none => s
    | some t => modSlice s h (residentSlice s t) fun l => if l.carry.isSome then { l with bIsCommitted := !l.bIsCommitted } else l
  modTask (releaseViewOf s1 o.entry o.tick h) o.entry o.tick h fun t => { t with committed := true }

/-- An occurrence of the ending tick is concluded: good steps are committed, the others withheld, each replayed or lost (R394).
Log entry 122 (DEDUCED). -/
def conclude (s : State) (o : Occ) : State :=
  let verdict (t : TaskOut) : Option Bool := conclusion o (closedOut s.now t)
  let good := (o.tasks.filter fun t => (verdict t).isNone).map TaskOut.home
  let again := (o.tasks.filter fun t => verdict t == some true).map TaskOut.home
  let lost := (o.tasks.filter fun t => verdict t == some false).map TaskOut.home
  let s1 := if again.isEmpty && lost.isEmpty then trySettle s o.entry o.tick else o.tasks.foldl (fun a t => exchangeFault a o t) s
  let s2 := good.foldl (fun a h => commitTask a o h) s1
  let s3 := lost.foldl (fun a h => releaseViewOf a o.entry o.tick h) s2
  let mark (t : TaskOut) : TaskOut := { t with replay := again.contains t.home, failed := lost.contains t.home }
  if again.isEmpty && lost.isEmpty then modOcc s3 o.entry o.tick fun p => { p with st := .closed, heldAt := s3.now }
  else if again.isEmpty then
    modOcc (settle s3 o.entry o.tick (failure o).1 (failure o).2) o.entry o.tick fun p => { p with st := .failed, heldAt := s3.now, tasks := p.tasks.map mark }
  else
    modOcc s3 o.entry o.tick fun p => { p with st := .withheld, heldAt := s3.now, first := some (failure o), tasks := p.tasks.map mark }

/-- A replayed step whose carry write is not complete as a tick closes has overrun (R148): the replay has failed (R394). -/
def replayOverrun (s : State) (o : Occ) (h : Nat) : State :=
  let s1 := raiseFault (lastEvent s (s.now - 1) o.entry 1) (s.now - 1) o.entry 0x04 (dieOf h) (s.siteOf h) 0x3F (some (entSector (s.entRaw o.entry)))
  if o.paired then failReplay s1 o.entry o.tick h s1.now else failTask s1 o.entry o.tick h

/-- The accepted steps of a replay are committed (R400), those with a carry write outstanding apart. -/
def commitReplay (s : State) (o : Occ) : State :=
  let fresh := o.tasks.filter fun t => t.replay && t.accepted && !t.committed && !t.failed
  let s1 := fresh.foldl (fun a t => if carriesDone o t then commitTask a o t.home else replayOverrun a o t.home) s
  match findOcc s1 o.entry o.tick with
  | none => s1
  | some p =>
    if p.tasks.all fun t => !t.replay || t.committed || t.failed then
      modOcc s1 p.entry p.tick fun q => { q with st := if p.tasks.any fun t => t.failed then .failed else .closed, heldAt := s1.now }
    else s1

/-- Steps 3 and 4 of R38 for one occurrence of a tick that has ended. -/
def concludeOcc (s : State) (o : Occ) : State :=
  if s.tickNow ≤ o.tick then s
  else match o.st with
    | .released => conclude s o
    | .finished => conclude s o
    | .replaying => commitReplay s o
    | _ => s

/-- Steps 1 to 4 of R38 at this close. A signature record that has met no partner goes, unless its replay still runs. -/
def closeTick (s : State) : State :=
  let s1 := onOccs (watchdogs s) concludeOcc
  let live (p : Nat × BitVec 512) : Bool := match recOcc s1 p.2 with
    | some o => o.st == .replaying || decide (s1.tickNow ≤ o.tick)
    | none => false
  { s1 with safety := { s1.safety with records := s1.safety.records.filter live },
            sched := { s1.sched with closed := s1.tickNow } }

/-- The window that closes now has had its steps 1 to 4. -/
def afterClose (s : State) : State := if closeDue s then closeTick s else s

/-! ## What is stamped at the close belongs to the new tick (R13, R267) -/

/-- `STEP_COMPLETE` (R44): no effect while something of the step is outstanding. -/
def execStepComplete (site : Nat) (s : State) : Res :=
  ok (if quiet (afterClose s) site then stepDone (afterClose s) site else afterClose s)

/-- `BUDGET_EXPIRY` (R243): no effect before the step's budget has run out; one that runs out by the close is of the ending tick (R38). -/
def execBudgetExpiry (site : Nat) (s : State) : Res := ok (budgetStop (afterClose s) site)

/-- `CARRY_WRITE_COMPLETE` (R148). -/
def execCarryWriteComplete (site : Nat) (s : State) : Res := ok (carryComplete (afterClose s) site)

/-- `SIGNATURE_RECORD` (R391, R392): a checkpoint stamped before the close is judged in the ending tick (R392).
It crosses the cross-half link, and none arrives while that is down (R332). -/
def execSignatureRecord (unit : Fin 4) (r : BitVec 512) (s : State) : Res :=
  ok (if linkUp s (2 + unit.val % 2) then takeRecord (if fld r 384 64 < s.now then s else afterClose s) unit.val r else s)

/-- `SEC_RESET` (R266, R267). -/
def execSecReset (h : Nat) (s : State) : Res := ok (secReset (afterClose s) h)

end Sys2Proof.Machine
end

