-- ==== Sys2Proof/Machine/Boundary.lean ====
section
/-! DEFINITION. A tick opens: step 5 of R38, the changes bound to a boundary, and what a device does as it enters OPERATIONAL or CONFIG
(R149, R230, R363, R389, R431). The releases of step 6 are commands of their own, at the due times of the entries. -/

namespace Sys2Proof.Machine

/-! ## Scopes and the device state (R7, R424, R425) -/

/-- Scopes that are ready rejoin the schedule (R425). -/
def rejoin (s : State) : State :=
  { s with dev := { s.dev with scopes := s.dev.scopes.map fun c => if c.st = 1 && c.ready then scopeOut c else c } }

/-- The device returns to OPERATIONAL once no degrading condition remains (R7). -/
def recoverState (s : State) : State := if s.dev.st = .degraded && !(degraded s) then setDevState s .operational else s

/-- Every scope of a half runs the schedule (R424), whose first tick has come (R230). Log entry 71 (DEDUCED). -/
def halfRuns (s : State) (h : Nat) : Bool :=
  s.operating && (s.sched.first.any fun n => decide (n ≤ s.tickNow)) && [2 * h, 2 * h + 1, 4 + h].all fun i => (s.scope i).st == 0

/-- `MSAFE` of a half that runs again is deasserted (R424). -/
def releaseSafe (s : State) : State :=
  { s with dev := { s.dev with msafe := s.dev.msafe.zipIdx.map fun p => p.1 && !(halfRuns s p.2) } }

/-- The heartbeat of a Meridian that runs toggles, in SAFE too; not in BOOT (R424, R571). Log entry 126 (DEDUCED). -/
def heartbeat (s : State) : State :=
  let beats (h : Nat) : Bool := meridianUp s h && s.dev.st != .boot && (lget s.dev.merFault h none).isNone
  { s with dev := { s.dev with mhb := s.dev.mhb.zipIdx.map fun p => if beats p.2 then !p.1 else p.1 } }

/-- A record ring whose last sequence was used starts a new life (R553). -/
def ringLife (s : State) : State :=
  [0, 1].foldl (fun a h =>
    let g := lget a.host.rings h Ring.fresh
    if !g.full || hubDown a h then a
    else
      let unread := (g.recs.filter fun r => decide (g.first ≤ r.1)).length
      let a1 := (a.count32 0x5003 h unread).setNum 0x5000 h 0
      { a1 with host := { a1.host with rings := lset a1.host.rings h { Ring.fresh with gap := true } } }) s

/-- Broken barriers become ready again (R194). -/
def rearm (s : State) : State :=
  { s with sync := { s.sync with bars := tmap (fun _ b => { b with broken := false }) s.sync.bars } }

/-! ## Paired, split and joining (R195, R405-R407, R426) -/

/-- A step of a paired entry is withheld or waits for its replay's outcome. -/
def pairedHeld (s : State) : Bool :=
  s.sched.occs.any fun o => entPair (s.entRaw o.entry) && (o.st == .withheld || o.st == .replayOrdered || o.st == .replaying)

/-- A suspect finding has not concluded. -/
def finding (s : State) : Bool := s.safety.findings.any fun f => f.mpass.isNone || f.cpass.isNone

/-- Device barriers with participants in both halves are broken (R195). -/
def breakSpans (s : State) : State :=
  (s.sync.bars.filter fun p => 256 ≤ p.1 && p.2.live && spans p.2.parts p.2.nx (barSeat p.1)).foldl (fun a p => barBreak a p.1) s

/-- The device runs split (R405). -/
def applySplit (s : State) : State :=
  let s1 := s.setNum 0x4000 0 1
  breakSpans { s1 with safety := { s1.safety with join := .none } }

/-- A checker copy of a task placed on its site where it is not. -/
def placeChecker (s : State) (h : Nat) : State :=
  let c := checkerHome h
  let f := s.facet (s.siteOf c)
  if f.placed && f.home == h then s else if s.dieUp (dieOf c) then placeTask s (s.siteOf c) c else s

/-- A join begins (R406): the mirrors are copied, and the checker copies wait for the trial tick. -/
def applyJoin (s : State) : State :=
  let s1 := copyMirrors (s.setNum 0x4000 0 0)
  let s2 := ((s1.work.tasks.map Prod.fst).filter (pairedHome s1)).foldl placeChecker s1
  { s2 with safety := { s2.safety with join := .copying s2.now } }

/-- A change of `PX_MODE` can take effect (R405, R406). Log entry 123 (DEDUCED). -/
def modeReady (s : State) (v : Nat) : Bool := !(s.operating) || (!(pairedHeld s) && (v = 0 || !(finding s)))

/-- A change of `PX_MODE` takes effect; in CONFIG it only sets the mode that OPERATIONAL starts in. A join whose mirrors do not fit is
refused (R389). -/
def applyMode (s : State) (v : Nat) : State :=
  if !(s.operating) then (if v = 1 && s.num 0x4000 0 == 0 then breakSpans (s.setNum 0x4000 0 1) else s.setNum 0x4000 0 v)
  else if v = s.num 0x4000 0 then s
  else if v = 1 then applySplit s
  else if mirrorsOk s then applyJoin s else s

/-- The change that the Meridians themselves order (R426). -/
def deviceMode (s : State) : State :=
  match s.safety.mode with
  | none => s
  | some v =>
    if !(modeReady s v) then s
    else applyMode { s with safety := { s.safety with mode := none, hold := if v = 0 && s.num 0x4000 0 == 0 then [] else s.safety.hold } } v

/-- An abandoned join ends in split operation (R407); a trial that nothing spoiled ends the join. Main copies that waited for the trial tick
run from it (R426). -/
def stepJoin (s : State) : State :=
  match s.safety.join with
  | .abandon h n =>
    let s1 := applySplit s
    let s2 := nimWarn (s1.count32 0x4008 0 1) (dieOf h) 0x010A (toBytes 2 h ++ toBytes 8 n)
    { s2 with safety := { s2.safety with hold := [] } }
  | .trial t =>
    { s with safety := { s.safety with join := if t < s.tickNow then .none else s.safety.join, hold := if t ≤ s.tickNow then [] else s.safety.hold } }
  | _ => s

/-! ## Replays (R399) -/

/-- Replays whose suspect findings have concluded, spares in place, are ordered. -/
def orderReplays (s : State) : State :=
  let spare (h : Nat) : Bool := s.safety.spares.contains (s.siteOf h) || s.safety.spares.contains (s.siteOf (checkerHome h))
  let waits (o : Occ) : Bool := s.safety.findings.any (fun f => f.entry == o.entry && f.tick == o.tick && (f.mpass.isNone || f.cpass.isNone)) ||
    o.paired && o.tasks.any fun t => t.replay && spare t.home
  let order (o : Occ) : Occ := if o.st == .withheld && !(waits o) then { o with st := .replayOrdered, replayAt := s.now } else o
  { s with sched := { s.sched with occs := s.sched.occs.map order },
           safety := { s.safety with findings := s.safety.findings.filter fun f => f.mpass.isNone || f.cpass.isNone } }

/-! ## Rotations (R531, R532) -/

/-- A task that runs on a site has a step withheld, under suspect finding, or awaiting replay (R532). -/
def pinnedSite (s : State) (f : Nat) : Bool :=
  let homes := (homesAt s f).flatMap fun h => [h, checkerHome h]
  s.sched.occs.any (fun o => (o.st == .withheld || o.st == .replayOrdered || o.st == .replaying) && o.tasks.any fun t => t.replay && homes.contains t.home) ||
  s.safety.findings.any fun x => x.msite == f || x.csite == f

/-- The source of a rotation on a Prism: the throttled active site with the highest governing reading. -/
def hottest (s : State) (d : Nat) : Option Nat :=
  let act := ((List.range 72).map (128 * d + ·)).filter fun f =>
    !(isStandby s f) && !(homesAt s f).isEmpty && decide (throttleCap s f < dieTarget s d)
  leastBy (fun f => (100000 - reading s f).toNat) act

/-- The target of a rotation of site `f`. -/
def coolest (s : State) (d f : Nat) (fresh : List Nat) : Option Nat :=
  let held (b : Nat) : Bool := match tfind s.work.rotated b with
    | none => false
    | some t => decide (s.tickNow < t + s.num 0x4415 0)
  let ok_ (b : Nat) : Bool := isStandby s b && !(suspect s b) && !(fresh.contains b) && !(held b) && decide (reading s b < 1600) &&
    decide (reading s b + 160 ≤ reading s f)
  leastBy (fun b => (reading s b + 100000).toNat * 64 + hops f b) (((List.range 72).map (128 * d + ·)).filter ok_)

/-- At most one rotation on a Prism; `fresh` lists the sites that spares of this boundary took or left. Log entry 127 (DEDUCED). -/
def rotateDie (s : State) (d : Nat) (fresh : List Nat) : State :=
  match hottest s d with
  | none => s
  | some f =>
    if !(s.dieUp d) || pinnedSite s f || stepOn s f || fresh.contains f then s
    else match coolest s d f fresh with
      | none => s
      | some b =>
        let h := (homesAt s f).headD 0
        let s1 := (moveTask s f b).count64 0x4416 d 1
        let s2 := { s1 with work := { s1.work with rotated := tput s1.work.rotated f s1.tickNow } }
        nim s2 s2.now d 0x1FF none 0x0206 0 false (ofBytes (toBytes 1 d ++ toBytes 1 (f % 128) ++ toBytes 1 (b % 128) ++ toBytes 2 h))

/-- Spares, then rotations (R397, R531, R557). -/
def moveTasks (s : State) : State :=
  if !(s.operating) then s
  else
    let s1 := bringSpares s
    let differs (f : Nat) : Bool := s.work.standby.contains f != s1.work.standby.contains f
    let fresh := (s.work.standby ++ s1.work.standby).filter differs
    [0, 1, 2, 3].foldl (fun a d => rotateDie a d fresh) s1

/-! ## Entering OPERATIONAL (R22, R23, R149, R162, R230, R343, R363, R389, R431, R437, R578) -/

/-- The sites of a device that starts the schedule anew hold no task and run nothing. -/
def clearSites (s : State) : State :=
  let off (f : Facet) : Facet := { f with placed := false, run := .idle, step := none, cause := none, carryTags := [], testing := none, copying := false,
                                          checkerHeld := false, halted := false, finding := none, reserve := none, debugLog := [] }
  { s with work := { s.work with facets := tmap (fun _ f => off f) s.work.facets, switching := [], switchFrom := [],
                                 slice := (List.range 4).map fun d => (d, dieSlice s d (s.tickNow % s.num 0x2801 0)) } }

/-- A task as it is at entry to OPERATIONAL: placed, in coupled operation its checker too, with its initial carry set committed. -/
def enterTask (s : State) (h : Nat) : State :=
  match tfind s.work.tasks h with
  | none => s
  | some t =>
    let both := mirrored s h
    let t1 : Task := { t with initial := false }
    let s1 := { s with work := { s.work with tasks := tput s.work.tasks h t1 } }
    let place (a : State) (k : Nat) : State := if a.dieUp (dieOf k) then placeTask a (a.siteOf k) k else a
    let s2 := place s1 h
    let s3 := if both then place s2 (checkerHome h) else s2
    initialCopies s3 t1

/-- Ports that are in use train, and the counts of records sent start at zero (R314, R343). -/
def trainPorts (s : State) : State :=
  let rx (a : State) (p : Nat) : State :=
    let w := a.num 0x2000 p
    a.setNum 0x2010 p (if nbit w 0 then (if nbit w 1 then 1 else 3) else 0)
  let s1 := (List.range 16).foldl rx s
  let s2 := (List.range 64).foldl (fun a k => a.setNum 0x2110 k 0) s1
  { s2 with host := { s2.host with envSeq := [] },
            sense := { s2.sense with txPorts := (List.range 4).map fun p => (p, s2.num 0x2001 p) } }

/-- The device leaves CONFIG (R7, R230, R459). Log entry 125 (DEDUCED). -/
def enterOperational (s : State) : State :=
  let s1 := (List.range 4).foldl formPrism (clearSites s)
  let s2 := (s1.work.tasks.map Prod.fst).foldl enterTask s1
  let s3 := { s2 with sched := { s2.sched with occs := [], first := some (nextFrame s2) },
                      safety := { s2.safety with join := .none, hold := [], findings := [], spares := [], records := [] } }
  let s4 := ((List.range 4).filter fun d => !(overfull s3 d)).foldl startLap s3
  let s5 := checkBindings (trainPorts s4)
  setDevState s5 (if degraded s5 then .degraded else .operational)

/-! ## Entering CONFIG (R230) -/

/-- An occurrence that waits for a replay has failed, and one that waits for its release never runs; a running replay stops. -/
def endOcc (s : State) (o : Occ) : State :=
  let sites := (s.work.facets.filter fun p => (p.2.run == .running || p.2.run == .ended) && match p.2.step with
    | some st => st.entry == o.entry && st.tick == o.tick
    | none => false).map Prod.fst
  abandon (sites.foldl (fun a f => raiseAt a f 0x0C (a.facet f).pc 0) s) o

/-- The device enters CONFIG (R230): the schedule stops, and both `MSAFE` outputs are asserted (R424). Log entry 124 (DEDUCED). -/
def enterConfig (s : State) : State :=
  let s1 := onOccs s endOcc
  let s2 := { s1 with sched := { s1.sched with occs := s1.sched.occs.filter (fun o => o.st == .closed || o.st == .shed), first := none },
                      safety := { s1.safety with join := .none, hold := [], findings := [], spares := [], records := [], lapStart := [] },
                      work := { s1.work with switching := [], switchFrom := [] },
                      dev := { s1.dev with msafe := [true, true] } }
  setDevState s2 .config

/-! ## Countersigned writes (R404-R406, R449, R459, R502, R503, R580) -/

/-- A command that is accepted only in CONFIG has started and not completed (R580). Log entry 128 (DEDUCED). -/
def configRuns (s : State) : Bool :=
  s.cmds.slots.any fun p => p.2.st == .inflight && configOnly p.2.code && (p.2.cmd == .started || p.2.cmd == .waiting ||
    match p.2.cmd with
    | .done _ _ => true
    | _ => false)

/-- A pending write may take effect at this boundary. -/
def twoKReady (s : State) (w : TwoK) : Bool :=
  match w.index with
  | 0x1101 => !(configRuns s)
  | 0x4000 => modeReady s w.value
  | _ => true

/-- `DEV_REQUEST` takes effect (R459); a coupled start whose mirrors do not fit is refused (R389). -/
def applyRequest (s : State) (v : Nat) : State :=
  if v = 1 && s.dev.st == .config && (s.num 0x4000 0 ≠ 0 || mirrorsOk s) then enterOperational (s.setNum 0x1101 0 1)
  else if v = 2 && s.operating then enterConfig (s.setNum 0x1101 0 2)
  else s

/-- Fuses are blown until each rollback counter equals `v`, Hub W first (R502). Log entry 129 (DEDUCED). -/
def commitSvn (s : State) (v : Nat) : State :=
  let old := (s.hubBoot 0).rollback
  let s1 := [0, 1].foldl (fun a h => a.modHub h fun x => { x with rollback := Nat.max x.rollback v }) s
  nimWarn s1 7 0x0303 (toBytes 1 old ++ toBytes 1 v)

/-- The revoke fuse of a key slot is blown on both hubs (R503). -/
def revokeKey (s : State) (k : Nat) : State :=
  let s1 := [0, 1].foldl (fun a h => a.modHub h fun x => { x with revoked := if nbit x.revoked k then x.revoked else x.revoked + 2 ^ k }) s
  nimWarn (s1.setNum 0x4807 0 k) 7 0x0304 (toBytes 1 k)

/-- A pending write takes effect. -/
def applyTwoK (s : State) (w : TwoK) : State :=
  let s1 := { s with host := { s.host with twoK := s.host.twoK.filter fun y => y.id != w.id } }
  match w.index with
  | 0x1101 => applyRequest s1 w.value
  | 0x4000 => applyMode s1 w.value
  | 0x4806 => commitSvn s1 w.value
  | _ => revokeKey s1 w.value

/-- The writes that became pending before this boundary (R449). -/
def applyPending (s : State) : State :=
  (s.host.twoK.filter fun w => match w.pending with
    | some t => decide (t < s.now)
    | none => false).foldl (fun a w => if twoKReady a w then applyTwoK a w else a) s

/-! ## Fusion (R372) -/

/-- The steps of R372 for both bindings, with the occurrences that this boundary committed. -/
def fusionAll (s : State) : State :=
  [0, 1].foldl (fun a b =>
    let e := bindEntry (a.binding b)
    let done_ := sortBy id ((a.sched.occs.filter fun o => o.entry == e && o.st == .closed && o.heldAt == a.now).map Occ.tick)
    fusionBoundary a b (a.tickNow - 1) done_ (noResult a e (a.tickNow - 1))) s

/-- Occurrences that are over and that no later tick asks about go. -/
def pruneOccs (s : State) : State :=
  let ended (o : Occ) : Bool := (o.st == .closed || o.st == .failed || o.st == .shed) && decide (o.tick + 1 < s.tickNow)
  { s with sched := { s.sched with occs := s.sched.occs.filter fun o => !(ended o) } }

/-! ## The boundary -/

/-- Step 5 of R38. Log entry 118 (DESIGN CHOICE). -/
def openTick (s : State) : State :=
  let s1 := fusionAll s
  let s2 := rejoin (rearm s1)
  let s3 := orderReplays (moveTasks (if s2.operating then saveSlices s2 else s2))
  let s4 := applyPending (deviceMode (stepJoin s3))
  let s5 := if s4.operating then startSwitches s4 else s4
  let s6 := if s5.tickNow % s5.num 0x2801 0 = 0 then applyEnables s5 else s5
  let s7 := ringLife (heartbeat (releaseSafe (recoverState (pruneOccs s6))))
  { s7 with sched := { s7.sched with tick := s7.tickNow } }

/-- `TICK_BOUNDARY` (R38): no effect but at the close of a tick window, and once. -/
def tickBoundary (s : State) : State :=
  if s.dev.st = .off || !(s.atBoundary) || s.tickNow ≤ s.sched.tick then s else openTick (afterClose s)

/-- `TICK_BOUNDARY` (R38). Log entry 5 (DESIGN CHOICE). -/
def execTickBoundary (s : State) : Res := ok (tickBoundary s)

end Sys2Proof.Machine
end

