-- ==== Sys2Proof/Machine/Flits.lean ====
section
/-! DEFINITION. Flits as they arrive (R324-R329): what a sender sends, receive buffers and credits, and the slots, each of which has the effect of
the command of its operation or kind (R325, R326); two-hop routes (R27, R328), and what the firewall makes of the guest's slots (R336, R341). -/

namespace Sys2Proof.Machine

/-! ## What a slot carries -/

/-- The seat of a slot's originating die. -/
def slotSeat (v : Nat) : Nat := nbits v 64 3

/-- The payload of a line slot. -/
def slotLine (v : Nat) : List Byte := toBytes 64 (nbits v 128 512)

/-- The check of a line, and that of a poisoned one, which is inverted (R313, R325). -/
def tileCheck (v : Nat) (poison : Bool) : Nat := if poison then 0xFFFFFFFF - crc32c (slotLine v) else crc32c (slotLine v)

/-- A line slot's tile check holds (R313). -/
def slotTileOk (v : Nat) : Bool := nbits v 96 32 == tileCheck v false || nbits v 96 32 == tileCheck v true

/-- A line slot carries a poisoned line (R325). -/
def slotPoison (v : Nat) : Bool := nbits v 96 32 == tileCheck v true

/-- The units of one slot of a flit: a line, or the short transactions that it names. -/
def slotUnits (kind v : Nat) : List LinkUnit :=
  let u : LinkUnit := { vc := nbits v 72 2, seat := slotSeat v, line := kind != 2, bits := v, bad := kind == 3, last := true }
  if kind = 0 then []
  else if kind = 2 then
    match (slotShorts v).filter fun t => nbits t 252 4 != 0 || shortReserved t with
    | [a] => [{ u with bits := a, bad := shortHead v }]
    | [a, b] => [{ u with bits := a, bad := shortHead v, last := false }, { u with bits := b, bad := shortHead v }]
    | _ => [{ u with bits := 0, bad := shortHead v }]
  else [u]

/-- The units of a flit, in the order of its slots. -/
def flitUnits (b : List Byte) : List LinkUnit := (List.range 3).flatMap fun i => slotUnits (slotKind b i) (flitSlot b i)

/-- The sector and generation that a unit carries. -/
def unitSector (u : LinkUnit) : Nat := if u.line then nbits u.bits 74 6 else nbits u.bits 246 6

/-- See `unitSector`. -/
def unitGen (u : LinkUnit) : Nat := if u.line then nbits u.bits 80 16 else nbits u.bits 230 16

/-- The operation of a line slot, or the kind of a short transaction. -/
def unitOp (u : LinkUnit) : Nat := if u.line then nbits u.bits 68 4 else nbits u.bits 252 4

/-- The tag that a unit carries. -/
def unitTag (u : LinkUnit) : Nat := if u.line then nbits u.bits 48 16 else nbits u.bits 176 16

/-- A unit is a request for the line of a device request, which a die of the device issued: the sequence of its tag, its sector and generation agree,
and a write carries its data. -/
def isRequest (u : LinkUnit) (r : LineReq) : Bool :=
  let line := if u.line then nbits u.bits 0 30 else nbits u.bits 0 30
  r.write == u.line && !r.accepted && r.tag % 65536 == unitTag u && r.die == u.seat && r.sector == unitSector u && r.gen == unitGen u && r.off / 64 == line &&
  (!u.line || !(slotTileOk u.bits) || (r.data == slotLine u.bits && r.poison == slotPoison u.bits))

/-- A unit is a response to a device request: it carries its tag from the stack's die. -/
def isResponse (u : LinkUnit) (r : LineReq) : Bool := r.accepted && r.tag % 65536 == unitTag u && stackOf r.off == u.seat

/-- The device request that a unit belongs to. -/
def unitReq (s : State) (u : LinkUnit) (rsp : Bool) : Option LineReq := s.mem.reqs.find? (if rsp then isResponse u else isRequest u)

/-- The Vertex operation that a unit carries, or whose response it is (R326). -/
def unitVop (s : State) (u : LinkUnit) (rsp : Bool) : Option Vop :=
  s.sync.vops.find? fun v => v.rsp.isSome == rsp && v.tag % 65536 == unitTag u &&
    (if rsp then v.unit == u.seat && v.rsp == some (nbits u.bits 160 16, nbits u.bits 0 32)
     else dieOf v.site == u.seat && v.op == nbits u.bits 168 8 && v.key == nbits u.bits 156 12 && v.sector == unitSector u && v.gen == unitGen u &&
       (if v.op = 4 then v.watch.toNat == nbits u.bits 0 128 else v.ref == nbits u.bits 32 32 && v.value == nbits u.bits 0 32))

/-- The message that a slot carries (R68, R325). -/
def unitMsg (s : State) (u : LinkUnit) : Option Msg :=
  s.sync.msgs.find? fun m => m.away && m.seat == u.seat && m.sector == unitSector u && m.gen == unitGen u && (!(slotTileOk u.bits) || msgBytes m == slotLine u.bits)

/-- The seat that a unit is for: none where it belongs to nothing that the device has under way. -/
def unitDest (s : State) (u : LinkUnit) (end_ : Nat) : Option Nat :=
  if u.line then
    match unitOp u with
    | 1 => (unitReq s u false).map fun r => stackOf r.off
    | 2 => (unitReq s u true).map LineReq.die
    | 3 => (unitMsg s u).map fun m => dieOf (s.siteOf m.dest)
    | _ => some end_
  else
    match unitOp u with
    | 1 => (unitReq s u false).map fun r => stackOf r.off
    | 2 => some end_
    | 3 => (unitVop s u false).map Vop.unit
    | 4 => (unitVop s u true).map fun v => dieOf v.site
    | 5 => (unitReq s u true).map LineReq.die
    | 6 => (unitReq s u true).map LineReq.die
    | _ => none

/-! ## Delivery (R325, R326, R328) -/

/-- A safety record delivered (R391, R418): a signature record to the unit of a Prism, a fault record to a Meridian, directly or from the other one. -/
def takeSafe (s : State) (end_ : Nat) (u : LinkUnit) : State :=
  let r := BitVec.ofNat 512 (nbits u.bits 128 512)
  match nbits u.bits 0 8 with
  | 1 => if end_ < 4 then takeRecord (if fld r 384 64 < s.now then s else afterClose s) end_ r else s
  | 0x10 => if 4 ≤ end_ && directRoute s (end_ - 4) r then takeFault s (end_ - 4) r else s
  | 0x11 => if 4 ≤ end_ && hasTaken s (5 - end_) r then takeFault s (end_ - 4) r else s
  | _ => s

/-- A line slot delivered at a die of the device. -/
def deliverLine (s : State) (end_ : Nat) (u : LinkUnit) : State :=
  match unitOp u with
  | 1 => match unitReq s u false with
    | some r => wrIssued s r.tag (slotTileOk u.bits)
    | none => s
  | 2 => match unitReq s u true with
    | some r => rretIssued s r.tag (slotTileOk u.bits)
    | none => s
  | 3 => match unitMsg s u with
    | some m => msgArrive s m.id
    | none => s
  | 4 => fwdArrive s (nbits u.bits 0 32)
  | _ => takeSafe s end_ u

/-- A short transaction delivered at a die of the device; what the code finds in a line that is read is a free value. -/
def deliverShort (s : State) (u : LinkUnit) : State :=
  match unitOp u with
  | 1 => match unitReq s u false with
    | some r => rdIssued (s.takeFree 1) r.tag ((Config.flitFinds s.free).getD .clean)
    | none => s
  | 2 => maskArrive s (.inner { sseat := u.seat, sector := unitSector u, gen := unitGen u }) (nbits u.bits 0 64)
  | 3 => match unitVop s u false with
    | some v => vopArrive s v.tag
    | none => s
  | 4 => match unitVop s u true with
    | some v => vrspArrive s v.tag
    | none => s
  | 5 => match unitReq s u true with
    | some r => wackIssued s r.tag
    | none => s
  | 6 => match unitReq s u true with
    | some r => rderrIssued s r.tag
    | none => s
  | _ => s

/-- The check of R336 that something which is never admitted fails first. -/
def guestFails (u : LinkUnit) : Nat := if u.seat ≠ 6 || unitSector u ≠ 0 || unitGen u ≠ 0 then 1 else 2

/-- A unit of the guest that carries a reserved code or bit, or an operation that is never admitted (R338): rejected, a read answered with `RDERR`, a
write with `WACK`, and a mask goes with its write (R341). -/
def rejectUnit (s : State) (u : LinkUnit) : State :=
  let s1 := fwReject s (guestFails u)
  if u.line then
    (if unitOp u = 1 then toGuest (takeMask (takeMask s1 (guestMask u.seat true)).2 (guestMask u.seat false)).2 (.guestAck (unitTag u)) else s1)
  else if unitOp u = 1 then toGuest s1 (.guestErr (unitTag u) 2)
  else if unitOp u = 2 then keepMask s1 (guestMask u.seat true) (nbits u.bits 0 64)
  else s1

/-- The request of a unit of the guest, as carried. -/
def guestReq (u : LinkUnit) : GuestLine :=
  { sseat := u.seat, sector := unitSector u, gen := unitGen u, tag := unitTag u, line := nbits u.bits 0 30, data := if u.line then slotLine u.bits else [],
    poison := u.line && slotPoison u.bits }

/-- A unit of the guest passes the firewall or is rejected (R336, R338, R341). -/
def guestUnit (s : State) (u : LinkUnit) : State :=
  let h : ShortHdr := { sseat := u.seat, sector := unitSector u, gen := unitGen u }
  if u.line then
    (if u.bad || lineReserved u.bits || 3 ≤ unitOp u then rejectUnit s u
     else if unitOp u = 1 then guestWrite s (guestReq u) (slotTileOk u.bits)
     else guestResponse s h)
  else if u.bad || shortReserved u.bits then rejectUnit s u
  else match unitOp u with
    | 0 => s
    | 1 => rdArrive (s.takeFree 1) (.guest (guestReq u)) ((Config.flitFinds s.free).getD .clean)
    | 2 => maskArrive s (.guest h) (nbits u.bits 0 64)
    | 5 => guestResponse s h
    | 6 => guestResponse s h
    | 7 => evtArrive s h (nbits u.bits 0 6)
    | _ => rejectUnit s u

/-- The link and direction by which a Prism forwards a unit for another seat (R27, R328). -/
def onward (end_ dest : Nat) : Option (Nat × Nat) :=
  match route end_ dest with
  | [l] => some (l, if (linkEnds l).1 = end_ then 0 else 1)
  | _ => none

/-- A unit can leave its receive buffer (R327): a response always; a request once its controller or its unit takes it; and the guest's requests while
the firewall's ingress buffer has room (R339). -/
def canDeliver (s : State) (guest : Bool) (u : LinkUnit) : Bool :=
  if u.vc ≠ 0 then true
  else if guest then decide (s.chord.fw.waiting.length < 64)
  else if unitOp u = 1 then match unitReq s u false with
    | some r => !(current s r) || acceptable s r r.write
    | none => true
  else if !u.line && unitOp u = 3 then match unitVop s u false with
    | some v => v.gen != (s.sec v.sector).gen || (!(vopBehind s v) && unitTakes s v.unit v.home)
    | none => true
  else true

/-- A unit delivered at its die. -/
def deliverUnit (s : State) (l d : Nat) (u : LinkUnit) : State :=
  if l = 13 then (if d = 1 then guestUnit s u else s)
  else if u.line then deliverLine s (dirEnd l d) u
  else deliverShort s u

/-- A unit goes no further than the die that has received it; one that belongs to nothing under way ends there. -/
def endsHere (s : State) (l d : Nat) (u : LinkUnit) : Bool :=
  l == 13 || match unitDest s u (dirEnd l d) with
    | some n => n == dirEnd l d
    | none => true

/-- A unit leaves its buffer, whose slot is free again after the last of it (R327). -/
def unbuffer (s : State) (l d : Nat) (u : LinkUnit) : State :=
  s.modDir l d fun x => { x with buffer := x.buffer.erase u, freed := if u.last then lmod x.freed u.vc (· + 1) else x.freed }

/-- The first unit of a channel that ends here is delivered, where it can be. -/
def drainHead (s : State) (l d vc : Nat) : State :=
  match (s.dir l d).buffer.find? fun u => u.vc == vc && endsHere s l d u with
  | none => s
  | some u => if canDeliver s (l == 13 && d == 1) u then deliverUnit (unbuffer s l d u) l d u else s

/-- The receive buffers of a direction drained, the safety channel first, each channel in order (R327, R328). -/
def drainDir (s : State) (l d : Nat) : State :=
  let n := (s.dir l d).buffer.length
  [3, 1, 0, 2].foldl (fun a vc => (List.range n).foldl (fun b _ => drainHead b l d vc) a) s

/-- Every receive buffer that holds something drained. -/
def drainLinks (s : State) : State :=
  ((s.chord.dirs.filter fun p => !p.2.buffer.isEmpty).map Prod.fst).foldl (fun a k => drainDir a (k / 2) (k % 2)) s

/-! ## What a sender sends (R327-R329) -/

/-- The credits that a flit returns on each channel (R324, R327). -/
def creditsOf (h : Nat) : List Nat := (List.range 4).map fun v => nbits h (16 + 4 * v) 4

/-- The acknowledgement and the credits of a flit are what its sender has to give (R324, R327, R329): it acknowledges a flit that it has received in
order, returns only credits of slots that have drained, and sends a `nak` when it owes one, and within 40 ns. The guest is not held to this. -/
def backOk (s : State) (l d : Nat) (b : List Byte) : Bool :=
  let h := flitHead b
  let o := s.dir l (1 - d)
  let since := match o.nak with
    | some t => decide (s.now ≤ t + 40)
    | none => false
  (l == 13 && d == 1) ||
  (decide ((o.expect + 4095 + 4096 - nbits h 52 12) % 4096 < 256 * linkModules l + 1) &&
   (List.range 4).all (fun v => decide (lget (creditsOf h) v 0 ≤ lget o.freed v 0)) &&
   (if nbit h 51 then o.sendNak else !o.sendNak || since))

/-- Of the slots of a flit, those of the safety channel come first (R327). -/
def safetyFirst (b : List Byte) : Bool :=
  let vcs := ((List.range 3).filter fun i => slotKind b i != 0).map fun i => nbits (flitSlot b i) 72 2
  vcs == vcs.filter (· == 3) ++ vcs.filter (· != 3)

/-- The cross-half link into a Prism, with its direction. -/
def crossIn (n : Nat) : Nat × Nat := (2 + n % 2, if n < 2 then 1 else 0)

/-- What a Prism has received on its cross-half link and is to forward on an in-half link, in arrival order (R27, R328). -/
def toForward (s : State) (l d : Nat) : List LinkUnit :=
  let e := dirStart l d
  if 2 ≤ l then []
  else (s.dir (crossIn e).1 (crossIn e).2).buffer.filter fun u => match unitDest s u e with
    | some n => n != e && onward e n == some (l, d)
    | none => false

/-- The same unit, whatever slot carries it. -/
def sameUnit (a b : LinkUnit) : Bool := a.vc == b.vc && a.seat == b.seat && a.line == b.line && a.bits == b.bits

/-- What a flit forwards it forwards in arrival order, channel by channel (R328). -/
def forwardOk (s : State) (l d : Nat) (b : List Byte) : Bool :=
  (List.range 4).all fun vc =>
    let q := (toForward s l d).filter fun u => u.vc == vc
    (((flitUnits b).filter fun u => u.vc == vc && q.any (sameUnit u)).zip q).all fun p => sameUnit p.1 p.2

/-- What a flit forwards leaves the buffer in which it waited. -/
def forwarded (s : State) (l d : Nat) (b : List Byte) : State :=
  let i := crossIn (dirStart l d)
  ((toForward s l d).filter fun u => (flitUnits b).any (sameUnit u)).foldl (fun a u => unbuffer a i.1 i.2 u) s

/-- A flit is one that its sender sends (R327-R329): idle; new, with credits for its slots, below the limit of flits of its module that are not
acknowledged, the safety channel first and what it forwards in order; or one that the sender keeps, as it keeps it. -/
def sendable (s : State) (l d : Nat) (b : List Byte) (good : Bool) : Bool :=
  let x := s.dir l d
  let q := nbits (flitHead b) 36 12
  !good ||
  (backOk s l d b &&
    (flitIdle b ||
      (if q = x.next then decide ((x.unacked.filter fun p => flitModule l p.1 == flitModule l q).length < 256) && hasCredits x.credits b && safetyFirst b && forwardOk s l d b
       else match x.unacked.find? fun p => p.1 == q with
         | some (_, k) => k.isEmpty || k == flitKept b
         | none => true)))

/-! ## Arrival (R329) -/

/-- What a flit takes back from the sender of the other direction: the flits that it acknowledges, and credits; a `nak` makes that sender resend
every flit after them, and is a retry (R329). -/
def takeAck (s : State) (l d : Nat) (h : Nat) : State :=
  let o := s.dir l (1 - d)
  let left := match lfind (fun p => p.1 == nbits h 52 12) o.unacked with
    | none => o.unacked
    | some i => o.unacked.drop (i + 1)
  let seqs := left.map Prod.fst
  let back := creditsOf h
  let cred := (List.range 4).map fun v => Nat.min (lget fullCredits v 0) (lget o.credits v 0 + lget back v 0)
  let s1 := s.modDir l (1 - d) fun x =>
    { x with unacked := left, credits := cred, freed := (List.range 4).map fun v => lget x.freed v 0 - lget back v 0,
             ackAt := if left.length < o.unacked.length then s.now else x.ackAt,
             replay := if nbit h 51 then seqs else x.replay.filter seqs.contains, sendNak := x.sendNak && !(nbit h 51) }
  if nbit h 51 then retry s1 l else s1

/-- A flit that is the expected one, or an idle one that repeats the last, is taken (R329): its slots enter the receive buffers and are delivered in
order. A reserved bit of the guest's header is one rejection (R338). -/
def flitTaken (s : State) (l d : Nat) (b : List Byte) : State :=
  let h := flitHead b
  let s1 := s.modDir l d fun y =>
    if flitIdle b then { y with fresh := false }
    else { y with expect := (nbits h 36 12 + 1) % 4096, nak := none, fresh := false, fails := 0, sendNak := false, buffer := y.buffer ++ flitUnits b }
  let s2 := takeAck s1 l d h
  drainDir (if l = 13 && d = 1 && headReserved h then fwReject s2 2 else s2) l d

/-- The sender's side of a flit: it is kept, and what a new one forwards has left (R328, R329). -/
def sendFlit (s : State) (l d : Nat) (b : List Byte) (good : Bool) : State :=
  let s1 := if good && !(flitIdle b) && nbits (flitHead b) 36 12 = (s.dir l d).next then forwarded s l d b else s
  s1.modDir l d fun y => sent y s.now b good

/-- `FLIT_RECEIVE` (R324, R329): no effect on a link that is down, or for a flit that its sender does not send.
Log entries 44 (DESIGN CHOICE), 45 (DEDUCED). -/
def flitReceive (s : State) (l d : Nat) (b : List Byte) : State :=
  let x := s.dir l d
  let q := nbits (flitHead b) 36 12
  let good := crc64 (b.take 248) == leAt b 248 8
  if !(linkUp s l) || b.length ≠ 256 || !(sendable s l d b good) then s
  else
    let s1 := sendFlit s l d b good
    if !good then refuse s1 l d true
    else if flitReserved b && !(l = 13 && d = 1) then linkDown s l
    else if q = (if flitIdle b then (x.expect + 4095) % 4096 else x.expect) then flitTaken s1 l d b
    else refuse s1 l d false

/-- `FLIT_RECEIVE` (R329). -/
def execFlitReceive (l : Fin 14) (d : Fin 2) (b : List Byte) (s : State) : Res := ok (flitReceive s l.val d.val b)

end Sys2Proof.Machine
end

