-- ==== Sys2Proof/Machine/Lattice.lean ====
section
/-! DEFINITION. The Lattice instructions and the descriptor loads (R58-R61, R83-R96, R107-R109). -/

namespace Sys2Proof.Machine

/-! ## Descriptor registers -/

/-- Descriptor register `r` written. -/
def setDesc (f : Facet) (r : Nat) (v : BitVec 256) : Facet := { f with d := lset f.d r (some v) }

/-- `lx.dld`: the record is read, consumed and checked (R53, R58, R306). Log entry 20 (DEDUCED). -/
def dldEng (rd rs1 : Nat) (f : Facet) : Eng :=
  let a := (getX f rs1).toNat
  if !(lsAligned a 32) then .cause 0x02 a
  else if lsBadIn f a 32 then .cause 0x09 a
  else
    let r := BitVec.ofNat 256 (ofBytes (lsRead f a 32))
    if descOk r then .good (setDesc f rd r) else .cause 0x03 a

/-- `LX_DLD` (R58). -/
def execLxDld (site : Nat) (rd rs1 : BitVec 5) (s : State) : Res :=
  ok (runEngine s site (dReg rd) [rs1.toNat] (fun f => [((getX f rs1.toNat).toNat, 32)]) (dldEng rd.toNat rs1.toNat))

/-- `lx.dst`: the register is stored (R58); the store keeps off the protected regions (R42). -/
def dstEng (rs1 rs2 : Nat) (f : Facet) : Eng :=
  let a := (getX f rs1).toNat
  match lget f.d rs2 none with
  | none => .cause 0x03 a
  | some r =>
    if !(lsAligned a 32) then .cause 0x02 a
    else if inProtected f a 32 then .cause 0x07 a
    else .good (lsWrite f a (toBytes 32 r.toNat))

/-- `LX_DST` (R58). -/
def execLxDst (site : Nat) (rs1 rs2 : BitVec 5) (s : State) : Res :=
  ok (runEngine s site (dReg rs2) [rs1.toNat] (fun f => [((getX f rs1.toNat).toNat, 32)]) (dstEng rs1.toNat rs2.toNat))

/-- `lx.dbase`: the base moves by a signed amount and the descriptor is checked again (R53, R58). -/
def dbaseEng (rd rs1 : Nat) (f : Facet) : Eng :=
  match lget f.d rd none with
  | none => .cause 0x03 (getX f rs1).toNat
  | some r =>
    let b : Int := (fld r 0 22 : Nat) + (getX f rs1).toInt
    let r' := BitVec.ofNat 256 (r.toNat - fld r 0 22 + b.toNat)
    if b < 0 || (2 ^ 22 : Int) ≤ b || !(descOk r') then .cause 0x03 (getX f rs1).toNat else .good (setDesc f rd r')

/-- `LX_DBASE` (R58). -/
def execLxDbase (site : Nat) (rd rs1 : BitVec 5) (s : State) : Res :=
  ok (runEngine s site (dReg rd) [rs1.toNat] (fun _ => []) (dbaseEng rd.toNat rs1.toNat))

/-! ## The outlier map (R90-R92) -/

/-- The marked channels of the map line of an outlier reference, with the addresses of its side tensors; none when the map
breaks R90 or a side footprint leaves local store (R92). -/
def outlierMap (f : Facet) (oref k asideBytes : Nat) : Option (List Nat × Nat × Nat) :=
  let m := ofBytes (lsRead f (64 * oref) 64)
  let cnt := nbits m 64 4
  let slots := (List.range 8).map fun i => nbits m (8 * i) 8
  let ch := slots.take cnt
  let rising := (List.range (cnt - 1)).all fun i => decide (lget ch i 0 < lget ch (i + 1) 0)
  let aside := 64 * nbits m 80 16
  let wside := 64 * nbits m 96 16
  if nbits m 112 400 != 0 || nbits m 68 12 != 0 || 8 < cnt || !(ch.all fun c => decide (c < k)) || !rising ||
     (slots.drop cnt).any (· != 0) || 0x300000 < aside + asideBytes || 0x300000 < wside + 1024 then none
  else some (ch, aside, wside)

/-! ## Weight tiles (R58, R60, R61) -/

/-- A tensor is a weight tile that the cells take (R54, R58, R60, R84); its scales are looked at by the product (R89). Log entry 21 (DEDUCED). -/
def wldFits (t : Tensor) : Bool :=
  t.fmt != 4 && decide (t.fmt < 0xB) && refsOk t && decide (t.ext 1 ≤ 64) && decide (t.ext 0 ≤ if t.bits = 4 then 128 else 64) &&
  t.ext 2 == 1 && t.ext 3 == 1

/-- The outlier channels of a tile with the address of its outlier rows; none where its map breaks R90 or R92. The extents of the input
are not known yet, so its side tensor is taken as empty. Log entry 142 (DESIGN CHOICE). -/
def wldMap (f : Facet) (t : Tensor) : Option (List Nat × Nat × Nat) := if t.outlier then outlierMap f t.oref (t.ext 0) 0 else some ([], 0, 0)

/-- What a tile is loaded from: its elements, its map line and its outlier rows. -/
def wldReads (t : Tensor) (ch : List Nat) (wside : Nat) : List (Nat × Nat) :=
  { t with sref := 0xFFFF }.reads ++ if t.outlier then [(64 * t.oref, 64), (wside, 128 * ch.length)] else []

/-- What a tile is loaded from holds poison (R74). -/
def wldBad (f : Facet) (t : Tensor) (ch : List Nat) (wside : Nat) : Bool := !f.lsPoison.isEmpty && readsBad f (wldReads t ch wside)

/-- The lines that an outlier reference names: its map, and the side tile of the weights or the side tensor of an input (R90, R91). -/
def outlierFeet (f : Facet) (t : Tensor) (weights : Bool) : List (Nat × Nat) :=
  if t.outlier then
    let m := ofBytes (lsRead f (64 * t.oref) 64)
    [(64 * t.oref, 64), if weights then (64 * nbits m 96 16, 1024) else (64 * nbits m 80 16, 16 * t.ext 1 * t.ext 2)]
  else []

/-- The footprints of `lx.wld` (R46): the tile's elements, its map and its outlier rows. -/
def wldFeet (f : Facet) (r : Nat) : List (Nat × Nat) :=
  match descAt f r with
  | none => []
  | some t => t.foot :: outlierFeet f t true

/-- The tile in the cells after a load (R60, R92). -/
def loadedTile (f : Facet) (t : Tensor) (ch : List Nat) (wside : Nat) : Tile :=
  let w := t.indices.foldl (fun w i => tset w (64 * lget i 0 0 + lget i 1 0) (elemCode f t i) 0) []
  let ow := (List.range ch.length).foldl (fun w sl => (List.range 64).foldl (fun w c =>
    tset w (64 * sl + c) (ofBytes (lsRead f (wside + 128 * sl + 2 * c) 2)) 0) w) []
  { fmt := t.fmt, k := t.ext 0, n := t.ext 1, w := w, sref := t.sref, sblk := t.sblk, sfmt := t.sfmt, oref := t.oref, chans := ch, ow := ow }

/-- `lx.wld`: a K × N tile with its references goes into the idle half, which the next product uses (R58, R60). -/
def wldEng (rs1 : Nat) (f : Facet) : Eng :=
  match descAt f rs1 with
  | none => .cause 0x03 0
  | some t =>
    if !(wldFits t) then .cause 0x04 0
    else match wldMap f t with
      | none => .cause 0x04 0
      | some (ch, _, wside) =>
        if wldBad f t ch wside then .cause 0x09 (poisonAt f (wldReads t ch wside) t.base)
        else .good { f with idleTile := f.tile, tile := loadedTile f t ch wside }

/-- `LX_WLD` (R58). -/
def execLxWld (site : Nat) (rs1 : BitVec 5) (s : State) : Res :=
  ok (runEngine s site (dReg rs1) [] (fun f => wldFeet f rs1.toNat) (wldEng rs1.toNat))

/-- The weight of row k, column n of a tile; zero outside it and in a marked channel (R86, R92). -/
def tileNum (t : Tile) (k n : Nat) : Num :=
  if t.k ≤ k || t.n ≤ n || t.chans.contains k then Num.zero else decodeNum t.fmt (tget t.w (64 * k + n) 0)

/-- The weight scale of block b, column n (R88). -/
def tileScale (f : Facet) (t : Tile) (b n : Nat) : Num :=
  if t.sref = 0xFFFF then Num.one
  else decodeNum (scaleFmt t.sfmt) (ofBytes (lsRead f (64 * t.sref + (n * ceilDiv t.k (blockOf t.sblk) + b) * scaleSize t.sfmt) (scaleSize t.sfmt)))

/-! ## The accumulator control word (R58) -/

/-- First row, width, height and `acc` of a control word. -/
structure Ctl where
  row : Nat
  acc : Bool
  ow  : Nat
  oh  : Nat
  deriving DecidableEq, Repr

/-- The fields of a control word (R58). -/
def ctlOf (v : Word) : Ctl := { row := fld v 0 11, acc := v.getLsbD 11, ow := fld v 12 10 + 1, oh := fld v 22 10 + 1 }

/-- The covered rows M. -/
def Ctl.m (c : Ctl) : Nat := c.ow * c.oh

/-- The output positions of a control word with their rows, in row order. -/
def Ctl.places (c : Ctl) : List (Nat × Nat × Nat) :=
  (List.range c.oh).flatMap fun oy => (List.range c.ow).map fun ox => (c.row + oy * c.ow + ox, ox, oy)

/-- The poisoned words among the covered accumulator words. -/
def accBadWords (f : Facet) (c : Ctl) : List Nat :=
  (f.accPoison.map Prod.fst).filter fun k => decide (64 * c.row ≤ k) && decide (k < 64 * (c.row + c.m))

/-- A covered accumulator word holds poison. -/
def accBad (f : Facet) (c : Ctl) : Bool := !(accBadWords f c).isEmpty

/-- The row of the first poisoned covered word. -/
def accBadRow (f : Facet) (c : Ctl) : Nat := ((accBadWords f c).headD (64 * c.row)) / 64

/-- An INT32 word written over or added into an accumulator word, saturating (R85). -/
def accInt (f : Facet) (k : Nat) (acc : Bool) (p : Int) : Facet :=
  let r := sat32 (if acc then (accWord f k).toInt + p else p)
  countStat (accPut f k (BitVec.ofInt 32 r.1)) (b2n r.2) 0

/-- An FP32 word written over or added into an accumulator word (R86). -/
def accFloat (f : Facet) (k : Nat) (acc : Bool) (t : Num) : Facet :=
  let w := encNum 0xA (if acc then (fp32 (accWord f k)).add t else t)
  countStat (accPut f k (BitVec.ofNat 32 w.code)) 0 (b2n w.nan)

/-! ## `lx.mm` (R59, R83-R94) -/

/-- The permitted pairs of R83, input against weight. -/
def pairOk (a w : Nat) : Bool :=
  match a with
  | 0x0 => w == 0
  | 0x1 => w == 1 || w == 0
  | 0x2 => w == 1 || w == 0
  | 0x3 => w == 3 || w == 1
  | 0x5 => w == 5
  | 0x6 => w == 6 || w == 7 || w == 5
  | 0x7 => w == 6 || w == 7
  | 0x8 => w == 8
  | 0x9 => w == 9 || w == 6 || w == 1 || w == 0
  | 0xA => w == 0xA
  | _ => false

/-- One column of a product at an unclipped position in float mode (R86, R87); a column past the tile is zero and reads no scale (R59). The
marked channels are those of the load, whether or not the input carries the reference. Log entry 142 (DESIGN CHOICE). -/
def floatColumn (f : Facet) (t : Tensor) (tl : Tile) (x y n : Nat) : Num :=
  if tl.n ≤ n then Num.zero else
  let k := t.ext 0
  let b := if t.scaled then blockOf t.sblk else if tl.sref ≠ 0xFFFF then blockOf tl.sblk else k
  let chained := 8 ≤ t.fmt
  (List.range (ceilDiv k b)).foldl (fun tot blk =>
    let ps := (List.range (Nat.min ((blk + 1) * b) k - blk * b)).map fun j =>
      let c := blk * b + j
      (if tl.chans.contains c then Num.zero else elemNum f t [c, x, y, 0]).mul (tileNum tl c n)
    let sg := if chained then ps.foldl (fun a p => rne32 (a.add p)) Num.zero else Num.sum ps
    let sa := if t.scaled then scaleVal f t (t.scaleIdx blk x y 0) else Num.one
    rne32 (tot.add (rne32 ((sg.mul sa).mul (tileScale f tl blk n))))) Num.zero

/-- One column of a product at an unclipped position in integer mode (R85). -/
def intColumn (f : Facet) (t : Tensor) (tl : Tile) (x y n : Nat) : Int :=
  (List.range (t.ext 0)).foldl (fun a c =>
    if tl.chans.contains c then a else a + Num.at ((elemNum f t [c, x, y, 0]).mul (tileNum tl c n)) 0) 0

/-- The outlier strip's sum for a position and column (R93). -/
def stripSum (f : Facet) (t : Tensor) (tl : Tile) (aside : Nat) (inside : Bool) (x y n : Nat) : Num :=
  (List.range tl.chans.length).foldl (fun o sl =>
    let a := if inside then decodeNum 9 (ofBytes (lsRead f (aside + 16 * (y * t.ext 1 + x) + 2 * sl) 2)) else Num.zero
    rne32 (o.add (a.mul (decodeNum 9 (tget tl.ow (64 * sl + n) 0))))) Num.zero

/-- The input position that an output position reads for a tap (R59); none when it is clipped. -/
def tapPos (t : Tensor) (tap : Word) (ox oy : Nat) : Option (Nat × Nat) :=
  let x : Int := (ox : Int) * (fld tap 16 4 + 1 : Nat) + sgn 8 (fld tap 0 8)
  let y : Int := (oy : Int) * (fld tap 20 4 + 1 : Nat) + sgn 8 (fld tap 8 8)
  if 0 ≤ x && x < (t.ext 1 : Int) && 0 ≤ y && y < (t.ext 2 : Int) then some (x.toNat, y.toNat) else none

/-- The outlier strip of an input tensor: its channels and the address of its activations; none where its map breaks R90 or R92. -/
def mmStrip (f : Facet) (t : Tensor) : Option (List Nat × Nat × Nat) :=
  if t.outlier then outlierMap f t.oref (t.ext 0) (16 * t.ext 1 * t.ext 2) else some ([], 0, 0)

/-- The bytes of a tile's scales (R88). -/
def tileScaleBytes (tl : Tile) : Nat := tl.n * ceilDiv tl.k (blockOf tl.sblk) * scaleSize tl.sfmt

/-- An input tensor and the tile in the cells go together in `lx.mm` (R54, R59, R83, R84, R88, R89, R92). -/
def mmFits (f : Facet) (t : Tensor) (tl : Tile) : Bool :=
  pairOk t.fmt tl.fmt && refsOk t && t.ext 3 == 1 && t.ext 0 == tl.k && decide (t.ext 0 ≤ if t.bits = 4 then 128 else 64) &&
  !(t.scaled && tl.sref != 0xFFFF && (t.sblk != tl.sblk || t.sfmt != tl.sfmt)) && t.scaleFits &&
  (tl.sref == 0xFFFF || decide (64 * tl.sref + tileScaleBytes tl ≤ 0x300000)) &&
  !(t.outlier && (tl.oref != t.oref || decide (64 < t.ext 0))) && (mmStrip f t).isSome

/-- The product runs in integer mode (R84, R85). -/
def mmInt (t : Tensor) (tl : Tile) : Bool := isInt t.fmt && isInt tl.fmt && !t.scaled && tl.sref == 0xFFFF

/-- Where the strip's activations lie. -/
def mmAside (f : Facet) (t : Tensor) : Nat := match mmStrip f t with
  | some (_, a, _) => a
  | none => 0

/-- What a product reads (R59, R86, R93): the map line, then at each position the inputs, their scales and their outlier activations, and the
scales of the tile. -/
def mmReads (f : Facet) (t : Tensor) (tl : Tile) (tap : Word) (c : Ctl) : List (Nat × Nat) :=
  (if t.outlier then [(64 * t.oref, 64)] else []) ++
  ((c.places.filterMap fun p => tapPos t tap p.2.1 p.2.2).flatMap fun p =>
    ((List.range (t.ext 0)).map fun ch => t.elemRange [ch, p.1, p.2, 0]) ++
    (if t.scaled then (List.range t.blocks).map fun b => t.scaleRange (t.scaleIdx b p.1 p.2 0) else []) ++
    (if t.outlier then [(mmAside f t + 16 * (p.2 * t.ext 1 + p.1), 16)] else [])) ++
  if tl.sref ≠ 0xFFFF then [(64 * tl.sref, tileScaleBytes tl)] else []

/-- Something that a product reads is poisoned (R74): inputs, scales, strip, and accumulator words that are added to. -/
def mmBad (f : Facet) (t : Tensor) (tl : Tile) (tap : Word) (c : Ctl) : Bool :=
  (!f.lsPoison.isEmpty && readsBad f (mmReads f t tl tap c)) || (c.acc && accBad f c)

/-- The footprints of `lx.mm` (R46): the input with its scales, its map and its outlier activations, and the scales of the tile. -/
def mmFeet (f : Facet) (r : Nat) : List (Nat × Nat) :=
  feet f [r] ++ (match descAt f r with
    | none => []
    | some t => outlierFeet f t false) ++ if f.tile.sref ≠ 0xFFFF then [(64 * f.tile.sref, tileScaleBytes f.tile)] else []

/-- One accumulator word of a product, and its held outlier contribution (R59, R85, R86, R93), which is no element that `nanc` counts; `f` is
the Facet before the product. Log entry 141 (DESIGN CHOICE). -/
def mmWord (f : Facet) (t : Tensor) (tl : Tile) (c : Ctl) (pos : Option (Nat × Nat)) (g : Facet) (row n : Nat) : Facet :=
  let key := accKey row n
  let g1 := match pos with
    | some (x, y) => if mmInt t tl then accInt g key c.acc (intColumn f t tl x y n) else accFloat g key c.acc (floatColumn f t tl x y n)
    | none => if mmInt t tl then accInt g key c.acc 0 else accFloat g key c.acc Num.zero
  if t.outlier then
    let o := match pos with
      | some (x, y) => stripSum f t tl (mmAside f t) true x y n
      | none => stripSum f t tl (mmAside f t) false 0 0 n
    heldPut g1 key (toFp32 (if c.acc then (fp32 (heldWord g1 key)).add o else o))
  else if c.acc then g1 else heldPut g1 key 0

/-- Every covered word of a product; the outlier activations are found through the map as it is now. Log entry 142 (DESIGN CHOICE). -/
def mmPass (f : Facet) (t : Tensor) (tl : Tile) (tap : Word) (c : Ctl) : Facet :=
  c.places.foldl (fun g p => (List.range 64).foldl (fun g n => mmWord f t tl c (tapPos t tap p.2.1 p.2.2) g p.1 n) g) f

/-- A Facet whose Lattice has done `n` MACs on inputs of a format at `now`: those of the last 20 µs are kept, in 8,192ths of a cycle at full rate
(R60, R415). -/
def worked (now fmt n : Nat) (f : Facet) : Facet :=
  let rate := if fmt = 0 || fmt = 5 then 1 else if fmt = 3 then 8 else if fmt = 0xA then 32 else if fmt = 8 || fmt = 9 then 4 else 2
  { f with macs := (now, n * rate) :: f.macs.filter fun p => decide (now < p.1 + 20000) }

/-- `lx.mm` (R59, R61, R83-R94). Log entry 139 (DESIGN CHOICE). -/
def mmEng (now rd rs1 rs2 : Nat) (f : Facet) : Eng :=
  match descAt f rd with
  | none => .cause 0x03 0
  | some t =>
    let tap := getX f rs1
    let c := ctlOf (getX f rs2)
    if fld tap 24 8 ≠ 0 then .cause 0x05 tap.toNat
    else if !(mmFits f t f.tile) then .cause 0x04 (getX f rs2).toNat
    else if 2048 < c.row + c.m then .cause 0x06 (getX f rs2).toNat
    else if mmBad f t f.tile tap c then .cause 0x09 (poisonAt f (mmReads f t f.tile tap c) (accBadRow f c))
    else .good (worked now t.fmt (c.m * f.tile.k * f.tile.n) (mmPass f t f.tile tap c))

/-- `LX_MM` (R59). -/
def execLxMm (site : Nat) (rd rs1 rs2 : BitVec 5) (s : State) : Res :=
  ok (runEngine s site (dReg rd) [rs1.toNat, rs2.toNat] (fun f => mmFeet f rd.toNat) (mmEng s.now rd.toNat rs1.toNat rs2.toNat))

/-! ## `lx.dg` (R61, R107-R109) -/

/-- The permitted pairs of R107. -/
def dgPairOk (a w : Nat) : Bool :=
  match a with
  | 0x1 => w == 1
  | 0x2 => w == 1
  | 0x6 => w == 6
  | 0x7 => w == 6 || w == 7
  | 0x8 => w == 8
  | 0x9 => w == 9
  | _ => false

/-- Input and weights of a diagonal-mode pass go together (R54, R61, R89, R107, R108). Log entry 30 (DEDUCED). -/
def dgFits (t w : Tensor) (c : Ctl) : Bool :=
  dgPairOk t.fmt w.fmt && !t.outlier && !w.outlier && refsOk t && refsOk w && t.scaleFits && w.scaleFits && t.ext 0 == w.ext 0 &&
  decide (t.ext 0 ≤ 64) && decide (w.ext 1 ≤ 16) && decide (w.ext 2 ≤ 16) && w.ext 3 == 1 && t.ext 3 == 1 && decide (c.ow ≤ 64)

/-- The input position of a tap of an output position under a geometry word (R108); none in the padding. -/
def dgPos (t : Tensor) (g : Word) (ox oy kx ky : Nat) : Option (Nat × Nat) :=
  let x : Int := (ox * (fld g 0 4 + 1) + kx * (fld g 8 4 + 1) : Nat) - (fld g 16 8 : Nat)
  let y : Int := (oy * (fld g 4 4 + 1) + ky * (fld g 12 4 + 1) : Nat) - (fld g 24 8 : Nat)
  if 0 ≤ x && x < (t.ext 1 : Int) && 0 ≤ y && y < (t.ext 2 : Int) then some (x.toNat, y.toNat) else none

/-- The taps of a pass in order. -/
def dgTaps (w : Tensor) : List (Nat × Nat) := (List.range (w.ext 2)).flatMap fun ky => (List.range (w.ext 1)).map fun kx => (kx, ky)

/-- What a pass reads: the weights, then at each position and tap the inputs with their scales. Log entry 156 (DESIGN CHOICE). -/
def dgReads (t w : Tensor) (g : Word) (c : Ctl) : List (Nat × Nat) :=
  w.reads ++ c.places.flatMap fun p => (dgTaps w).flatMap fun k => match dgPos t g p.2.1 p.2.2 k.1 k.2 with
    | some (x, y) => (List.range (t.ext 0)).flatMap fun i => t.elemRange [i, x, y, 0] ::
        (if t.scaled then [t.scaleRange (t.scaleIdx (i / blockOf t.sblk) x y 0)] else [])
    | none => []

/-- Something that a pass reads is poisoned (R74). -/
def dgBad (f : Facet) (t w : Tensor) (g : Word) (c : Ctl) : Bool :=
  (!f.lsPoison.isEmpty && readsBad f (dgReads t w g c)) || (c.acc && accBad f c)

/-- The exact product of a tap and channel. -/
def dgTerm (f : Facet) (t w : Tensor) (i kx ky x y : Nat) : Num := (elemNum f t [i, x, y, 0]).mul (elemNum f w [i, kx, ky, 0])

/-- The sum of a channel's taps in integer mode (R108). -/
def dgInt (f : Facet) (t w : Tensor) (g : Word) (ox oy i : Nat) : Int :=
  if t.ext 0 ≤ i then 0
  else (dgTaps w).foldl (fun a k => match dgPos t g ox oy k.1 k.2 with
    | some (x, y) => a + Num.at (dgTerm f t w i k.1 k.2 x y) 0
    | none => a) 0

/-- The sum of a channel's taps in float mode (R108, R109). -/
def dgFloat (f : Facet) (t w : Tensor) (g : Word) (ox oy i : Nat) : Num :=
  if t.ext 0 ≤ i then Num.zero
  else (dgTaps w).foldl (fun a k => match dgPos t g ox oy k.1 k.2 with
    | some (x, y) => rne32 (a.add ((dgTerm f t w i k.1 k.2 x y).mul ((elemScale f t [i, x, y, 0]).mul (elemScale f w [i, k.1, k.2, 0]))))
    | none => rne32 (a.add (Num.zero.mul (elemNum f w [i, k.1, k.2, 0])))) Num.zero

/-- A pass runs in integer mode. -/
def dgIsInt (t w : Tensor) : Bool := isInt t.fmt && isInt w.fmt && !t.scaled && !w.scaled

/-- Every covered word of a diagonal-mode pass. -/
def dgPass (f : Facet) (t w : Tensor) (g : Word) (c : Ctl) : Facet :=
  c.places.foldl (fun h p => (List.range 64).foldl (fun h i =>
    if dgIsInt t w then accInt h (accKey p.1 i) c.acc (dgInt f t w g p.2.1 p.2.2 i)
    else accFloat h (accKey p.1 i) c.acc (dgFloat f t w g p.2.1 p.2.2 i)) h) f

/-- `lx.dg`: a diagonal-mode pass with the control and geometry words in a pair of registers (R61, R108). -/
def dgEng (now rd rs1 rs2 : Nat) (f : Facet) : Eng :=
  match descAt f rd, descAt f rs1 with
  | some t, some w =>
    let c := ctlOf (getX f rs2)
    let g := getX f (rs2 + 1)
    if !(dgFits t w c) then .cause 0x04 (getX f rs2).toNat
    else if 2048 < c.row + c.m then .cause 0x06 (getX f rs2).toNat
    else if dgBad f t w g c then .cause 0x09 (poisonAt f (dgReads t w g c) (accBadRow f c))
    else .good (worked now t.fmt (c.m * t.ext 0 * (dgTaps w).length) (dgPass f t w g c))
  | _, _ => .cause 0x03 0

/-- `LX_DG` (R108): an odd xC is illegal (R58, R71). -/
def execLxDg (site : Nat) (rd rs1 rs2 : BitVec 5) (s : State) : Res :=
  ok (runEngine s site (dReg rd && dReg rs1 && !(rs2.getLsbD 0)) [rs2.toNat, rs2.toNat + 1] (fun f => feet f [rd.toNat, rs1.toNat])
    (dgEng s.now rd.toNat rs1.toNat rs2.toNat))

/-! ## `lx.cvt` and `lx.acz` (R95, R96, R58) -/

/-- One element of the output stage (R96); a NaN that becomes zero is counted in `satc` also where `ozp` moves it. Log entry 141 (DESIGN CHOICE). -/
def stageOut (fmt atype act : Nat) (ozp : Int) (word held : Word) (cs bias clo chi oscale : Num) : Wr :=
  let a := if atype = 0 then Num.ofInt word.toInt else fp32 word
  let v := rne32 ((rne32 ((rne32 (a.mul cs)).add (fp32 held))).add bias)
  let v1 := if act = 1 then v.max Num.zero else if act = 2 then (v.max clo).min chi else v
  let v2 := rne32 (v1.mul oscale)
  if isInt fmt then
    match v2 with
    | .nan => { encInt fmt ozp with sat := true }
    | _ =>
      let r := encNum 0x4 v2
      let q := encInt fmt (sgn 32 r.code + ozp)
      { q with sat := r.sat || q.sat }
  else encNum fmt v2

/-- A reference of the output parameters lies in local store or is absent. -/
def vecRef (l : Nat) : Bool := l == 0xFFFF || decide (64 * l + 256 ≤ 0x300000)

/-- The output-stage parameters `r` break no rule of R96 for a destination format. -/
def stageParams (r : BitVec 256) (fmt : Nat) : Bool :=
  let clo := decodeNum 0xA (fld r 128 32)
  let chi := decodeNum 0xA (fld r 160 32)
  fld r 6 106 == 0 && fld r 1 3 == 0 && fld r 4 2 != 3 && !(fld r 4 2 == 2 && (clo == .nan || chi == .nan || chi.lt clo)) &&
  (isInt fmt || sgn 16 (fld r 112 16) == 0) && vecRef (fld r 240 16) && vecRef (fld r 224 16)

/-- The destination of `lx.cvt` fits its control word (R54, R61, R95). -/
def stageFits (t : Tensor) (c : Ctl) : Bool :=
  !t.scaled && !t.outlier && t.fmt != 4 && decide (t.fmt < 0xB) && decide (t.ext 0 ≤ 64) && t.ext 1 * t.ext 2 * t.ext 3 == c.m

/-- What the output stage reads: its record at `a`, and the vectors of biases and scales that it names. -/
def stageReads (t : Tensor) (a : Nat) (r : BitVec 256) : List (Nat × Nat) :=
  (a, 32) :: ((([fld r 240 16, fld r 224 16] : List Nat).filter (· != 0xFFFF)).map fun l => (64 * l, 4 * t.ext 0))

/-- Something that the output stage reads is poisoned (R74). -/
def stageBad (f : Facet) (t : Tensor) (c : Ctl) (a : Nat) (r : BitVec 256) : Bool := readsBad f (stageReads t a r) || accBad f c

/-- The footprints of `lx.cvt` (R46): its record, the vectors that the record names, and the tensor it writes. -/
def cvtFeet (f : Facet) (rd rs2 : Nat) : List (Nat × Nat) :=
  let a := (getX f rs2).toNat
  let r := BitVec.ofNat 256 (ofBytes (lsRead f a 32))
  (match descAt f rd with
    | none => [(a, 32)]
    | some t => stageReads t a r) ++ feet f [rd]

/-- Entry `i` of a vector that a reference names, or `d` where it names none. -/
def stageVec (f : Facet) (l : Nat) (d : Num) (i : Nat) : Num := if l = 0xFFFF then d else decodeNum 0xA (ofBytes (lsRead f (64 * l + 4 * i) 4))

/-- One element that the output stage writes (R96). -/
def stageWr (f : Facet) (t : Tensor) (c : Ctl) (r : BitVec 256) (i : List Nat) : Wr :=
  let k := accKey (c.row + lget i 1 0 + t.ext 1 * (lget i 2 0 + t.ext 2 * lget i 3 0)) (lget i 0 0)
  stageOut t.fmt (fld r 0 1) (fld r 4 2) (sgn 16 (fld r 112 16)) (accWord f k) (heldWord f k) (stageVec f (fld r 224 16) Num.one (lget i 0 0))
    (stageVec f (fld r 240 16) Num.zero (lget i 0 0)) (decodeNum 0xA (fld r 128 32)) (decodeNum 0xA (fld r 160 32)) (decodeNum 0xA (fld r 192 32))

/-- Elements written with the codes and counts that a rule gives each index. -/
def putAll (f : Facet) (t : Tensor) (g : List Nat → Wr) : Facet :=
  countWr (elemsPut f t (t.indices.map fun i => (i, (g i).code))) (t.indices.map g)

/-- `lx.cvt` (R95, R96). Log entries 138 (DESIGN CHOICE), 143 (DEDUCED). -/
def cvtEng (rd rs1 rs2 : Nat) (f : Facet) : Eng :=
  match descAt f rd with
  | none => .cause 0x03 0
  | some t =>
    let c := ctlOf (getX f rs1)
    let a := (getX f rs2).toNat
    let r := BitVec.ofNat 256 (ofBytes (lsRead f a 32))
    if c.acc then .cause 0x05 (getX f rs1).toNat
    else if !(lsAligned a 32) || !(stageParams r t.fmt) then .cause 0x05 a
    else if !(stageFits t c) then .cause 0x04 (getX f rs1).toNat
    else if 2048 < c.row + c.m then .cause 0x06 (getX f rs1).toNat
    else if inProtected f t.foot.1 t.foot.2 then .cause 0x07 t.base
    else if stageBad f t c a r then .cause 0x09 (poisonAt f (stageReads t a r) (accBadRow f c))
    else .good (putAll f t (stageWr f t c r))

/-- `LX_CVT` (R96). -/
def execLxCvt (site : Nat) (rd rs1 rs2 : BitVec 5) (s : State) : Res :=
  ok (runEngine s site (dReg rd) [rs1.toNat, rs2.toNat] (fun f => cvtFeet f rd.toNat rs2.toNat)
    (cvtEng rd.toNat rs1.toNat rs2.toNat))

/-- `lx.acz`: rows and their held contributions to zero (R58, R61). -/
def aczEng (rs1 rs2 : Nat) (f : Facet) : Eng :=
  let r := (getX f rs1).toNat
  let n := (getX f rs2).toNat
  if n = 0 then .good f
  else if 2048 < r + n then .cause 0x06 r
  else .good ((List.range (64 * n)).foldl (fun g i => heldPut (accPut g (64 * r + i) 0) (64 * r + i) 0) f)

/-- `LX_ACZ` (R58). -/
def execLxAcz (site : Nat) (rs1 rs2 : BitVec 5) (s : State) : Res :=
  ok (runEngine s site true [rs1.toNat, rs2.toNat] (fun _ => []) (aczEng rs1.toNat rs2.toNat))

end Sys2Proof.Machine
end

