-- ==== Sys2Proof/Machine/Pooling.lean ====
section
/-! DEFINITION. The window unit: maximum and average pooling (R62, R115-R117). -/

namespace Sys2Proof.Machine

/-- The real input positions of an output's window (R62). -/
def windowIn (w : Word) (width height ox oy : Nat) : List (Nat × Nat) :=
  (List.range (fld w 0 4 + 1)).flatMap fun j => (List.range (fld w 4 4 + 1)).filterMap fun i =>
    let x : Int := ((ox * (fld w 12 4 + 1) + i : Nat) : Int) - (fld w 20 4 : Nat)
    let y : Int := ((oy * (fld w 8 4 + 1) + j : Nat) : Int) - (fld w 16 4 : Nat)
    if 0 ≤ x && x < (width : Int) && 0 ≤ y && y < (height : Int) then some (x.toNat, y.toNat) else none

/-- The average of a window: the exact sum of its real inputs over the divisor, rounded once (R116); a window of negative zeros gives −0
whatever padding it has. Log entry 144 (DESIGN CHOICE). -/
def windowAvg (fmt d : Nat) (vs : List Num) : Wr :=
  match Num.sum vs with
  | .fin n m e => encQ fmt n m d e
  | v => encNum fmt v

/-- A window word fits its input and output (R62): reserved bits, padding below the window, and every window inside the padded input. -/
def poolWord (avg : Bool) (w : Word) (o t : Tensor) : Bool :=
  let overX := (t.ext 1 : Int) ≤ ((o.ext 1 - 1) * (fld w 12 4 + 1) : Nat) - ((fld w 20 4 : Nat) : Int)
  let overY := (t.ext 2 : Int) ≤ ((o.ext 2 - 1) * (fld w 8 4 + 1) : Nat) - ((fld w 16 4 : Nat) : Int)
  fld w 25 7 == 0 && (avg || !(w.getLsbD 24)) && decide (fld w 20 4 ≤ fld w 4 4) && decide (fld w 16 4 ≤ fld w 0 4) && !overX && !overY

/-- Input and output of a pooling go together (R54, R62, R117). -/
def poolFits (o t : Tensor) : Bool :=
  t.fmt != 0 && t.fmt != 4 && t.fmt != 5 && decide (t.fmt < 0xB) && t.fmt == o.fmt && t.ext 0 == o.ext 0 && !t.scaled && !t.outlier && !o.scaled &&
  !o.outlier && t.ext 3 == 1 && o.ext 3 == 1

/-- The inputs of an output element's window. -/
def poolIns (f : Facet) (w : Word) (t : Tensor) (i : List Nat) : List Num :=
  (windowIn w (t.ext 1) (t.ext 2) (lget i 1 0) (lget i 2 0)).map fun p => elemNum f t [lget i 0 0, p.1, p.2, 0]

/-- What the windows read. -/
def poolReads (w : Word) (o t : Tensor) : List (Nat × Nat) :=
  o.indices.flatMap fun i =>
    (windowIn w (t.ext 1) (t.ext 2) (lget i 1 0) (lget i 2 0)).map fun p => t.elemRange [lget i 0 0, p.1, p.2, 0]

/-- An input that some window reads is poisoned (R74). -/
def poolBad (f : Facet) (w : Word) (o t : Tensor) : Bool := !f.lsPoison.isEmpty && readsBad f (poolReads w o t)

/-- The value of an output element: the maximum or the average of its window (R115, R116). -/
def poolWr (avg : Bool) (f : Facet) (w : Word) (o t : Tensor) (i : List Nat) : Wr :=
  let vs := poolIns f w t i
  if avg then windowAvg o.fmt (if w.getLsbD 24 then vs.length else (fld w 4 4 + 1) * (fld w 0 4 + 1)) vs
  else encNum o.fmt (match vs with
    | [] => Num.zero
    | v :: r => r.foldl Num.max v)

/-- Pooling of dI into dO (R62): checks, then one value per output element. -/
def poolEng (avg : Bool) (rd rs1 rs2 : Nat) (f : Facet) : Eng :=
  match descAt f rd, descAt f rs1 with
  | some o, some t =>
    let w := getX f rs2
    if !(poolWord avg w o t) then .cause 0x05 w.toNat
    else if !(poolFits o t) then .cause 0x04 w.toNat
    else if inProtected f o.foot.1 o.foot.2 then .cause 0x07 o.base
    else if poolBad f w o t then .cause 0x09 (poisonAt f (poolReads w o t) t.base)
    else .good (putAll f o (poolWr avg f w o t))
  | _, _ => .cause 0x03 0

/-- `WN_MAX` (R115). -/
def execWnMax (site : Nat) (rd rs1 rs2 : BitVec 5) (s : State) : Res :=
  ok (runEngine s site (dReg rd && dReg rs1) [rs2.toNat] (fun f => feet f [rd.toNat, rs1.toNat]) (poolEng false rd.toNat rs1.toNat rs2.toNat))

/-- `WN_AVG` (R116). -/
def execWnAvg (site : Nat) (rd rs1 rs2 : BitVec 5) (s : State) : Res :=
  ok (runEngine s site (dReg rd && dReg rs1) [rs2.toNat] (fun f => feet f [rd.toNat, rs1.toNat]) (poolEng true rd.toNat rs1.toNat rs2.toNat))

end Sys2Proof.Machine
end

