-- ==== Sys2Proof/Machine/Requests.lean ====
section
/-! DEFINITION. Requests that reach the dictionary through a front end (R445, R446): the Axbel operations, register writes and the rows that
name one write, each after the transition that a boundary of its instant brings. -/

namespace Sys2Proof.Machine

/-- What a request sees (R446): a transition into or out of CONFIG that waits for the boundary of this instant has taken effect before it.
Log entry 152 (DEDUCED). -/
def settled (s : State) : State :=
  if s.host.twoK.any fun w => w.index == 0x1101 && w.pending.any fun t => decide (t < s.now) then tickBoundary s else s

/-- `PX_MODE_WRITE` (R404). -/
def execPxModeWrite (hub : Fin 2) (v : Byte) (s : State) : Res := ok (askTwoK (settled s) hub.val 0x4000 v.toNat)

/-- `DEV_REQUEST_OPERATIONAL` (R459). -/
def execDevRequestOperational (hub : Fin 2) (s : State) : Res := ok (askTwoK (settled s) hub.val 0x1101 1)

/-- `DEV_REQUEST_CONFIG` (R459). -/
def execDevRequestConfig (hub : Fin 2) (s : State) : Res := ok (askTwoK (settled s) hub.val 0x1101 2)

/-- `BS_SVN_COMMIT` (R502). -/
def execBsSvnCommit (hub : Fin 2) (v : Byte) (s : State) : Res := ok (askTwoK (settled s) hub.val 0x4806 v.toNat)

/-- `BS_KEY_REVOKE` (R503). -/
def execBsKeyRevoke (hub : Fin 2) (v : Byte) (s : State) : Res := ok (askTwoK (settled s) hub.val 0x4807 v.toNat)

/-- `AXBEL_READ` (R445). -/
def execAxbelRead (hub : Fin 2) (src : AxSource) (pdu : List Byte) (s : State) : Res :=
  ok (if carries s 1 src pdu then arriveRequest (settled s) hub src pdu else s)

/-- `AXBEL_WRITE` (R445). -/
def execAxbelWrite (hub : Fin 2) (src : AxSource) (pdu : List Byte) (s : State) : Res :=
  ok (if carries s 2 src pdu then arriveRequest (settled s) hub src pdu else s)

/-- `AXBEL_ECHO` (R451). -/
def execAxbelEcho (hub : Fin 2) (src : AxSource) (pdu : List Byte) (s : State) : Res :=
  ok (if carries s 4 src pdu then arriveRequest (settled s) hub src pdu else s)

/-- `REGISTER_WRITE` (R205, R254, R445). -/
def execRegisterWrite (tgt : WriteTarget) (value : List Byte) (s : State) : Res :=
  ok (match tgt with
    | .entry hub i sub => registerEntry (settled s) hub i sub value
    | .window core n offset => if hubUp s (coreHub core).val then coreWindowWrite s core n offset value else s
    | .kxpid core priv write => accessKxpid s core.val priv write (ofBytes value))

/-- `NIM_ACK` (R464). -/
def execNimAck (hub ring : Fin 2) (q : Word) (s : State) : Res :=
  let z := settled s
  ok (if frontUp z hub.val && entryStatus z hub.val none true 0x5001 ring.val = 0 then (nimAckWrite z ring.val q.toNat).2 else z)

end Sys2Proof.Machine
end

