-- ==== Sys2Proof/Machine/Vector.lean ====
section
/-! DEFINITION. The vector unit (R63, R64, R89, R97-R100). -/

namespace Sys2Proof.Machine

/-- The element-wise operations of the vector unit (R63). -/
inductive VOp where
  | add | sub | mul | max | min | relu | exp2 | rcp | rsq | copy
  deriving DecidableEq, Repr

/-- An operand element in the FP32 width: rounded to FP32, with its scale in one rounding where it has one (R97). -/
def fpOperand (f : Facet) (t : Tensor) (i : List Nat) : Num :=
  rne32 (if t.scaled then (elemNum f t i).mul (elemScale f t i) else elemNum f t i)

/-- The FP32 result of an operation on two operands, rounded once (R97, R98). -/
def fpOp (op : VOp) (a b : Num) : Num :=
  match op with
  | .add => rne32 (a.add b)
  | .sub => rne32 (a.add b.neg)
  | .mul => rne32 (a.mul b)
  | .max => a.max b
  | .min => a.min b
  | .relu => a.max Num.zero
  | .exp2 => fp32 (exp232 a)
  | .rcp => fp32 (rcp32 a)
  | .rsq => fp32 (rsq32 a)
  | .copy => a

/-- The INT32 result of an operation, saturating, with whether it clipped (R99). -/
def intOp (op : VOp) (a b : Int) : Int × Bool :=
  match op with
  | .add => sat32 (a + b)
  | .sub => sat32 (a - b)
  | .mul => sat32 (a * b)
  | .max => (if a < b then b else a, false)
  | .min => (if b < a then b else a, false)
  | .relu => (if a < 0 then 0 else a, false)
  | _ => (a, false)

/-- The integer that an element of an integer format is. -/
def intElem (f : Facet) (t : Tensor) (i : List Nat) : Int := Num.at (elemNum f t i) 0

/-- The unit works in INT32: every operand and the destination have integer formats (R64). Scaled operands are
dequantised, which the FP32 width does (R64, R97). Log entry 22 (DEDUCED). -/
def intWidth (ts : List Tensor) : Bool := ts.all fun t => isInt t.fmt && !t.scaled

/-- A format that the vector unit accepts (R54). -/
def vecFmt (t : Tensor) : Bool := decide (t.fmt < 0xB) && refsOk t && t.scaleFits

/-- An index brought to the extents of a broadcast operand (R64). -/
def broadcast (t : Tensor) (i : List Nat) : List Nat :=
  (List.range 4).map fun k => if t.ext k = 1 then 0 else lget i k 0

/-- One element of an element-wise operation with a second operand given per index, in FP32 or INT32. -/
def elementWr (f : Facet) (op : VOp) (d a : Tensor) (ints : Bool) (bi : List Nat → Int) (bf : List Nat → Num) (i : List Nat) : Wr :=
  if ints then
    let r := intOp op (intElem f a i) (bi i)
    let e := encInt d.fmt r.1
    { e with sat := e.sat || r.2 }
  else encNum d.fmt (fpOp op (fpOperand f a i) (bf i))

/-- Every element of an element-wise operation. -/
def elementWise (f : Facet) (op : VOp) (d a : Tensor) (ints : Bool) (bi : List Nat → Int) (bf : List Nat → Num) : Facet :=
  putAll f d (elementWr f op d a ints bi bf)

/-- The extents of a second operand fit those of the first, one broadcasting (R64). -/
def extentsFit (d a b : Tensor) : Bool := (List.range 4).all fun k => d.ext k == a.ext k && (b.ext k == a.ext k || b.ext k == 1)

/-- Two tensors have the same extents. -/
def sameExtents (d a : Tensor) : Bool := (List.range 4).all fun k => d.ext k == a.ext k

/-- Destination and operands of a two-operand operation go together (R54, R64, R89). An outlier reference that R54 allows has no effect
here. Log entry 137 (DEDUCED). -/
def vec2Fits (d a b : Tensor) : Bool := vecFmt d && vecFmt a && vecFmt b && extentsFit d a b && !d.scaled

/-- Destination and operand of a one-operand operation go together. Log entry 137 (DEDUCED). -/
def vec1Fits (d a : Tensor) : Bool := vecFmt d && vecFmt a && sameExtents d a && !d.scaled

/-- The operation works in FP32 whatever the formats, so that its destination is no integer format (R98). -/
def VOp.needsFp : VOp → Bool
  | .exp2 => true
  | .rcp => true
  | .rsq => true
  | _ => false

/-- Two-operand element-wise operations (R63, R64, R97, R99). Log entry 139 (DESIGN CHOICE). -/
def vec2Eng (op : VOp) (rd rs1 rs2 : Nat) (f : Facet) : Eng :=
  match descAt f rd, descAt f rs1, descAt f rs2 with
  | some d, some a, some b =>
    if !(vec2Fits d a b) then .cause 0x04 0
    else if inProtected f d.foot.1 d.foot.2 then .cause 0x07 d.base
    else if tensorBad f a || tensorBad f b then .cause 0x09 (poisonAt f (a.reads ++ b.reads) a.base)
    else .good (elementWise f op d a (intWidth [d, a, b]) (fun i => intElem f b (broadcast b i)) (fun i => fpOperand f b (broadcast b i)))
  | _, _, _ => .cause 0x03 0

/-- One-operand element-wise operations (R63, R64, R98). -/
def vec1Eng (op : VOp) (rd rs1 : Nat) (f : Facet) : Eng :=
  match descAt f rd, descAt f rs1 with
  | some d, some a =>
    if !(vec1Fits d a) || (op.needsFp && isInt d.fmt) then .cause 0x04 0
    else if inProtected f d.foot.1 d.foot.2 then .cause 0x07 d.base
    else if tensorBad f a then .cause 0x09 (poisonAt f a.reads a.base)
    else .good (elementWise f op d a (intWidth [d, a]) (fun _ => 0) (fun _ => Num.zero))
  | _, _ => .cause 0x03 0

/-- Element-wise operations with a scalar register (R64). -/
def vecSEng (op : VOp) (rd rs1 rs2 : Nat) (f : Facet) : Eng :=
  match descAt f rd, descAt f rs1 with
  | some d, some a =>
    if !(vec1Fits d a) then .cause 0x04 (getX f rs2).toNat
    else if inProtected f d.foot.1 d.foot.2 then .cause 0x07 d.base
    else if tensorBad f a then .cause 0x09 (poisonAt f a.reads a.base)
    else .good (elementWise f op d a (intWidth [d, a]) (fun _ => (getX f rs2).toInt) (fun _ => fp32 (getX f rs2)))
  | _, _ => .cause 0x03 0

/-- The scale of one output block and its elements (R100). -/
def blockScale (fmt : Nat) (vs : List Num) : Int :=
  let emax : Int := match fmt with
    | 0x0 => 2 | 0x1 => 6 | 0x2 => 7 | 0x5 => 2 | 0x6 => 8 | 0x7 => 15 | 0x8 => 15 | _ => 127
  let tops := vs.filterMap fun v => match v with
    | .fin _ m e => if m = 0 then none else some ((m.log2 : Int) + e)
    | _ => none
  match tops with
  | [] => 0
  | t :: r => r.foldl (fun a b => if a < b then b else a) t - emax

/-- Source and destination of `vx.cvt` go together: the destination may be scaled (R63, R100). Log entry 137 (DEDUCED). -/
def cvtVecFits (d a : Tensor) : Bool := vecFmt d && vecFmt a && sameExtents d a

/-- The scale code of a block of values: biased by 127, held in 0 to 254 (R100). -/
def blockCode (fmt : Nat) (vs : List Num) : Int :=
  let e := blockScale fmt vs
  if e + 127 < 0 then 0 else if 254 < e + 127 then 254 else e + 127

/-- An element of the source of `vx.cvt` before its one conversion: exact in the INT32 width, in FP32 otherwise (R64, R97, R99). -/
def cvtSource (f : Facet) (d a : Tensor) (i : List Nat) : Num := if isInt d.fmt && intWidth [a] then elemNum f a i else fpOperand f a i

/-- The elements of block `r` (number, then indices 1 to 3) of a scaled destination, and the bytes of its scale (R88, R100). -/
def cvtBlock (f : Facet) (d a : Tensor) (r : Nat × Nat × Nat × Nat) : List (List Nat × Wr) × List (Nat × Byte) :=
  let b := blockOf d.sblk
  let is_ := (List.range (Nat.min ((r.1 + 1) * b) (d.ext 0) - r.1 * b)).map fun e => [r.1 * b + e, r.2.1, r.2.2.1, r.2.2.2]
  let vs := is_.map (cvtSource f d a)
  let code := blockCode d.fmt vs
  let ws := (List.zip is_ vs).map fun p => (p.1, encNum d.fmt (match p.2 with
    | .fin n m x => .fin n m (x - (code - 127))
    | v => v))
  let sc := if d.sfmt = 0 then code.toNat else (encNum 0x9 (.fin false 1 (code - 127))).code
  (ws, (toBytes (scaleSize d.sfmt) sc).zipIdx.map fun q => (d.scaleAddr (d.scaleIdx r.1 r.2.1 r.2.2.1 r.2.2.2) + q.2, q.1))

/-- A conversion into a scaled destination, block by block (R100). -/
def cvtScaled (f : Facet) (d a : Tensor) : Facet :=
  let rows := (List.range (d.ext 3)).flatMap fun l => (List.range (d.ext 2)).flatMap fun k => (List.range (d.ext 1)).flatMap fun j =>
    (List.range d.blocks).map fun blk => (blk, j, k, l)
  let out := rows.map (cvtBlock f d a)
  let ws := out.flatMap Prod.fst
  countWr (lsScatter (elemsPut f d (ws.map fun w => (w.1, w.2.code))) (out.flatMap Prod.snd)) (ws.map Prod.snd)

/-- `vx.cvt` (R63, R100). -/
def cvtVecEng (rd rs1 : Nat) (f : Facet) : Eng :=
  match descAt f rd, descAt f rs1 with
  | some d, some a =>
    if !(cvtVecFits d a) then .cause 0x04 0
    else if inProtected f d.foot.1 d.foot.2 || (d.scaled && inProtected f (64 * d.sref) d.scaleBytes) then .cause 0x07 d.base
    else if tensorBad f a then .cause 0x09 (poisonAt f a.reads a.base)
    else if d.scaled then .good (cvtScaled f d a)
    else .good (elementWise f .copy d a (intWidth [d, a]) (fun _ => 0) (fun _ => Num.zero))
  | _, _ => .cause 0x03 0

/-- Source and destination of a reduction along dim0 go together (R63, R64). Log entry 137 (DEDUCED). -/
def reduceFits (d a : Tensor) : Bool :=
  vecFmt d && vecFmt a && d.ext 0 == 1 && ((List.range 3).all fun k => d.ext (k + 1) == a.ext (k + 1)) && !d.scaled

/-- The elements that a reduction folds into one. -/
def reduceIdx (a : Tensor) (i : List Nat) : List (List Nat) := (List.range (a.ext 0)).map fun k => [k, lget i 1 0, lget i 2 0, lget i 3 0]

/-- A reduction in INT32: a running sum that saturates, or the greatest, with whether it clipped (R99). -/
def reduceInt (sum : Bool) (vs : List Int) : Int × Bool :=
  let r := vs.foldl (fun (p : Option Int × Bool) v =>
    match p.1 with
    | none => (some v, p.2)
    | some y => if sum then let q := sat32 (y + v); (some q.1, p.2 || q.2) else (some (if y < v then v else y), p.2)) (none, false)
  (r.1.getD 0, r.2)

/-- A reduction in FP32: a running sum rounded at each step, or the greatest (R97). -/
def reduceFp (sum : Bool) (vs : List Num) : Num :=
  match vs with
  | [] => Num.zero
  | v :: r => if sum then r.foldl (fun x y => rne32 (x.add y)) v else r.foldl Num.max v

/-- One element of a reduction. -/
def reduceWr (sum : Bool) (f : Facet) (d a : Tensor) (i : List Nat) : Wr :=
  if intWidth [d, a] then
    let r := reduceInt sum ((reduceIdx a i).map (intElem f a))
    let e := encInt d.fmt r.1
    { e with sat := e.sat || r.2 }
  else encNum d.fmt (reduceFp sum ((reduceIdx a i).map (fpOperand f a)))

/-- `vx.rsum` and `vx.rmax` along dim0 (R63, R64, R97, R99). -/
def reduceEng (sum : Bool) (rd rs1 : Nat) (f : Facet) : Eng :=
  match descAt f rd, descAt f rs1 with
  | some d, some a =>
    if !(reduceFits d a) then .cause 0x04 0
    else if inProtected f d.foot.1 d.foot.2 then .cause 0x07 d.base
    else if tensorBad f a then .cause 0x09 (poisonAt f a.reads a.base)
    else .good (putAll f d (reduceWr sum f d a))
  | _, _ => .cause 0x03 0

/-- The tensor of `vx.ald` and `vx.aacc` fits a control word (R64). -/
def accShape (t : Tensor) (c : Ctl) : Bool :=
  (t.fmt == 0x4 || t.fmt == 0xA) && !t.scaled && !t.outlier && decide (t.ext 0 ≤ 64) && t.ext 1 * t.ext 2 * t.ext 3 == c.m

/-- The accumulator row of a tensor index (R63). Log entry 24 (DEDUCED). -/
def accRow (t : Tensor) (c : Ctl) (i : List Nat) : Nat := c.row + lget i 1 0 + t.ext 1 * (lget i 2 0 + t.ext 2 * lget i 3 0)

/-- `vx.ald`: covered words copied, bits unchanged (R63, R64), and none counted in `fxstat`. Log entries 138 (DESIGN CHOICE), 141 (DESIGN CHOICE). -/
def aldEng (rd rs1 : Nat) (f : Facet) : Eng :=
  match descAt f rd with
  | none => .cause 0x03 0
  | some t =>
    let c := ctlOf (getX f rs1)
    if c.acc then .cause 0x05 (getX f rs1).toNat
    else if !(accShape t c) then .cause 0x04 (getX f rs1).toNat
    else if 2048 < c.row + c.m then .cause 0x06 (getX f rs1).toNat
    else if inProtected f t.foot.1 t.foot.2 then .cause 0x07 t.base
    else if accBad f c then .cause 0x09 (accBadRow f c)
    else .good (elemsPut f t (t.indices.map fun i => (i, (accWord f (accKey (accRow t c i) (lget i 0 0))).toNat)))

/-- Every element of a tensor added into its accumulator word (R63, R85, R86). -/
def accAdd (f : Facet) (t : Tensor) (c : Ctl) : Facet :=
  t.indices.foldl (fun g i =>
    let k := accKey (accRow t c i) (lget i 0 0)
    if t.fmt = 0x4 then accInt g k true (intElem f t i) else accFloat g k true (elemNum f t i)) f

/-- `vx.aacc`: a tensor added into covered words (R63, R64, R85, R97). -/
def aaccEng (rd rs1 : Nat) (f : Facet) : Eng :=
  match descAt f rd with
  | none => .cause 0x03 0
  | some t =>
    let c := ctlOf (getX f rs1)
    if !(accShape t c) then .cause 0x04 (getX f rs1).toNat
    else if 2048 < c.row + c.m then .cause 0x06 (getX f rs1).toNat
    else if tensorBad f t || accBad f c then .cause 0x09 (poisonAt f t.reads (accBadRow f c))
    else .good (accAdd f t c)

/-- An instruction of three descriptor registers. -/
def runVec2 (op : VOp) (site : Nat) (rd rs1 rs2 : BitVec 5) (s : State) : State :=
  runEngine s site (dReg rd && dReg rs1 && dReg rs2) [] (fun f => feet f [rd.toNat, rs1.toNat, rs2.toNat]) (vec2Eng op rd.toNat rs1.toNat rs2.toNat)

/-- An instruction of two descriptor registers. -/
def runVec1 (g : Nat → Nat → Facet → Eng) (site : Nat) (rd rs1 : BitVec 5) (s : State) : State :=
  runEngine s site (dReg rd && dReg rs1) [] (fun f => feet f [rd.toNat, rs1.toNat]) (g rd.toNat rs1.toNat)

/-- `VX_ADD` (R97). -/
def execVxAdd (site : Nat) (rd rs1 rs2 : BitVec 5) (s : State) : Res := ok (runVec2 .add site rd rs1 rs2 s)

/-- `VX_SUB` (R97). -/
def execVxSub (site : Nat) (rd rs1 rs2 : BitVec 5) (s : State) : Res := ok (runVec2 .sub site rd rs1 rs2 s)

/-- `VX_MUL` (R97). -/
def execVxMul (site : Nat) (rd rs1 rs2 : BitVec 5) (s : State) : Res := ok (runVec2 .mul site rd rs1 rs2 s)

/-- `VX_MAX` (R97). -/
def execVxMax (site : Nat) (rd rs1 rs2 : BitVec 5) (s : State) : Res := ok (runVec2 .max site rd rs1 rs2 s)

/-- `VX_MIN` (R97). -/
def execVxMin (site : Nat) (rd rs1 rs2 : BitVec 5) (s : State) : Res := ok (runVec2 .min site rd rs1 rs2 s)

/-- `VX_CVT` (R100). -/
def execVxCvt (site : Nat) (rd rs1 : BitVec 5) (s : State) : Res := ok (runVec1 cvtVecEng site rd rs1 s)

/-- `VX_RELU` (R97). -/
def execVxRelu (site : Nat) (rd rs1 : BitVec 5) (s : State) : Res := ok (runVec1 (vec1Eng .relu) site rd rs1 s)

/-- `VX_EXP2` (R98). -/
def execVxExp2 (site : Nat) (rd rs1 : BitVec 5) (s : State) : Res := ok (runVec1 (vec1Eng .exp2) site rd rs1 s)

/-- `VX_RCP` (R98). -/
def execVxRcp (site : Nat) (rd rs1 : BitVec 5) (s : State) : Res := ok (runVec1 (vec1Eng .rcp) site rd rs1 s)

/-- `VX_RSQ` (R98). -/
def execVxRsq (site : Nat) (rd rs1 : BitVec 5) (s : State) : Res := ok (runVec1 (vec1Eng .rsq) site rd rs1 s)

/-- `VX_ADDS` (R97). -/
def execVxAdds (site : Nat) (rd rs1 rs2 : BitVec 5) (s : State) : Res :=
  ok (runEngine s site (dReg rd && dReg rs1) [rs2.toNat] (fun f => feet f [rd.toNat, rs1.toNat]) (vecSEng .add rd.toNat rs1.toNat rs2.toNat))

/-- `VX_MULS` (R97). -/
def execVxMuls (site : Nat) (rd rs1 rs2 : BitVec 5) (s : State) : Res :=
  ok (runEngine s site (dReg rd && dReg rs1) [rs2.toNat] (fun f => feet f [rd.toNat, rs1.toNat]) (vecSEng .mul rd.toNat rs1.toNat rs2.toNat))

/-- `VX_RSUM` (R97). -/
def execVxRsum (site : Nat) (rd rs1 : BitVec 5) (s : State) : Res := ok (runVec1 (reduceEng true) site rd rs1 s)

/-- `VX_RMAX` (R97). -/
def execVxRmax (site : Nat) (rd rs1 : BitVec 5) (s : State) : Res := ok (runVec1 (reduceEng false) site rd rs1 s)

/-- `VX_ALD` (R63). -/
def execVxAld (site : Nat) (rd rs1 : BitVec 5) (s : State) : Res :=
  ok (runEngine s site (dReg rd) [rs1.toNat] (fun f => feet f [rd.toNat]) (aldEng rd.toNat rs1.toNat))

/-- `VX_AACC` (R63). -/
def execVxAacc (site : Nat) (rd rs1 : BitVec 5) (s : State) : Res :=
  ok (runEngine s site (dReg rd) [rs1.toNat] (fun f => feet f [rd.toNat]) (aaccEng rd.toNat rs1.toNat))

end Sys2Proof.Machine
end

