-- ==== Sys2Proof/Machine/Sequencer.lean ====
section
/-! DEFINITION. The Facet sequencer: RV32I with M, C and Zicsr (R40, R41), the extension registers (R55), the custom opcodes
(R57, R58, R63, R65) and the end of a program (R44). What a base instruction computes is the RISC-V unprivileged
specification's (log entry 13). -/

namespace Sys2Proof.Machine

/-! ## Fetch (R41, R42, R71) -/

/-- What a fetch at the pc comes to: the cause that it raises, or the instruction's bits and length. -/
inductive Fetched where
  | cause (code addr : Nat)
  | bits (w len : Nat)
  deriving DecidableEq, Repr

/-- Halfword bits at an address of the program region. -/
def fetchAt (f : Facet) (a : Nat) : Nat := ofBytes (lsRead f a 2)

/-- An address of `n` bytes lies in the program region. -/
def inProg (f : Facet) (a n : Nat) : Bool := decide ((progRange f).1 ≤ a) && decide (a + n ≤ (progRange f).1 + (progRange f).2)

/-- The fetch at the pc (R41): outside the program region `FX_ADDRESS`, from a poisoned line `FX_FETCH`. -/
def fetch (f : Facet) : Fetched :=
  let a := f.pc.toNat
  if !(inProg f a 2) then .cause 0x02 a
  else if lsBad f a then .cause 0x0B a
  else
    let lo := fetchAt f a
    if lo % 4 ≠ 3 then .bits lo 2
    else if !(inProg f (a + 2) 2) then .cause 0x02 (a + 2)
    else if lsBad f (a + 2) then .cause 0x0B (a + 2)
    else .bits (lo + 65536 * fetchAt f (a + 2)) 4

/-! ## Compressed instructions as the word they stand for -/

/-- An I-type word. -/
def wordI (imm rs1 f3 rd op : Nat) : Nat := pack [(20, 12, imm), (15, 5, rs1), (12, 3, f3), (7, 5, rd), (0, 7, op)]

/-- An R-type word. -/
def wordR (f7 rs2 rs1 f3 rd op : Nat) : Nat := pack [(25, 7, f7), (20, 5, rs2), (15, 5, rs1), (12, 3, f3), (7, 5, rd), (0, 7, op)]

/-- A store word. -/
def wordS (imm rs2 rs1 : Nat) : Nat :=
  pack [(25, 7, imm / 32), (20, 5, rs2), (15, 5, rs1), (12, 3, 2), (7, 5, imm % 32), (0, 7, 0x23)]

/-- A jump-and-link word. -/
def wordJ (imm rd : Nat) : Nat :=
  pack [(31, 1, nbits imm 20 1), (21, 10, nbits imm 1 10), (20, 1, nbits imm 11 1), (12, 8, nbits imm 12 8), (7, 5, rd), (0, 7, 0x6F)]

/-- A branch word. -/
def wordB (imm rs2 rs1 f3 : Nat) : Nat :=
  pack [(31, 1, nbits imm 12 1), (25, 6, nbits imm 5 6), (20, 5, rs2), (15, 5, rs1), (12, 3, f3), (8, 4, nbits imm 1 4),
    (7, 1, nbits imm 11 1), (0, 7, 0x63)]

/-- The six-bit immediate of a compressed word, sign-extended to 32 bits. -/
def cImm (h : Nat) : Nat := lowBits 32 (sgn 6 (nbits h 2 5 + 32 * nbits h 12 1))

/-- The offset of `c.j` and `c.jal`. -/
def cJump (h : Nat) : Nat :=
  lowBits 32 (sgn 12 (pack [(11, 1, nbits h 12 1), (4, 1, nbits h 11 1), (8, 2, nbits h 9 2), (10, 1, nbits h 8 1), (6, 1, nbits h 7 1),
    (7, 1, nbits h 6 1), (1, 3, nbits h 3 3), (5, 1, nbits h 2 1)]))

/-- The offset of `c.beqz` and `c.bnez`. -/
def cBranch (h : Nat) : Nat :=
  lowBits 32 (sgn 9 (pack [(8, 1, nbits h 12 1), (3, 2, nbits h 10 2), (6, 2, nbits h 5 2), (1, 2, nbits h 3 2), (5, 1, nbits h 2 1)]))

/-- Quadrant 0. -/
def expand0 (h : Nat) : Option Nat :=
  let rd := 8 + nbits h 2 3
  let rs := 8 + nbits h 7 3
  let off := pack [(3, 3, nbits h 10 3), (2, 1, nbits h 6 1), (6, 1, nbits h 5 1)]
  match nbits h 13 3 with
  | 0 =>
    let imm := pack [(4, 2, nbits h 11 2), (6, 4, nbits h 7 4), (2, 1, nbits h 6 1), (3, 1, nbits h 5 1)]
    if imm = 0 then none else some (wordI imm 2 0 rd 0x13)
  | 2 => some (wordI off rs 2 rd 0x03)
  | 6 => some (wordS off rd rs)
  | _ => none

/-- The arithmetic group of quadrant 1. -/
def expand1a (h : Nat) : Option Nat :=
  let rd := 8 + nbits h 7 3
  let rs := 8 + nbits h 2 3
  match nbits h 10 2 with
  | 0 => if nbit h 12 then none else some (wordI (nbits h 2 5) rd 5 rd 0x13)
  | 1 => if nbit h 12 then none else some (wordI (0x400 + nbits h 2 5) rd 5 rd 0x13)
  | 2 => some (wordI (cImm h) rd 7 rd 0x13)
  | _ =>
    if nbit h 12 then none
    else match nbits h 5 2 with
      | 0 => some (wordR 0x20 rs rd 0 rd 0x33)
      | 1 => some (wordR 0 rs rd 4 rd 0x33)
      | 2 => some (wordR 0 rs rd 6 rd 0x33)
      | _ => some (wordR 0 rs rd 7 rd 0x33)

/-- Quadrant 1. -/
def expand1 (h : Nat) : Option Nat :=
  let rd := nbits h 7 5
  match nbits h 13 3 with
  | 0 => some (wordI (cImm h) rd 0 rd 0x13)
  | 1 => some (wordJ (cJump h) 1)
  | 2 => some (wordI (cImm h) 0 0 rd 0x13)
  | 3 =>
    if nbits h 2 5 + 32 * nbits h 12 1 = 0 then none
    else if rd = 2 then
      some (wordI (lowBits 12 (sgn 10 (pack [(9, 1, nbits h 12 1), (4, 1, nbits h 6 1), (6, 1, nbits h 5 1), (7, 2, nbits h 3 2), (5, 1, nbits h 2 1)]))) 2 0 2 0x13)
    else some (pack [(12, 20, cImm h), (7, 5, rd), (0, 7, 0x37)])
  | 4 => expand1a h
  | 5 => some (wordJ (cJump h) 0)
  | 6 => some (wordB (cBranch h) 0 (8 + nbits h 7 3) 0)
  | _ => some (wordB (cBranch h) 0 (8 + nbits h 7 3) 1)

/-- Quadrant 2. -/
def expand2 (h : Nat) : Option Nat :=
  let rd := nbits h 7 5
  let rs2 := nbits h 2 5
  match nbits h 13 3 with
  | 0 => if nbit h 12 then none else some (wordI rs2 rd 1 rd 0x13)
  | 2 => if rd = 0 then none else some (wordI (pack [(5, 1, nbits h 12 1), (2, 3, nbits h 4 3), (6, 2, nbits h 2 2)]) 2 2 rd 0x03)
  | 4 =>
    if !(nbit h 12) then
      (if rs2 ≠ 0 then some (wordR 0 rs2 0 0 rd 0x33) else if rd = 0 then none else some (wordI 0 rd 0 0 0x67))
    else if rs2 ≠ 0 then some (wordR 0 rs2 rd 0 rd 0x33)
    else if rd = 0 then some 0x00100073
    else some (wordI 0 rd 0 1 0x67)
  | 6 => some (wordS (pack [(2, 4, nbits h 9 4), (6, 2, nbits h 7 2)]) rs2 2)
  | _ => none

/-- The 32-bit word that a 16-bit instruction stands for; none where the encoding is not in RV32C. -/
def expand16 (h : Nat) : Option Nat :=
  match h % 4 with
  | 0 => expand0 h
  | 1 => expand1 h
  | _ => expand2 h

/-! ## Arithmetic of RV32I and M -/

/-- One of the eight register operations with a second operand; `alt` selects `sub` and `sra`. -/
def aluOp (f3 : Nat) (alt : Bool) (a b : Word) : Word :=
  match f3 with
  | 0 => if alt then a - b else a + b
  | 1 => a <<< (b.toNat % 32)
  | 2 => if a.toInt < b.toInt then 1 else 0
  | 3 => if a.toNat < b.toNat then 1 else 0
  | 4 => a ^^^ b
  | 5 => if alt then a.sshiftRight (b.toNat % 32) else a >>> (b.toNat % 32)
  | 6 => a ||| b
  | _ => a &&& b

/-- A multiplication or division. -/
def mulOp (f3 : Nat) (a b : Word) : Word :=
  match f3 with
  | 0 => a * b
  | 1 => BitVec.ofInt 32 (a.toInt * b.toInt / 2 ^ 32)
  | 2 => BitVec.ofInt 32 (a.toInt * b.toNat / 2 ^ 32)
  | 3 => BitVec.ofNat 32 (a.toNat * b.toNat / 2 ^ 32)
  | 4 => if b = 0 then BitVec.allOnes 32 else BitVec.ofInt 32 (a.toInt.tdiv b.toInt)
  | 5 => if b = 0 then BitVec.allOnes 32 else BitVec.ofNat 32 (a.toNat / b.toNat)
  | 6 => if b = 0 then a else BitVec.ofInt 32 (a.toInt.tmod b.toInt)
  | _ => if b = 0 then a else BitVec.ofNat 32 (a.toNat % b.toNat)

/-- The condition of a branch. -/
def branchTaken (f3 : Nat) (a b : Word) : Bool :=
  match f3 with
  | 0 => a == b
  | 1 => a != b
  | 4 => decide (a.toInt < b.toInt)
  | 5 => decide (b.toInt ≤ a.toInt)
  | 6 => decide (a.toNat < b.toNat)
  | _ => decide (b.toNat ≤ a.toNat)

/-- The instruction after one of `len` bytes, with `rd` written. -/
def goOn (f : Facet) (len rd : Nat) (v : Word) : Facet := { setX f rd v with pc := f.pc + BitVec.ofNat 32 len }

/-! ## Loads and stores (R41, R42, R74) -/

/-- A load of `n` bytes (R41): words only from the accumulator store; poison is consumed (R74). -/
def loadEng (f : Facet) (len rd f3 a : Nat) : Eng :=
  let n := 2 ^ (f3 % 4)
  if a % n ≠ 0 then .cause 0x02 a
  else if a + n ≤ 0x300000 then
    if lsBad f a then .cause 0x09 a
    else
      let v := ofBytes (lsRead f a n)
      .good (goOn f len rd (if f3 < 4 then BitVec.ofInt 32 (sgn (8 * n) v) else BitVec.ofNat 32 v))
  else if 0x400000 ≤ a && a < 0x480000 && n = 4 then
    if tget f.accPoison ((a - 0x400000) / 4) false then .cause 0x09 a
    else .good (goOn f len rd (accWord f ((a - 0x400000) / 4)))
  else .cause 0x02 a

/-- A store of `n` bytes (R41, R42). -/
def storeEng (f : Facet) (len f3 a : Nat) (v : Word) : Eng :=
  let n := 2 ^ f3
  let next (g : Facet) : Facet := { g with pc := f.pc + BitVec.ofNat 32 len }
  if a % n ≠ 0 then .cause 0x02 a
  else if a + n ≤ 0x300000 then
    if inProtected f a n then .cause 0x02 a else .good (next (lsWrite f a (toBytes n v.toNat)))
  else if 0x400000 ≤ a && a < 0x480000 && n = 4 then .good (next (accPut f ((a - 0x400000) / 4) v))
  else .cause 0x02 a

/-! ## Extension registers (R55) -/

/-- A read of an extension register at a Gnomon time by the program on a site: its value and the Facet after the read;
none for a number that is not one of them. -/
def csrRead (f : Facet) (site now csr : Nat) : Option (Word × Facet) :=
  match csr with
  | 0x800 => some (BitVec.ofNat 32 f.home, f)
  | 0x801 => some (BitVec.ofNat 32 site, f)
  | 0x802 => some (BitVec.ofNat 32 f.sector, f)
  | 0x803 => some (BitVec.ofNat 32 f.ring, f)
  | 0x804 => some (BitVec.ofNat 32 f.prog, f)
  | 0x806 => some (BitVec.ofNat 32 now, { f with timeh := BitVec.ofNat 32 (now / 2 ^ 32) })
  | 0x807 => some (f.timeh, f)
  | 0x808 => some (BitVec.ofNat 32 (f.nanc * 65536 + f.satc), { f with nanc := 0, satc := 0 })
  | _ => none

/-- A CSR instruction: a read of an extension register; a write, or another CSR, is `FX_ILLEGAL` (R40, R55, R71). -/
def csrEng (f : Facet) (site now len rd f3 rs1 csr : Nat) : Eng :=
  if f3 % 4 = 1 || rs1 ≠ 0 then .cause 0x01 0
  else match csrRead f site now csr with
    | none => .cause 0x01 0
    | some (v, g) => .good (goOn g len rd v)

/-! ## Base instructions -/

/-- The I-type immediate. -/
def immI (w : Nat) : Word := BitVec.ofInt 32 (sgn 12 (nbits w 20 12))

/-- The branch offset. -/
def immB (w : Nat) : Word :=
  BitVec.ofInt 32 (sgn 13 (pack [(12, 1, nbits w 31 1), (11, 1, nbits w 7 1), (5, 6, nbits w 25 6), (1, 4, nbits w 8 4)]))

/-- The jump offset. -/
def immJ (w : Nat) : Word :=
  BitVec.ofInt 32 (sgn 21 (pack [(20, 1, nbits w 31 1), (12, 8, nbits w 12 8), (11, 1, nbits w 20 1), (1, 10, nbits w 21 10)]))

/-- A base instruction of `len` bytes as its 32-bit word, `ecall` and `ebreak` apart. Log entry 13 (PRESUMED). -/
def baseEng (f : Facet) (site now w len : Nat) : Eng :=
  let rd := nbits w 7 5
  let f3 := nbits w 12 3
  let a := getX f (nbits w 15 5)
  let b := getX f (nbits w 20 5)
  let f7 := nbits w 25 7
  match w % 128 with
  | 0x37 => .good (goOn f len rd (BitVec.ofNat 32 (w / 4096 * 4096)))
  | 0x17 => .good (goOn f len rd (f.pc + BitVec.ofNat 32 (w / 4096 * 4096)))
  | 0x6F => .good { setX f rd (f.pc + BitVec.ofNat 32 len) with pc := f.pc + immJ w }
  | 0x67 =>
    if f3 ≠ 0 then .cause 0x01 0
    else .good { setX f rd (f.pc + BitVec.ofNat 32 len) with pc := (a + immI w) &&& ~~~1 }
  | 0x63 =>
    if f3 = 2 || f3 = 3 then .cause 0x01 0
    else .good { f with pc := if branchTaken f3 a b then f.pc + immB w else f.pc + BitVec.ofNat 32 len }
  | 0x03 => if f3 = 3 || 5 < f3 then .cause 0x01 0 else loadEng f len rd f3 (a + immI w).toNat
  | 0x23 =>
    if 2 < f3 then .cause 0x01 0
    else storeEng f len f3 (a + BitVec.ofInt 32 (sgn 12 (nbits w 7 5 + 32 * f7))).toNat b
  | 0x13 =>
    if (f3 = 1 && f7 ≠ 0) || (f3 = 5 && f7 ≠ 0 && f7 ≠ 0x20) then .cause 0x01 0
    else .good (goOn f len rd (aluOp f3 (f3 = 5 && f7 = 0x20) a (immI w)))
  | 0x33 =>
    if f7 = 1 then .good (goOn f len rd (mulOp f3 a b))
    else if f7 = 0 then .good (goOn f len rd (aluOp f3 false a b))
    else if f7 = 0x20 && (f3 = 0 || f3 = 5) then .good (goOn f len rd (aluOp f3 true a b))
    else .cause 0x01 0
  | 0x0F => if f3 = 0 then .good (goOn f len 0 0) else .cause 0x01 0
  | 0x73 => if f3 = 0 || f3 = 4 then .cause 0x01 0 else csrEng f site now len rd f3 (nbits w 15 5) (nbits w 20 12)
  | _ => .cause 0x01 0

/-- Registers that a base instruction reads. -/
def baseRegs (w : Nat) : List Nat :=
  let rs1 := nbits w 15 5
  let rs2 := nbits w 20 5
  match w % 128 with
  | 0x63 => [rs1, rs2]
  | 0x23 => [rs1, rs2]
  | 0x33 => [rs1, rs2]
  | 0x37 => []
  | 0x17 => []
  | 0x6F => []
  | 0x0F => []
  | 0x73 => []
  | _ => [rs1]

/-- Local store that a base instruction touches. -/
def baseFeet (f : Facet) (w : Nat) : List (Nat × Nat) :=
  let a := getX f (nbits w 15 5)
  match w % 128 with
  | 0x03 => [((a + immI w).toNat, 2 ^ (nbits w 12 2))]
  | 0x23 => [((a + BitVec.ofInt 32 (sgn 12 (nbits w 7 5 + 32 * nbits w 25 7))).toNat, 2 ^ (nbits w 12 2))]
  | _ => []

/-! ## The end of a program (R44) and the debugger (R71, R410) -/

/-- `ecall` (R44): with a7 zero the program ends; any other value is `FX_ILLEGAL`. -/
def ecallRun (s : State) (site : Nat) : State :=
  let f := s.facet site
  if !(runs s site) || stalls f [17] [] then s
  else if getX f 17 ≠ 0 then raise s site 0x01 0
  else s.setFacet site { f with run := .ended }

/-- `ECALL` (R44). -/
def execEcall (site : Nat) (s : State) : Res := ok (ecallRun s site)

/-- `ebreak`: `FX_ILLEGAL` with no debugger attached (R71); a debugger that has written to this step's main copy
is attached, and the copy halts (log entry 14). -/
def ebreakRun (s : State) (site : Nat) : State :=
  let f := s.facet site
  if f.debugLog.isEmpty || (f.step.map Step.checker).getD true then raise s site 0x01 0
  else s.setFacet site { f with halted := true }

/-! ## Custom opcodes (R57, R58, R63, R65) -/

/-- `lx.` and `wn.` (R58); none for a reserved encoding or a used field that must be zero. -/
def custom0 (w : Nat) : Option (Nat → State → Res) :=
  let rd := BitVec.ofNat 5 (nbits w 7 5)
  let r1 := BitVec.ofNat 5 (nbits w 15 5)
  let r2 := BitVec.ofNat 5 (nbits w 20 5)
  match nbits w 12 3, nbits w 25 7 with
  | 0, 0 => if r2 = 0 then some (execLxDld · rd r1) else none
  | 0, 1 => if rd = 0 then some (execLxDst · r1 r2) else none
  | 0, 2 => if r2 = 0 then some (execLxDbase · rd r1) else none
  | 1, 0 => if rd = 0 && r2 = 0 then some (execLxWld · r1) else none
  | 2, 0 => some (execLxMm · rd r1 r2)
  | 3, 0 => some (execLxDg · rd r1 r2)
  | 4, 0 => some (execLxCvt · rd r1 r2)
  | 5, 0 => if rd = 0 then some (execLxAcz · r1 r2) else none
  | 6, 0 => some (execWnMax · rd r1 r2)
  | 6, 1 => some (execWnAvg · rd r1 r2)
  | _, _ => none

/-- `vx.` (R63). -/
def custom1 (w : Nat) : Option (Nat → State → Res) :=
  let rd := BitVec.ofNat 5 (nbits w 7 5)
  let r1 := BitVec.ofNat 5 (nbits w 15 5)
  let r2 := BitVec.ofNat 5 (nbits w 20 5)
  let one (g : Nat → BitVec 5 → BitVec 5 → State → Res) : Option (Nat → State → Res) := if r2 = 0 then some (g · rd r1) else none
  match nbits w 12 3, nbits w 25 7 with
  | 0, 0 => some (execVxAdd · rd r1 r2)
  | 0, 1 => some (execVxSub · rd r1 r2)
  | 0, 2 => some (execVxMul · rd r1 r2)
  | 0, 3 => some (execVxMax · rd r1 r2)
  | 0, 4 => some (execVxMin · rd r1 r2)
  | 1, 0 => one execVxCvt
  | 1, 1 => one execVxRelu
  | 1, 2 => one execVxExp2
  | 1, 3 => one execVxRcp
  | 1, 4 => one execVxRsq
  | 2, 0 => some (execVxAdds · rd r1 r2)
  | 2, 1 => some (execVxMuls · rd r1 r2)
  | 3, 0 => one execVxRsum
  | 3, 1 => one execVxRmax
  | 4, 0 => one execVxAld
  | 4, 1 => one execVxAacc
  | _, _ => none

/-- `dm.`, `ms.` and `vt.` (R65). -/
def custom2 (w : Nat) : Option (Nat → State → Res) :=
  let rd := BitVec.ofNat 5 (nbits w 7 5)
  let r1 := BitVec.ofNat 5 (nbits w 15 5)
  let r2 := BitVec.ofNat 5 (nbits w 20 5)
  let ch := BitVec.ofNat 4 (nbits w 25 4)
  let mover (g : Nat → BitVec 4 → BitVec 5 → BitVec 5 → State → Res) : Option (Nat → State → Res) :=
    if nbits w 29 3 = 0 && r2 = 0 then some (g · ch rd r1) else none
  match nbits w 12 3, nbits w 25 7 with
  | 0, _ => mover execDmGet
  | 1, _ => mover execDmPut
  | 2, 0 => if rd = 0 && r2 = 0 then some (execDmWait · r1) else none
  | 3, _ => mover execDmKv
  | 4, 0 => if rd = 0 && r2 = 0 then some (execMsSend · r1) else none
  | 4, 1 => if r1 = 0 && r2 = 0 then some (execMsRecv · rd) else none
  | 4, 2 => if r1 = 0 && r2 = 0 then some (execMsPoll · rd) else none
  | 4, 3 => if rd = 0 && r1 = 0 && r2 = 0 then some (execMsAck ·) else none
  | 5, 0 => some (execVtPostInsn · rd r1 r2)
  | 5, 1 => some (execVtSetInsn · rd r1 r2)
  | 5, 2 => if r2 = 0 then some (execVtRead · rd r1) else none
  | 5, 3 => if r2 = 0 then some (execVtWatchInsn · rd r1) else none
  | 5, 4 => if r2 = 0 then some (execVtBar · rd r1) else none
  | _, _ => none

/-- The meaning of an extension word (R57); none where its encoding is reserved. -/
def customOp (w : Nat) : Option (Nat → State → Res) :=
  match w % 128 with
  | 0x0B => custom0 w
  | 0x2B => custom1 w
  | 0x5B => custom2 w
  | _ => none

/-- The instruction at the pc of a site: fetched, and executed (R40, R41, R57). -/
def sequencerRun (s : State) (site : Nat) : Res :=
  let f := s.facet site
  if !(runs s site) then ok s
  else match fetch f with
    | .cause c a => ok (raise s site c a)
    | .bits w len =>
      match (if len = 2 then expand16 w else some w) with
      | none => ok (raise s site 0x01 0)
      | some v =>
        match customOp v with
        | some g => g site s
        | none =>
          if v = 0x00000073 then ok (ecallRun s site)
          else if v = 0x00100073 then ok (ebreakRun s site)
          else if stalls f (baseRegs v) (baseFeet f v) then ok s
          else match baseEng f site s.now v len with
            | .cause c o => ok (raise s site c o)
            | .good g => ok (s.setFacet site g)

/-- `SEQUENCER_INSTRUCTION` (R40). -/
def execSequencerInstruction (site : Nat) (s : State) : Res := sequencerRun s site

/-- A CSR read by the program of a site (R55). -/
def csrRun (s : State) (site csr : Nat) (rd : BitVec 5) : State :=
  let f := s.facet site
  if !(runs s site) || stalls f [] [] then s
  else match csrEng f site s.now 4 rd.toNat 2 0 csr with
    | .cause c o => raise s site c o
    | .good g => s.setFacet site g

/-- `FXSTAT_READ` (R55). -/
def execFxstatRead (site : Nat) (rd : BitVec 5) (s : State) : Res := ok (csrRun s site 0x808 rd)

/-- `FXTIME_READ` (R55). -/
def execFxtimeRead (site : Nat) (rd : BitVec 5) (s : State) : Res := ok (csrRun s site 0x806 rd)

end Sys2Proof.Machine
end

