-- ==== Sys2Proof/Machine/Dispatch.lean ====
section
/-! DEFINITION. The effect of each command on everything but the queue, one arm per row of the table. -/

namespace Sys2Proof.Machine

/-- The effect of a command. -/
def exec (i : Instr) (s : State) : Host.Outcome State Fault Refusal :=
  match i with
  | .sequencerInstruction f => Sys2Proof.Machine.execSequencerInstruction f s
  | .fxstatRead f rd => Sys2Proof.Machine.execFxstatRead f rd s
  | .fxtimeRead f rd => Sys2Proof.Machine.execFxtimeRead f rd s
  | .ecall f => Sys2Proof.Machine.execEcall f s
  | .stepComplete f => Sys2Proof.Machine.execStepComplete f s
  | .carryWriteComplete f => Sys2Proof.Machine.execCarryWriteComplete f s
  | .lxDld f rd rs1 => Sys2Proof.Machine.execLxDld f rd rs1 s
  | .lxDst f rs1 rs2 => Sys2Proof.Machine.execLxDst f rs1 rs2 s
  | .lxDbase f rd rs1 => Sys2Proof.Machine.execLxDbase f rd rs1 s
  | .lxWld f rs1 => Sys2Proof.Machine.execLxWld f rs1 s
  | .lxMm f rd rs1 rs2 => Sys2Proof.Machine.execLxMm f rd rs1 rs2 s
  | .lxDg f rd rs1 rs2 => Sys2Proof.Machine.execLxDg f rd rs1 rs2 s
  | .lxCvt f rd rs1 rs2 => Sys2Proof.Machine.execLxCvt f rd rs1 rs2 s
  | .lxAcz f rs1 rs2 => Sys2Proof.Machine.execLxAcz f rs1 rs2 s
  | .wnMax f rd rs1 rs2 => Sys2Proof.Machine.execWnMax f rd rs1 rs2 s
  | .wnAvg f rd rs1 rs2 => Sys2Proof.Machine.execWnAvg f rd rs1 rs2 s
  | .vxAdd f rd rs1 rs2 => Sys2Proof.Machine.execVxAdd f rd rs1 rs2 s
  | .vxSub f rd rs1 rs2 => Sys2Proof.Machine.execVxSub f rd rs1 rs2 s
  | .vxMul f rd rs1 rs2 => Sys2Proof.Machine.execVxMul f rd rs1 rs2 s
  | .vxMax f rd rs1 rs2 => Sys2Proof.Machine.execVxMax f rd rs1 rs2 s
  | .vxMin f rd rs1 rs2 => Sys2Proof.Machine.execVxMin f rd rs1 rs2 s
  | .vxCvt f rd rs1 => Sys2Proof.Machine.execVxCvt f rd rs1 s
  | .vxRelu f rd rs1 => Sys2Proof.Machine.execVxRelu f rd rs1 s
  | .vxExp2 f rd rs1 => Sys2Proof.Machine.execVxExp2 f rd rs1 s
  | .vxRcp f rd rs1 => Sys2Proof.Machine.execVxRcp f rd rs1 s
  | .vxRsq f rd rs1 => Sys2Proof.Machine.execVxRsq f rd rs1 s
  | .vxAdds f rd rs1 rs2 => Sys2Proof.Machine.execVxAdds f rd rs1 rs2 s
  | .vxMuls f rd rs1 rs2 => Sys2Proof.Machine.execVxMuls f rd rs1 rs2 s
  | .vxRsum f rd rs1 => Sys2Proof.Machine.execVxRsum f rd rs1 s
  | .vxRmax f rd rs1 => Sys2Proof.Machine.execVxRmax f rd rs1 s
  | .vxAld f rd rs1 => Sys2Proof.Machine.execVxAld f rd rs1 s
  | .vxAacc f rd rs1 => Sys2Proof.Machine.execVxAacc f rd rs1 s
  | .dmGet f ch rd rs1 => Sys2Proof.Machine.execDmGet f ch rd rs1 s
  | .dmPut f ch rd rs1 => Sys2Proof.Machine.execDmPut f ch rd rs1 s
  | .dmWait f rs1 => Sys2Proof.Machine.execDmWait f rs1 s
  | .dmKv f ch rd rs1 => Sys2Proof.Machine.execDmKv f ch rd rs1 s
  | .msSend f rs1 => Sys2Proof.Machine.execMsSend f rs1 s
  | .msRecv f rd => Sys2Proof.Machine.execMsRecv f rd s
  | .msPoll f rd => Sys2Proof.Machine.execMsPoll f rd s
  | .msAck f => Sys2Proof.Machine.execMsAck f s
  | .vtPostInsn f rd rs1 rs2 => Sys2Proof.Machine.execVtPostInsn f rd rs1 rs2 s
  | .vtSetInsn f rd rs1 rs2 => Sys2Proof.Machine.execVtSetInsn f rd rs1 rs2 s
  | .vtRead f rd rs1 => Sys2Proof.Machine.execVtRead f rd rs1 s
  | .vtWatchInsn f rd rs1 => Sys2Proof.Machine.execVtWatchInsn f rd rs1 s
  | .vtBar f rd rs1 => Sys2Proof.Machine.execVtBar f rd rs1 s
  | .messageDeposit id => Sys2Proof.Machine.execMessageDeposit id s
  | .tickBoundary => Sys2Proof.Machine.execTickBoundary s
  | .sensorOutExpiry b sensor => Sys2Proof.Machine.execSensorOutExpiry b sensor s
  | .nimTelemetry => Sys2Proof.Machine.execNimTelemetry s
  | .entryDue e => Sys2Proof.Machine.execEntryDue e s
  | .entryRelease e => Sys2Proof.Machine.execEntryRelease e s
  | .replayRelease e n => Sys2Proof.Machine.execReplayRelease e n s
  | .releaseWindowClose e => Sys2Proof.Machine.execReleaseWindowClose e s
  | .budgetExpiry f => Sys2Proof.Machine.execBudgetExpiry f s
  | .stageWindowClose e n => Sys2Proof.Machine.execStageWindowClose e n s
  | .referenceFigureRun f out cause => Sys2Proof.Machine.execReferenceFigureRun f out cause s
  | .selfTestSlotStart e => Sys2Proof.Machine.execSelfTestSlotStart e s
  | .selfTestSlotEnd e => Sys2Proof.Machine.execSelfTestSlotEnd e s
  | .sliceSwitchComplete d => Sys2Proof.Machine.execSliceSwitchComplete d s
  | .rotationCopyComplete f => Sys2Proof.Machine.execRotationCopyComplete f s
  | .joinCopyComplete => Sys2Proof.Machine.execJoinCopyComplete s
  | .replayBoundExpiry e n => Sys2Proof.Machine.execReplayBoundExpiry e n s
  | .lapDeadline d => Sys2Proof.Machine.execLapDeadline d s
  | .cmdNop h => Sys2Proof.Machine.execCmdNop h s
  | .cmdFence h => Sys2Proof.Machine.execCmdFence h s
  | .engineStart hub eng => Sys2Proof.Machine.execEngineStart hub eng s
  | .windowControlWrite w core v => Sys2Proof.Machine.execWindowControlWrite w core v s
  | .responseRead hub win core => Sys2Proof.Machine.execResponseRead hub win core s
  | .handleRetire w core v => Sys2Proof.Machine.execHandleRetire w core v s
  | .registerWrite tgt value => Sys2Proof.Machine.execRegisterWrite tgt value s
  | .secCreate h => Sys2Proof.Machine.execSecCreate h s
  | .secDestroy h => Sys2Proof.Machine.execSecDestroy h s
  | .secReset h => Sys2Proof.Machine.execSecReset h s
  | .drainEnd sec => Sys2Proof.Machine.execDrainEnd sec s
  | .drainTimeout sec => Sys2Proof.Machine.execDrainTimeout sec s
  | .secInval h => Sys2Proof.Machine.execSecInval h s
  | .secDirtyStart h => Sys2Proof.Machine.execSecDirtyStart h s
  | .secDirtyHarvest h => Sys2Proof.Machine.execSecDirtyHarvest h s
  | .secDirtyStop h => Sys2Proof.Machine.execSecDirtyStop h s
  | .imgLoad h => Sys2Proof.Machine.execImgLoad h s
  | .imgUnload h => Sys2Proof.Machine.execImgUnload h s
  | .kvPoolCreate h => Sys2Proof.Machine.execKvPoolCreate h s
  | .kvPoolDestroy h => Sys2Proof.Machine.execKvPoolDestroy h s
  | .kvAlloc h => Sys2Proof.Machine.execKvAlloc h s
  | .kvMap h => Sys2Proof.Machine.execKvMap h s
  | .kvFree h => Sys2Proof.Machine.execKvFree h s
  | .kvSeqOpen h => Sys2Proof.Machine.execKvSeqOpen h s
  | .kvSeqClose h => Sys2Proof.Machine.execKvSeqClose h s
  | .kvSeqCloseFree h => Sys2Proof.Machine.execKvSeqCloseFree h s
  | .kvSeqSetGlobals h => Sys2Proof.Machine.execKvSeqSetGlobals h s
  | .kvHeldApply pool => Sys2Proof.Machine.execKvHeldApply pool s
  | .kvPageFree pool page => Sys2Proof.Machine.execKvPageFree pool page s
  | .vtAlloc h => Sys2Proof.Machine.execVtAlloc h s
  | .vtFree h => Sys2Proof.Machine.execVtFree h s
  | .vtFreeUnitApply h ix => Sys2Proof.Machine.execVtFreeUnitApply h ix s
  | .vtPost h => Sys2Proof.Machine.execVtPost h s
  | .vtSet h => Sys2Proof.Machine.execVtSet h s
  | .vtWatch h => Sys2Proof.Machine.execVtWatch h s
  | .vtUnwatch h => Sys2Proof.Machine.execVtUnwatch h s
  | .apxCreate h => Sys2Proof.Machine.execApxCreate h s
  | .apxDestroy h => Sys2Proof.Machine.execApxDestroy h s
  | .apxArrive h => Sys2Proof.Machine.execApxArrive h s
  | .schTrigger h => Sys2Proof.Machine.execSchTrigger h s
  | .schEnable h => Sys2Proof.Machine.execSchEnable h s
  | .intProbe h => Sys2Proof.Machine.execIntProbe h s
  | .strSet h => Sys2Proof.Machine.execStrSet h s
  | .strEntryWrite hub n value => Sys2Proof.Machine.execStrEntryWrite hub n value s
  | .strTx h => Sys2Proof.Machine.execStrTx h s
  | .strTxFrameSend port => Sys2Proof.Machine.execStrTxFrameSend port s
  | .peLift h => Sys2Proof.Machine.execPeLift h s
  | .peVoxel h => Sys2Proof.Machine.execPeVoxel h s
  | .asSolve h => Sys2Proof.Machine.execAsSolve h s
  | .updVerify h => Sys2Proof.Machine.execUpdVerify h s
  | .updWrite h readback => Sys2Proof.Machine.execUpdWrite h readback s
  | .attReport h => Sys2Proof.Machine.execAttReport h s
  | .calRecWrite hub b sensor value => Sys2Proof.Machine.execCalRecWrite hub b sensor value s
  | .fusBindWrite hub b value => Sys2Proof.Machine.execFusBindWrite hub b value s
  | .pxModeWrite hub v => Sys2Proof.Machine.execPxModeWrite hub v s
  | .devRequestOperational hub => Sys2Proof.Machine.execDevRequestOperational hub s
  | .devRequestConfig hub => Sys2Proof.Machine.execDevRequestConfig hub s
  | .bsSvnCommit hub v => Sys2Proof.Machine.execBsSvnCommit hub v s
  | .bsKeyRevoke hub v => Sys2Proof.Machine.execBsKeyRevoke hub v s
  | .bsAxKey hub via slot value => Sys2Proof.Machine.execBsAxKey hub via slot value s
  | .bsRecData hub value => Sys2Proof.Machine.execBsRecData hub value s
  | .bsRecCmdVerify hub => Sys2Proof.Machine.execBsRecCmdVerify hub s
  | .bsRecCmdFlash hub readback => Sys2Proof.Machine.execBsRecCmdFlash hub readback s
  | .bsRecCmdDiscard hub => Sys2Proof.Machine.execBsRecCmdDiscard hub s
  | .nimAck hub ring q => Sys2Proof.Machine.execNimAck hub ring q s
  | .nimRetransmit hub => Sys2Proof.Machine.execNimRetransmit hub s
  | .gwQbvWrite n value => Sys2Proof.Machine.execGwQbvWrite n value s
  | .gateListSwitch n => Sys2Proof.Machine.execGateListSwitch n s
  | .axbelRead hub src pdu => Sys2Proof.Machine.execAxbelRead hub src pdu s
  | .axbelWrite hub src pdu => Sys2Proof.Machine.execAxbelWrite hub src pdu s
  | .axbelEcho hub src pdu => Sys2Proof.Machine.execAxbelEcho hub src pdu s
  | .meridianCountersign hub id => Sys2Proof.Machine.execMeridianCountersign hub id s
  | .countersignTimeout id => Sys2Proof.Machine.execCountersignTimeout id s
  | .i3cPrivateRead hub maxlen => Sys2Proof.Machine.execI3cPrivateRead hub maxlen s
  | .i3cCcc hub ccc => Sys2Proof.Machine.execI3cCcc hub ccc s
  | .i3cIbi hub ack => Sys2Proof.Machine.execI3cIbi hub ack s
  | .flitReceive link dir flit => Sys2Proof.Machine.execFlitReceive link dir flit s
  | .nakTimeout link dir => Sys2Proof.Machine.execNakTimeout link dir s
  | .ackTimeout link dir => Sys2Proof.Machine.execAckTimeout link dir s
  | .moduleTrainedStateLost link => Sys2Proof.Machine.execModuleTrainedStateLost link s
  | .linkTrainingDone link result peer => Sys2Proof.Machine.execLinkTrainingDone link result peer s
  | .wr q tileOk => Sys2Proof.Machine.execWr q tileOk s
  | .rd q found => Sys2Proof.Machine.execRd q found s
  | .mask m bits => Sys2Proof.Machine.execMask m bits s
  | .rret q tileOk => Sys2Proof.Machine.execRret q tileOk s
  | .rderr q cause => Sys2Proof.Machine.execRderr q cause s
  | .wack q => Sys2Proof.Machine.execWack q s
  | .msg id => Sys2Proof.Machine.execMsg id s
  | .fwd h => Sys2Proof.Machine.execFwd h s
  | .vop tag => Sys2Proof.Machine.execVop tag s
  | .vrsp tag => Sys2Proof.Machine.execVrsp tag s
  | .evt m line => Sys2Proof.Machine.execEvt m line s
  | .signatureRecord unit r => Sys2Proof.Machine.execSignatureRecord unit r s
  | .faultRecord hub r => Sys2Proof.Machine.execFaultRecord hub r s
  | .faultRecordForward hub r => Sys2Proof.Machine.execFaultRecordForward hub r s
  | .scopeReady sc => Sys2Proof.Machine.execScopeReady sc s
  | .meridianComparatorFault hub => Sys2Proof.Machine.execMeridianComparatorFault hub s
  | .gnomonTickMismatch => Sys2Proof.Machine.execGnomonTickMismatch s
  | .pllLossOfLock domain => Sys2Proof.Machine.execPllLossOfLock domain s
  | .pwrgdAssert => Sys2Proof.Machine.execPwrgdAssert s
  | .pwrgdDeassert => Sys2Proof.Machine.execPwrgdDeassert s
  | .rstinNAssert lowNs => Sys2Proof.Machine.execRstinNAssert lowNs s
  | .rstinNDeassert => Sys2Proof.Machine.execRstinNDeassert s
  | .dieLeavesReset seat wrong => Sys2Proof.Machine.execDieLeavesReset seat wrong s
  | .firmwareImageVerify hub flash => Sys2Proof.Machine.execFirmwareImageVerify hub flash s
  | .hubImageExchange => Sys2Proof.Machine.execHubImageExchange s
  | .stackTrainingDone n ok coreFault lanes devId wrong => Sys2Proof.Machine.execStackTrainingDone n ok coreFault lanes devId wrong s
  | .trstNAssert lowNs => Sys2Proof.Machine.execTrstNAssert lowNs s
  | .debugHalt f => Sys2Proof.Machine.execDebugHalt f s
  | .debugLocalStoreWrite f addr data => Sys2Proof.Machine.execDebugLocalStoreWrite f addr data s
  | .regulatorWindow => Sys2Proof.Machine.execRegulatorWindow s
  | .panicEnter ix level => Sys2Proof.Machine.execPanicEnter ix level s
  | .panicExit ix level => Sys2Proof.Machine.execPanicExit ix level s
  | .panicSustained ix => Sys2Proof.Machine.execPanicSustained ix s
  | .memctlIssue n pc => Sys2Proof.Machine.execMemctlIssue n pc s
  | .refresh n pc bank => Sys2Proof.Machine.execRefresh n pc bank s
  | .actTableClear n pc bank => Sys2Proof.Machine.execActTableClear n pc bank s
  | .rowIdleClose n pc bank => Sys2Proof.Machine.execRowIdleClose n pc bank s
  | .scrubRead st found word => Sys2Proof.Machine.execScrubRead st found word s
  | .correctiveWriteBack st addr => Sys2Proof.Machine.execCorrectiveWriteBack st addr s
  | .remapCopy st addr => Sys2Proof.Machine.execRemapCopy st addr s
  | .scrubLapLimit st => Sys2Proof.Machine.execScrubLapLimit st s
  | .frameStart port vc fnum => Sys2Proof.Machine.execFrameStart port vc fnum s
  | .longPacket port p => Sys2Proof.Machine.execLongPacket port p s
  | .lineStart port vc => Sys2Proof.Machine.execLineStart port vc s
  | .lineEnd port vc => Sys2Proof.Machine.execLineEnd port vc s
  | .frameEnd port vc => Sys2Proof.Machine.execFrameEnd port vc s
  | .frameTimeout entry => Sys2Proof.Machine.execFrameTimeout entry s
  | .frameRecordFinal entry => Sys2Proof.Machine.execFrameRecordFinal entry s
  | .ethFrameReceive hub dest src rest => Sys2Proof.Machine.execEthFrameReceive hub dest src rest s
  | .txQueueScan hub q => Sys2Proof.Machine.execTxQueueScan hub q s
  | .ethTxComplete hub q status => Sys2Proof.Machine.execEthTxComplete hub q status s
  | .ptpSync hub t0 ratio => Sys2Proof.Machine.execPtpSync hub t0 ratio s
  | .canFrameReceive c fr => Sys2Proof.Machine.execCanFrameReceive c fr s
  | .canFrameTransmit c => Sys2Proof.Machine.execCanFrameTransmit c s
  | .bridgeTransitExpiry b => Sys2Proof.Machine.execBridgeTransitExpiry b s
  | .powerSample split => Sys2Proof.Machine.execPowerSample split s
  | .avsStep rail up => Sys2Proof.Machine.execAvsStep rail up s
  | .railReadback rail r => Sys2Proof.Machine.execRailReadback rail r s
  | .railOutOfTolerance rail => Sys2Proof.Machine.execRailOutOfTolerance rail s
  | .droopDetect f => Sys2Proof.Machine.execDroopDetect f s
  | .tempConversion rs => Sys2Proof.Machine.execTempConversion rs s
  | .sensorPairSuspect spot => Sys2Proof.Machine.execSensorPairSuspect spot s
  | .sensorPairClear spot => Sys2Proof.Machine.execSensorPairClear spot s
  | .sensorConversionTimeout spot which => Sys2Proof.Machine.execSensorConversionTimeout spot which s
  | .tripComparator spot => Sys2Proof.Machine.execTripComparator spot s
  | .thermtripCheck seat => Sys2Proof.Machine.execThermtripCheck seat s
  | .tachPulse => Sys2Proof.Machine.execTachPulse s
  | .riseRateEval => Sys2Proof.Machine.execRiseRateEval s
  | .tachZeroFlow => Sys2Proof.Machine.execTachZeroFlow s
  | .coolantStageChange => Sys2Proof.Machine.execCoolantStageChange s
  | .tachDisagree => Sys2Proof.Machine.execTachDisagree s
  | .survivalExit => Sys2Proof.Machine.execSurvivalExit s
  | .survivalTimeout => Sys2Proof.Machine.execSurvivalTimeout s
  | .engineCommandComplete h internalFault => Sys2Proof.Machine.execEngineCommandComplete h internalFault s
  | .applicationCoreAccess core addr op => Sys2Proof.Machine.execApplicationCoreAccess core addr op s
  | .windowControlRead w core => Sys2Proof.Machine.execWindowControlRead w core s
  | .droopRecovery f => Sys2Proof.Machine.execDroopRecovery f s
  | .tckRisingEdge tms tdi => Sys2Proof.Machine.execTckRisingEdge tms tdi s

end Sys2Proof.Machine
end

