-- ==== Sys2Proof/Machine/Upsets.lean ====
section
/-! DEFINITION. What befalls stored and moving data while time passes (R189, R301-R305, R313, R358, R428): the table has no command that brings it. -/

namespace Sys2Proof.Machine

/-- A store and a line of it that exist, on a die that runs. -/
def storeLine (s : State) (st : Store) (line : Nat) : Bool := scrubs s st && decide (line < storeLines st)

/-- The tile check of a line fails on its way into or out of its store: the line is poisoned (R313). -/
def handoverFails (s : State) (st : Store) (line : Nat) : State :=
  match st with
  | .dram n =>
    let o := 2 ^ 34 * n.val + 64 * line
    dramSetPoison (tileFail s n.val o) o true
  | .localStore f => (tileFail s (dieOf f) (64 * line)).modFacet f fun x => lsSetPoison x line true
  | .hubSram h =>
    sramSetPoison (tileFail s (4 + h.val) (64 * line)) h.val line

/-- The record that an output engine holds fails its tile check: `h` names the command or the slot (R313, R358). -/
def stageFails (s : State) (hub place h : Nat) : State :=
  let s1 := tileFail s (4 + hub) 0
  { s1 with host := { s1.host with staged := tput s1.host.staged place h } }

/-- A word of the accumulator store is found uncorrectable: an integrity event of the half (R301, R303). `INT_LAST_EVENT` has no code for that store
(R316), so the code is a free value. Log entry 167 (DESIGN CHOICE). -/
def accEvent (s : State) (site word : Nat) : State :=
  integrityEvent (s.takeFree 1) (dieOf site) (Config.freeNat s.free % 256) (4 * word)

/-- One of the two bits of a pair changes. -/
def flipOne (p : Bool × Bool) (second : Bool) : Bool × Bool := if second then (p.1, !p.2) else (!p.1, p.2)

/-- One of the two poison bits of a line of local store or hub SRAM changes, so that the line reads as poisoned (R301). -/
def twinFlip (s : State) (st : Store) (line : Nat) (second : Bool) : State :=
  match st with
  | .dram _ => s
  | .localStore f => s.modFacet f fun x => { x with lsPoison := tset x.lsPoison line (flipOne (tget x.lsPoison line (false, false)) second) (false, false) }
  | .hubSram h =>
    let k := 524288 * h.val + line
    { s with mem := { s.mem with sramPoison := tset s.mem.sramPoison k (flipOne (tget s.mem.sramPoison k (false, false)) second) (false, false) } }

/-- What befalls the data; nothing where there is none. Log entry 155 (DESIGN CHOICE). -/
def befall (s : State) (u : Config.Upset) : State :=
  match u with
  | .read st line word found => if storeLine s st line then codeFound s st line (word % 8) found else s
  | .accumulator site word =>
    if validSite site && s.dieUp (dieOf site) && decide (word < 131072) then accEvent (s.modFacet site fun f => { f with accPoison := tput f.accPoison word true }) site word else s
  | .poisonBit st line second => if storeLine s st line then twinFlip s st line second else s
  | .handover st line => if storeLine s st line then handoverFails s st line else s
  | .port p =>
    match nextTx s p.val with
    | some (h, _) => if s.dieUp (4 + p.val / 2) then stageFails s (p.val / 2) p.val h else s
    | none => s
  | .queue hub q =>
    let k := 8 * hub.val + q.val
    match ownedFrom s hub.val q.val (tget s.host.txAt k 0) with
    | some i => if hubUp s hub.val && queueOn s hub.val q.val then stageFails s hub.val (4 + k) i else s
    | none => s
  | .counters bar =>
    let b := s.bar bar
    if b.live then s.setBar bar { b with dup := (Config.freeNat s.free, Config.freeNat (s.free + 1)) } else s
  | .faultLog i => s.setOcts 0x4050 i.val (List.replicate 64 0)

/-- 1 ns of Gnomon time passes: the displays take lines from the scan-out buffer (R336), the receive buffers of the links deliver (R327), and the
frames at a gate that opens leave (R476). Log entry 147 (DESIGN CHOICE). -/
def nanosecond (s : State) : State :=
  drainGates (drainLinks (drainScan { s.takeFree 3 with now := s.now + 1 } (64 * (s.chord.fw.scanOut.length - Config.displayTakes s.free))))

/-- 1 ns of Gnomon time passes, with what befalls the data in it. Log entries 4 and 155 (DESIGN CHOICE). -/
def elapse (s : State) : State :=
  match Config.upset s.free with
  | none => nanosecond s
  | some u => befall (nanosecond s) u

end Sys2Proof.Machine
end

