-- ==== Sys2Proof/Machine/Step.lean ====
section
/-! DEFINITION. One step: the command at the front of the queue, or, with none waiting, one nanosecond of Gnomon time. -/

namespace Sys2Proof.Machine

/-- The state as the front command sees it: with the queue's rest. -/
def State.withPending (s : State) (q : List Instr) : State := { s with pending := q }

/-- An empty queue: 1 ns of Gnomon time passes while the device is powered (log entry 4). -/
def idle (s : State) : State := if s.dev.st = .off then s else elapse s

/-- The front command's effect on the state with the queue's rest; an idle nanosecond when none waits. Log entry 1 (DESIGN CHOICE). -/
def step (s : State) : Host.Outcome State Fault Refusal :=
  match s.pending with
  | [] => .next (idle s)
  | c :: q => exec c (s.withPending q)

/-- `s` with the command that a word spells at the front of its queue; the table gives no row any bits, so no word spells one. Log entry 6 (DEDUCED). -/
def State.withFetchWord (s : State) (nbits w : Nat) : State :=
  match decodeTableWord nbits w with
  | none => s
  | some c => s.withPending (c :: s.pending)

end Sys2Proof.Machine
end

