-- ==== Sys2Proof/Safety.lean ====
section
/-! DEFINITION. What a safe state of the block is, in the terms that statements use: its byte stores are in canonical form, and
register x0 of every Facet reads zero. -/

namespace Sys2Proof.Safety

open Sys2Proof.Machine

/-- Both byte stores hold their canonical form: addresses rise strictly and no listed byte is zero. -/
def storesCanonical (s : State) : Bool := Memory.wf s.mem.dram && Memory.wf s.mem.sram

/-- A Facet site executes, and the instruction at hand does not stall there: its registers are not awaited, and its footprints overlap no
outstanding get (R43, R46, R180). -/
abbrev issues (s : State) (f : Nat) (regs : List Nat) (foot : List (Nat × Nat)) : Prop :=
  runs s f = true ∧ stalls (s.facet f) regs foot = false

/-- A site after an instruction that changed its Facet to `x`, the pc moved on; nothing else of the device has changed. -/
def retired (s : State) (f : Nat) (x : Facet) : State := s.setFacet f (advance x)

/-- The handle `h` names a started command of a row's code, in slot `i`, as `x`; nothing it took as input held poison, and its hub reaches
the stacks of its buffers (R219, R223, R331). -/
abbrev started (s : State) (h code i : Nat) (x : Slot) : Prop :=
  startedCmd s h code = some (i, x) ∧ x.bad = false ∧ cmdCut s x = false

/-- A started KV command whose pool `n` exists as `p`, belongs to its sector, and waits for no earlier command of the pool (R127). -/
abbrev startedKv (s : State) (h code i n : Nat) (x : Slot) (p : Pool) : Prop :=
  started s h code i x ∧ poolWaits s x = false ∧ n = fld x.body 0 4 ∧ s.pool n = some p ∧ p.sector = x.sector

/-- The pairs, the cost and the columns of an assignment given row by row, 512 where a row has none (R381). -/
def worth : List (List Nat) → List Nat → Assignment
  | row :: rest, c :: cols =>
    let t := worth rest cols
    if c = 512 then { t with cols := 512 :: t.cols } else { pairs := t.pairs + 1, cost := t.cost + lget row c 0, cols := c :: t.cols }
  | _, _ => { pairs := 0, cost := 0, cols := [] }

/-- An assignment, 512 for none: it gives every row a column that is free, not forbidden and given to no other, or none (R380, R381). -/
def fitsRows (rows : List (List Nat)) (free cols : List Nat) : Prop :=
  cols.length = rows.length ∧ (∀ c ∈ cols, c = 512 ∨ c ∈ free) ∧ (cols.filter (· != 512)).Nodup ∧
  ∀ i c, cols[i]? = some c → c ≠ 512 → lget (lget rows i []) c 0xFFFF ≠ 0xFFFF

end Sys2Proof.Safety
end

