-- ==== Sys2Proof/Certificates/Slice0/Obligations.lean ====
section
/-! DEFINITION. The statements for the provers. -/

open Sys2Proof Sys2Proof.Machine Sys2Proof.Safety

/-! ## The block as a whole -/

/-- A step is exec of the front command on the state with the queue's rest. With nothing waiting, a powered device's Gnomon time goes on by 1 ns
(the model's choice, log entry 4), and where no frame waits to depart, no receive buffer and no scan-out line to drain, nothing else changes but
the count of free values where nothing befalls its data (log entry 155); an unpowered device rests. -/
def Obligations.StepRunsFrontCommand : Prop :=
  (∀ (c : Instr) (q : List Instr) (s : State), step (s.withPending (c :: q)) = exec c (s.withPending q)) ∧
  (∀ s : State, s.pending = [] → s.dev.st ≠ .off → ∃ t, step s = .next t ∧ t.now = s.now + 1 ∧
    (Config.upset s.free = none → s.host.leaving = [] → s.chord.fw.scanOut = [] → (∀ p ∈ s.chord.dirs, p.2.buffer = []) →
      t = { s with now := s.now + 1, free := s.free + 3 })) ∧
  (∀ s : State, s.pending = [] → s.dev.st = .off → step s = .next s)

/-- For every command, with any operands, and every state, exec answers a next state: no command faults and none is refused. -/
def Obligations.EveryCommandGoesOn : Prop :=
  ∀ (c : Instr) (s : State), ∃ t, exec c s = .next t

/-- A step takes its front command away and leaves the rest of the queue as it was, in order: no command's effect reaches the queue. -/
def Obligations.StepTakesOnlyTheFrontCommand : Prop :=
  ∀ (c : Instr) (q : List Instr) (s t : State), step (s.withPending (c :: q)) = .next t → t.pending = q

/-- From any state whose DRAM and hub-SRAM tables list their bytes at strictly rising addresses and list no zero byte (what an unlisted byte reads
as is the model's choice, log entry 2), a step that answers a next state gives one whose tables are in that form (R10, R306). -/
def Obligations.StepKeepsStoresCanonical : Prop :=
  ∀ s t : State, storesCanonical s = true → step s = .next t → storesCanonical t = true

/-- No command takes a device that is neither OPERATIONAL nor DEGRADED into one of these states away from a tick boundary; at one no command but
TICK_BOUNDARY does, unless a request finds a transition of that boundary still to come (R446) (R4, R7, R38, R446). -/
def Obligations.OperationBeginsAtATickBoundary : Prop :=
  (∀ (c : Instr) (s t : State), c ≠ .tickBoundary → settled s = s → s.operating = false → exec c s = .next t → t.operating = false) ∧
  (∀ (c : Instr) (s t : State), s.atBoundary = false → s.operating = false → exec c s = .next t → t.operating = false)

/-- A command's next state has the Gnomon time of the state before, or the command is PWRGD_ASSERT or PWRGD_DEASSERT and the time is 0. (Time goes
on only in the idle step, log entry 4.) (R5, R36, R544). -/
def Obligations.OnlyPowerMovesTimeBack : Prop :=
  ∀ (c : Instr) (s t : State), exec c s = .next t → t.now = s.now ∨ (t.now = 0 ∧ c ∈ [Instr.pwrgdAssert, .pwrgdDeassert])

/-- State.reset is OFF at Gnomon time 0 with every Prism, controller and the guest held in reset, both safe outputs asserted, no store byte listed
(log entry 2) and no command waiting; its stores are canonical (R4, R5, R544). -/
def Obligations.ResetIsOff : Prop :=
  let s := State.reset
  s.dev.st = .off ∧ s.now = 0 ∧ s.dev.prst = List.replicate 4 true ∧ s.dev.mrst = List.replicate 4 true ∧ s.dev.grst = true ∧ s.dev.msafe = [true, true] ∧
  s.pending = [] ∧ s.mem.dram = [] ∧ s.mem.sram = [] ∧ storesCanonical s = true

/-! ## Facets: descriptors, the Lattice, the window unit and the vector unit (02, 03, 04) -/

/-- lx.dld, lx.dst, lx.dbase, lx.wld, lx.acz, lx.mm, lx.dg, lx.cvt, wn.max and wn.avg, on a running site that does not stall and with operands that
fit and hold no poison, answer the state whose Facet has the descriptor loaded, stored or rebased, the tile loaded, the rows cleared, every covered
accumulator word updated or every element of the destination written, the pc moved on, and nothing else of the device changed (R52, R53, R57, R58,
R59, R61, R85, R86, R94, R96, R108, R116). -/
def Obligations.LatticeInstructions : Prop :=
  (∀ (s : State) (f : Nat) (rd rs1 : BitVec 5),
    let x := s.facet f
    let a := (getX x rs1.toNat).toNat
    let r := BitVec.ofNat 256 (ofBytes (lsRead x a 32))
    dReg rd = true → issues s f [rs1.toNat] [(a, 32)] → lsAligned a 32 = true → lsBadIn x a 32 = false → descOk r = true →
    exec (.lxDld f rd rs1) s = .next (retired s f (setDesc x rd.toNat r))) ∧
  (∀ (s : State) (f : Nat) (rs1 rs2 : BitVec 5) (r : BitVec 256),
    let x := s.facet f
    let a := (getX x rs1.toNat).toNat
    dReg rs2 = true → issues s f [rs1.toNat] [(a, 32)] → lget x.d rs2.toNat none = some r → lsAligned a 32 = true → inProtected x a 32 = false →
    exec (.lxDst f rs1 rs2) s = .next (retired s f (lsWrite x a (toBytes 32 r.toNat)))) ∧
  (∀ (s : State) (f : Nat) (rd rs1 : BitVec 5) (r r' : BitVec 256) (b : Nat),
    let x := s.facet f
    dReg rd = true → issues s f [rs1.toNat] [] → lget x.d rd.toNat none = some r → (b : Int) = (fld r 0 22 : Nat) + (getX x rs1.toNat).toInt → b < 2 ^ 22 →
    r' = BitVec.ofNat 256 (r.toNat - fld r 0 22 + b) → descOk r' = true →
    exec (.lxDbase f rd rs1) s = .next (retired s f (setDesc x rd.toNat r'))) ∧
  (∀ (s : State) (f : Nat) (rs1 : BitVec 5) (t : Tensor) (ch : List Nat) (p w : Nat),
    let x := s.facet f
    dReg rs1 = true → issues s f [] (wldFeet x rs1.toNat) → descAt x rs1.toNat = some t → wldFits t = true → wldMap x t = some (ch, p, w) →
    wldBad x t ch w = false →
    exec (.lxWld f rs1) s = .next (retired s f { x with idleTile := x.tile, tile := loadedTile x t ch w })) ∧
  (∀ (s : State) (f : Nat) (rs1 rs2 : BitVec 5),
    let x := s.facet f
    let r := (getX x rs1.toNat).toNat
    let n := (getX x rs2.toNat).toNat
    issues s f [rs1.toNat, rs2.toNat] [] → n = 0 ∨ r + n ≤ 2048 →
    exec (.lxAcz f rs1 rs2) s =
      .next (retired s f ((List.range (64 * n)).foldl (fun g i => heldPut (accPut g (64 * r + i) 0) (64 * r + i) 0) x))) ∧
  (∀ (s : State) (f : Nat) (rd rs1 rs2 : BitVec 5) (t : Tensor),
    let x := s.facet f
    let tap := getX x rs1.toNat
    let c := ctlOf (getX x rs2.toNat)
    dReg rd = true → issues s f [rs1.toNat, rs2.toNat] (mmFeet x rd.toNat) → descAt x rd.toNat = some t → fld tap 24 8 = 0 →
    mmFits x t x.tile = true → c.row + c.m ≤ 2048 → mmBad x t x.tile tap c = false →
    exec (.lxMm f rd rs1 rs2) s = .next (retired s f (worked s.now t.fmt (c.m * x.tile.k * x.tile.n) (mmPass x t x.tile tap c)))) ∧
  (∀ (s : State) (f : Nat) (rd rs1 rs2 : BitVec 5) (t w : Tensor),
    let x := s.facet f
    let c := ctlOf (getX x rs2.toNat)
    let g := getX x (rs2.toNat + 1)
    dReg rd = true → dReg rs1 = true → rs2.getLsbD 0 = false → issues s f [rs2.toNat, rs2.toNat + 1] (feet x [rd.toNat, rs1.toNat]) →
    descAt x rd.toNat = some t → descAt x rs1.toNat = some w → dgFits t w c = true → c.row + c.m ≤ 2048 → dgBad x t w g c = false →
    exec (.lxDg f rd rs1 rs2) s = .next (retired s f (worked s.now t.fmt (c.m * t.ext 0 * (dgTaps w).length) (dgPass x t w g c)))) ∧
  (∀ (s : State) (f : Nat) (rd rs1 rs2 : BitVec 5) (t : Tensor),
    let x := s.facet f
    let c := ctlOf (getX x rs1.toNat)
    let a := (getX x rs2.toNat).toNat
    let r := BitVec.ofNat 256 (ofBytes (lsRead x a 32))
    dReg rd = true → issues s f [rs1.toNat, rs2.toNat] (cvtFeet x rd.toNat rs2.toNat) → descAt x rd.toNat = some t → c.acc = false →
    lsAligned a 32 = true → stageParams r t.fmt = true → stageFits t c = true → c.row + c.m ≤ 2048 → inProtected x t.foot.1 t.foot.2 = false →
    stageBad x t c a r = false →
    exec (.lxCvt f rd rs1 rs2) s = .next (retired s f (putAll x t (stageWr x t c r)))) ∧
  (∀ (s : State) (f : Nat) (rd rs1 rs2 : BitVec 5) (o t : Tensor) (avg : Bool),
    let x := s.facet f
    let w := getX x rs2.toNat
    dReg rd = true → dReg rs1 = true → issues s f [rs2.toNat] (feet x [rd.toNat, rs1.toNat]) → descAt x rd.toNat = some o → descAt x rs1.toNat = some t →
    poolWord avg w o t = true → poolFits o t = true → inProtected x o.foot.1 o.foot.2 = false → poolBad x w o t = false →
    exec (if avg then .wnAvg f rd rs1 rs2 else .wnMax f rd rs1 rs2) s = .next (retired s f (putAll x o (poolWr avg x w o t))))

/-- In integer mode each covered accumulator word holds sat32 of the exact column sum where acc is 0, and sat32 of its old value plus the exact
column sum where acc is 1 (a tap outside the input contributes 0); every word outside the covered rows keeps its value (R85). -/
def Obligations.IntegerProductWords : Prop :=
  ∀ (x : Facet) (t : Tensor) (tl : Tile) (tap : Word) (c : Ctl), mmInt t tl = true →
    (∀ p ∈ c.places, ∀ n < 64,
      let v := match tapPos t tap p.2.1 p.2.2 with
        | some (i, j) => intColumn x t tl i j n
        | none => 0
      accWord (mmPass x t tl tap c) (accKey p.1 n) =
        BitVec.ofInt 32 (sat32 (if c.acc then (accWord x (accKey p.1 n)).toInt + v else v)).1) ∧
    (∀ k, k < 64 * c.row ∨ 64 * (c.row + c.m) ≤ k → accWord (mmPass x t tl tap c) k = accWord x k)

/-- Every vx. instruction, on a running site that does not stall and with operands that fit and hold no poison, answers the state whose Facet has
every element of the destination (for vx.aacc every covered accumulator word) written with its value and counted, the pc moved on, and nothing else
of the device changed (R63, R64, R97, R98, R99, R100). -/
def Obligations.VectorInstructions : Prop :=
  (∀ (s : State) (f : Nat) (rd rs1 rs2 : BitVec 5) (d a b : Tensor) (c : Instr × VOp),
    c ∈ [(.vxAdd f rd rs1 rs2, .add), (.vxSub f rd rs1 rs2, .sub), (.vxMul f rd rs1 rs2, .mul), (.vxMax f rd rs1 rs2, .max), (.vxMin f rd rs1 rs2, .min)] →
    let x := s.facet f
    dReg rd = true → dReg rs1 = true → dReg rs2 = true → issues s f [] (feet x [rd.toNat, rs1.toNat, rs2.toNat]) →
    descAt x rd.toNat = some d → descAt x rs1.toNat = some a → descAt x rs2.toNat = some b → vec2Fits d a b = true →
    inProtected x d.foot.1 d.foot.2 = false → tensorBad x a = false → tensorBad x b = false →
    exec c.1 s = .next (retired s f (elementWise x c.2 d a (intWidth [d, a, b])
      (fun i => intElem x b (broadcast b i)) (fun i => fpOperand x b (broadcast b i))))) ∧
  (∀ (s : State) (f : Nat) (rd rs1 rs2 : BitVec 5) (d a : Tensor) (c : Instr × VOp),
    c ∈ [(.vxAdds f rd rs1 rs2, .add), (.vxMuls f rd rs1 rs2, .mul)] →
    let x := s.facet f
    let v := getX x rs2.toNat
    dReg rd = true → dReg rs1 = true → issues s f [rs2.toNat] (feet x [rd.toNat, rs1.toNat]) →
    descAt x rd.toNat = some d → descAt x rs1.toNat = some a → vec1Fits d a = true → inProtected x d.foot.1 d.foot.2 = false → tensorBad x a = false →
    exec c.1 s = .next (retired s f (elementWise x c.2 d a (intWidth [d, a]) (fun _ => v.toInt) (fun _ => fp32 v)))) ∧
  (∀ (s : State) (f : Nat) (rd rs1 : BitVec 5) (d a : Tensor) (c : Instr × VOp),
    c ∈ [(.vxRelu f rd rs1, .relu), (.vxExp2 f rd rs1, .exp2), (.vxRcp f rd rs1, .rcp), (.vxRsq f rd rs1, .rsq)] →
    let x := s.facet f
    dReg rd = true → dReg rs1 = true → issues s f [] (feet x [rd.toNat, rs1.toNat]) → descAt x rd.toNat = some d → descAt x rs1.toNat = some a →
    vec1Fits d a = true → (c.2 = .relu ∨ isInt d.fmt = false) → inProtected x d.foot.1 d.foot.2 = false → tensorBad x a = false →
    exec c.1 s = .next (retired s f (elementWise x c.2 d a (intWidth [d, a]) (fun _ => 0) (fun _ => Machine.Num.zero)))) ∧
  (∀ (s : State) (f : Nat) (rd rs1 : BitVec 5) (d a : Tensor),
    let x := s.facet f
    dReg rd = true → dReg rs1 = true → issues s f [] (feet x [rd.toNat, rs1.toNat]) → descAt x rd.toNat = some d → descAt x rs1.toNat = some a →
    cvtVecFits d a = true → inProtected x d.foot.1 d.foot.2 = false → (d.scaled = true → inProtected x (64 * d.sref) d.scaleBytes = false) →
    tensorBad x a = false →
    exec (.vxCvt f rd rs1) s = .next (retired s f
      (if d.scaled then cvtScaled x d a else elementWise x .copy d a (intWidth [d, a]) (fun _ => 0) (fun _ => Machine.Num.zero)))) ∧
  (∀ (s : State) (f : Nat) (rd rs1 : BitVec 5) (d a : Tensor) (sum : Bool),
    let x := s.facet f
    dReg rd = true → dReg rs1 = true → issues s f [] (feet x [rd.toNat, rs1.toNat]) → descAt x rd.toNat = some d → descAt x rs1.toNat = some a →
    reduceFits d a = true → inProtected x d.foot.1 d.foot.2 = false → tensorBad x a = false →
    exec (if sum then .vxRsum f rd rs1 else .vxRmax f rd rs1) s = .next (retired s f (putAll x d (reduceWr sum x d a)))) ∧
  (∀ (s : State) (f : Nat) (rd rs1 : BitVec 5) (t : Tensor),
    let x := s.facet f
    let c := ctlOf (getX x rs1.toNat)
    dReg rd = true → issues s f [rs1.toNat] (feet x [rd.toNat]) → descAt x rd.toNat = some t → c.acc = false → accShape t c = true →
    c.row + c.m ≤ 2048 → inProtected x t.foot.1 t.foot.2 = false → accBad x c = false →
    exec (.vxAld f rd rs1) s =
      .next (retired s f (elemsPut x t (t.indices.map fun i => (i, (accWord x (accKey (accRow t c i) (lget i 0 0))).toNat))))) ∧
  (∀ (s : State) (f : Nat) (rd rs1 : BitVec 5) (t : Tensor),
    let x := s.facet f
    let c := ctlOf (getX x rs1.toNat)
    dReg rd = true → issues s f [rs1.toNat] (feet x [rd.toNat]) → descAt x rd.toNat = some t → accShape t c = true →
    c.row + c.m ≤ 2048 → tensorBad x t = false → accBad x c = false →
    exec (.vxAacc f rd rs1) s = .next (retired s f (accAdd x t c)))

/-- A byte of local store that belongs to no element of the destination keeps its value, and so do the registers, descriptors, accumulator words
and pc (R46, R52, R82). -/
def Obligations.EngineWritesOnlyItsElements : Prop :=
  ∀ (x : Facet) (t : Tensor) (g : List Nat → Wr),
    (∀ a, (∀ i ∈ t.indices, a ∉ elemBytes t i) → lsByte (putAll x t g) a = lsByte x a) ∧
    (putAll x t g).x = x.x ∧ (putAll x t g).d = x.d ∧ (putAll x t g).acc = x.acc ∧ (putAll x t g).pc = x.pc

/-- An element's code reads back cut to the width of its format, whatever the format, and every byte outside the element keeps its value (R52,
R77). -/
def Obligations.ElementReadsBack : Prop :=
  ∀ (x : Facet) (t : Tensor) (i : List Nat) (v : Nat), t.fmt < 12 →
    elemCode (elemPut x t i v) t i = v % 2 ^ t.bits ∧
    ∀ a, a ∉ elemBytes t i → lsByte (elemPut x t i v) a = lsByte x a

/-! ## Facets: the mover, messages, Vertex instructions, the sequencer (02, 07) -/

/-- With an aligned, readable and legal record and descriptor, and every far line mapped and reached, dm.get, dm.put and dm.kv answer the state in
which the operation has started; dm.wait passes when no channel it names has a put outstanding (R48, R65, R66, R67, R133, R134, R135, R262). -/
def Obligations.MoverInstructions : Prop :=
  (∀ (s : State) (f : Nat) (ch : BitVec 4) (rd rs1 : BitVec 5) (t : Tensor) (put : Bool),
    let x := s.facet f
    let a := (getX x rs1.toNat).toNat
    let r := BitVec.ofNat 256 (ofBytes (lsRead x a 32))
    dReg rd = true → issues s f [rs1.toNat] ((a, 32) :: feet x [rd.toNat]) → x.ops.length < 32 → descAt x rd.toNat = some t → refsOk t = true →
    t.scaleFits = true → farOk t a r = true →
    (put = false → inProtected x t.foot.1 t.foot.2 = false ∧ (t.scaled = true → inProtected x (64 * t.sref) t.scaleBytes = false)) →
    moverFault s f (moverLines s x put (farPairs t r)) = none →
    exec (if put then .dmPut f ch rd rs1 else .dmGet f ch rd rs1) s = .next (moverStart s f ch.toNat put (farPairs t r))) ∧
  (∀ (s : State) (f : Nat) (ch : BitVec 4) (rd rs1 : BitVec 5) (t : Tensor) (p : Pool) (v : View),
    let x := s.facet f
    let a := (getX x rs1.toNat).toNat
    let r := BitVec.ofNat 256 (ofBytes (lsRead x a 32))
    let put := r.getLsbD 1
    dReg rd = true → issues s f [rs1.toNat] ((a, 32) :: feet x [rd.toNat]) → x.ops.length < 32 → descAt x rd.toNat = some t → kvView s x = some (p, v) →
    kvTensorOk p t = true → kvRecOk p v t a r = true →
    (put = false → inProtected x t.foot.1 t.foot.2 = false ∧ inProtected x (64 * t.sref) t.scaleBytes = false) →
    (∀ i < t.ext 1, (kvPage v r i).isSome = true) → moverFault s f (moverLines s x put (kvAll p v t r)) = none →
    exec (.dmKv f ch rd rs1) s = .next (moverStart s f ch.toNat put (kvAll p v t r))) ∧
  (∀ (s : State) (f : Nat) (rs1 : BitVec 5),
    let m := getX (s.facet f) rs1.toNat
    issues s f [rs1.toNat] [] → fld m 16 16 = 0 → (∀ o ∈ (s.facet f).ops, o.write = true → m.getLsbD o.ch = false) →
    exec (.dmWait f rs1) s = .next (retired s f (s.facet f)))

/-- An operation that starts adds one line request for each far line, lines ascending and tags consecutive, and changes nothing of the device but
these requests, its own Facet and the model's two counters: every byte of both stores, every other Facet and every table is as before (R48, R66,
R67, R281). -/
def Obligations.MoverIssuesOneRequestPerLine : Prop :=
  ∀ (s : State) (f ch : Nat) (put : Bool) (pairs : List (Nat × Nat)),
    let ls := moverLines s (s.facet f) put pairs
    moverStart s f ch put pairs =
      { s.setFacet f (moverFacet s f ch put pairs) with
          id := s.id + 1 + ls.length, free := s.free + 1,
          mem := { s.mem with reqs := s.mem.reqs ++ ls.zipIdx.map fun p => { moverReq s f s.id ch put p.1 with tag := s.id + 1 + p.2 } } }

/-- ms.send of a main copy puts its message on its way and of a checker only folds it; ms.recv and ms.poll answer the oldest ring entry and ms.poll
all ones where there is none; ms.ack releases the oldest; MSG brings a message to its die; MESSAGE_DEPOSIT puts it in every ring that receives it
once all have room; a message of a retired generation is squashed (R65, R68, R69, R70, R265, R325, R387). -/
def Obligations.MessageInstructions : Prop :=
  (∀ (s : State) (f : Nat) (rs1 : BitVec 5) (st : Step),
    let x := s.facet f
    let a := (getX x rs1.toNat).toNat
    x.step = some st → issues s f [rs1.toNat] [(a, 64)] → lsAligned a 64 = true → sendOk s x a = true →
    (st.checker = true → exec (.msSend f rs1) s = .next (s.setFacet f (sendFacet x a))) ∧
    (st.checker = false → sendHeld s f = false → routeUp s (dieOf f) (dieOf (s.siteOf (sendMsg s f a).dest)) = true →
      exec (.msSend f rs1) s = .next (sendStart s f a))) ∧
  (∀ (s : State) (f : Nat) (rd : BitVec 5),
    let x := s.facet f
    issues s f [] [] →
    (x.got ≠ x.put → ∀ c ∈ [Instr.msRecv f rd, .msPoll f rd], exec c s = .next (retired s f (setX x rd.toNat (BitVec.ofNat 32 (ringHead x))))) ∧
    (x.got = x.put → exec (.msPoll f rd) s = .next (retired s f (setX x rd.toNat 0xFFFFFFFF)))) ∧
  (∀ (s : State) (f : Nat), issues s f [] [] →
    exec (.msAck f) s = .next (retired s f { s.facet f with got := (s.facet f).got + if (s.facet f).got = (s.facet f).put then 0 else 1 })) ∧
  (∀ (s : State) (id : Nat) (m : Msg), s.sync.msgs.find? (fun m => m.id == id) = some m → m.gen = (s.sec m.sector).gen →
    devReach s m.seat m.dest = true → exec (.msg id) s =
      .next { s with sync := { s.sync with msgs := s.sync.msgs.map fun e => if e.id = id then { e with away := false } else e } }) ∧
  (∀ (s : State) (id : Nat) (m : Msg), s.sync.msgs.find? (fun m => m.id == id) = some m → m.gen = (s.sec m.sector).gen →
    depositOk s m = true → heldBack s m = false →
    exec (.messageDeposit id) s = .next (delivered ((receivers s m.dest).foldl (fun a h => depositIn a h m) (dropMsg s id)) m)) ∧
  (∀ (s : State) (id : Nat) (m : Msg), s.sync.msgs.find? (fun m => m.id == id) = some m → m.gen ≠ (s.sec m.sector).gen →
    ∀ c ∈ [Instr.msg id, .messageDeposit id], exec c s = .next (dropMsg s id))

/-- The message's 64 bytes are the next entry of the receive ring; every other byte of local store, the registers, the descriptors and the pc of
the Facet, and every other Facet, keep their values (R65, R68, R70). -/
def Obligations.DepositWritesOneRingEntry : Prop :=
  ∀ (s : State) (h : Nat) (m : Msg), 56 ≤ m.bytes.length →
    let x := s.facet (s.siteOf h)
    let y := (depositIn s h m).facet (s.siteOf h)
    let a := (ringRange x).1 + 64 * (x.put % 2 ^ (nbits x.ring 28 4 + 4))
    lsRead y a 64 = msgBytes m ∧ y.put = x.put + 1 ∧ y.got = x.got ∧ y.x = x.x ∧ y.d = x.d ∧ y.pc = x.pc ∧
    (∀ b, b < a ∨ a + 64 ≤ b → lsByte y b = lsByte x b) ∧ ∀ f, f ≠ s.siteOf h → (depositIn s h m).facet f = s.facet f

/-- vt.post, vt.set, vt.bar, vt.watch and vt.read of a main copy in its first attempt are folded and then applied at once on their own die or sent
to another; VOP applies one at its unit with the values it carries; VRSP writes its result to the register that waits (R47, R65, R180, R196, R265,
R326). -/
def Obligations.VertexInstructions : Prop :=
  (∀ (s : State) (f : Nat) (rd rs1 rs2 : BitVec 5) (st : Step) (c : Instr × Nat),
    c ∈ [(.vtPostInsn f rd rs1 rs2, 1), (.vtSetInsn f rd rs1 rs2, 2), (.vtBar f rd rs1, 3), (.vtWatchInsn f rd rs1, 4), (.vtRead f rd rs1, 5)] →
    let x := s.facet f
    let a := (getX x rs1.toNat).toNat
    let ref := if c.2 = 4 then 0 else a
    let value := if c.2 ≤ 2 then (getX x rs2.toNat).toNat else 0
    let w := if c.2 = 4 then BitVec.ofNat 128 (ofBytes (lsRead x a 16)) else 0
    let s1 := s.setFacet f (foldF x (vtFold c.2 ref value w (lsBad x a)))
    x.step = some st → st.checker = false → st.replay = false → x.log.length < 256 →
    issues s f [rs1.toNat, if c.2 ≤ 2 then rs2.toNat else 0] (if c.2 = 4 then [(a, 16)] else []) →
    (c.2 ≤ 3 → (∀ o ∈ x.ops, o.write = false) ∧ ∀ m ∈ s.sync.msgs, (m.origin == .send f) = false) → (c.2 = 4 → lsAligned a 16 = true) →
    (vtNear f c.2 ref w = true → (c.2 = 5 → refStatus s x.sector ref = 0) → exec c.1 s = .next (vtLocal s1 f c.2 rd.toNat ref value w)) ∧
    (vtNear f c.2 ref w = false → roundTrip s (dieOf f) (vtSeat c.2 ref w) = true → exec c.1 s = .next (vtAway s1 f c.2 rd.toNat ref value w))) ∧
  (∀ (s : State) (tag : Nat) (v : Vop), s.sync.vops.find? (fun v => v.tag == tag && v.rsp == none) = some v → v.gen = (s.sec v.sector).gen →
    vopBehind s v = false → unitTakes s v.unit v.home = true →
    let r := vtApply s v.op v.sector v.home v.site v.ref v.value v.watch
    (∃ p ∈ (s.facet v.site).waits, p.2 = tag) →
    exec (.vop tag) s = .next
      (let t := r.2.2.modFacet v.site fun f => logStatus f v.op v.lix r.1
       { t with sync := { t.sync with vops := t.sync.vops.map fun u => if u.tag = tag then { u with rsp := some (r.1, r.2.1) } else u } })) ∧
  (∀ (s : State) (tag st val rd : Nat) (v : Vop), s.sync.vops.find? (fun v => v.tag == tag && v.rsp != none) = some v → v.rsp = some (st, val) →
    (s.facet v.site).waits.find? (fun p => p.2 == tag) = some (rd, tag) → (v.op = 5 → st = 0) →
    exec (.vrsp tag) s = .next
      (let t := { s with sync := { s.sync with vops := s.sync.vops.filter fun u => u.tag != tag } }
       let u := t.modFacet v.site fun x => { x with waits := x.waits.filter fun p => p.2 != tag }
       let y := u.modFacet v.site fun x => if v.op = 5 then advance (setX x v.rd (BitVec.ofNat 32 val)) else setX x rd (BitVec.ofNat 32 val)
       setResult y v.site v.ix (some (BitVec.ofNat 32 val))))

/-- The instruction fetched at the pc, widened where it is compressed, takes its effect on its own Facet alone; a custom word is the Facet
instruction it spells; ecall with a7 zero ends the program; fxstat is read and cleared, fxtime reads Gnomon time and latches its high half (R40,
R41, R44, R55, R57). -/
def Obligations.SequencerInstructions : Prop :=
  (∀ (s : State) (f w len v : Nat) (g : Facet),
    let x := s.facet f
    runs s f = true → fetch x = .bits w len → (if len = 2 then expand16 w else some w) = some v → customOp v = none → v ≠ 0x73 → v ≠ 0x100073 →
    stalls x (baseRegs v) (baseFeet x v) = false → baseEng x f s.now v len = .good g →
    exec (.sequencerInstruction f) s = .next (s.setFacet f g)) ∧
  (∀ (s : State) (f w v : Nat) (g : Nat → State → Res),
    runs s f = true → fetch (s.facet f) = .bits w 4 → v = w → customOp v = some g → exec (.sequencerInstruction f) s = g f s) ∧
  (∀ (s : State) (f w len : Nat),
    issues s f [17] [] → fetch (s.facet f) = .bits w len → (if len = 2 then expand16 w else some w) = some 0x73 → getX (s.facet f) 17 = 0 →
    ∀ c ∈ [Instr.sequencerInstruction f, .ecall f], exec c s = .next (s.setFacet f { s.facet f with run := .ended })) ∧
  (∀ (s : State) (f : Nat), issues s f [17] [] → getX (s.facet f) 17 = 0 → exec (.ecall f) s = .next (s.setFacet f { s.facet f with run := .ended })) ∧
  (∀ (s : State) (f : Nat) (rd : BitVec 5), issues s f [] [] →
    exec (.fxstatRead f rd) s = .next (retired s f
      (setX { s.facet f with nanc := 0, satc := 0 } rd.toNat (BitVec.ofNat 32 ((s.facet f).nanc * 65536 + (s.facet f).satc)))) ∧
    exec (.fxtimeRead f rd) s = .next (retired s f
      (setX { s.facet f with timeh := BitVec.ofNat 32 (s.now / 2 ^ 32) } rd.toNat (BitVec.ofNat 32 s.now))))

/-- Words written out field by field for add, sub, sltu, and, mul, divu, addi and beq give the register value or the pc that RV32IM gives them (the
results come from the RISC-V unprivileged specification, log entry 13), for every register number (R40). -/
def Obligations.BaseInstructionResults : Prop :=
  ∀ (x : Facet) (f now rd rs1 rs2 : Nat), rd < 32 → rs1 < 32 → rs2 < 32 →
    let a := getX x rs1
    let b := getX x rs2
    baseEng x f now (wordR 0 rs2 rs1 0 rd 0x33) 4 = .good (goOn x 4 rd (a + b)) ∧
    baseEng x f now (wordR 0x20 rs2 rs1 0 rd 0x33) 4 = .good (goOn x 4 rd (a - b)) ∧
    baseEng x f now (wordR 0 rs2 rs1 3 rd 0x33) 4 = .good (goOn x 4 rd (if a < b then 1 else 0)) ∧
    baseEng x f now (wordR 0 rs2 rs1 7 rd 0x33) 4 = .good (goOn x 4 rd (a &&& b)) ∧
    baseEng x f now (wordR 1 rs2 rs1 0 rd 0x33) 4 = .good (goOn x 4 rd (a * b)) ∧
    (b = 0 → baseEng x f now (wordR 1 rs2 rs1 5 rd 0x33) 4 = .good (goOn x 4 rd (BitVec.allOnes 32))) ∧
    (b ≠ 0 → baseEng x f now (wordR 1 rs2 rs1 5 rd 0x33) 4 = .good (goOn x 4 rd (a / b))) ∧
    (∀ imm < 2048, baseEng x f now (wordI imm rs1 0 rd 0x13) 4 = .good (goOn x 4 rd (a + BitVec.ofNat 32 imm))) ∧
    (∀ imm < 2048, imm % 2 = 0 → baseEng x f now (wordB imm rs2 rs1 0) 4 = .good { x with pc := x.pc + BitVec.ofNat 32 (if a = b then imm else 4) })

/-- When a cause is raised the Facet has completed with the cause's code, pc and operand recorded, has nothing outstanding, and keeps its pc,
registers and descriptors (R71, R72). -/
def Obligations.CauseStopsItsStep : Prop :=
  ∀ (s : State) (f code : Nat) (pc operand : Word) (st : Step), (s.facet f).step = some st →
    let y := (raiseAt s f code pc operand).facet f
    y.run = .completed ∧ y.cause = some { stamp := s.now, code := code, pc := pc, operand := operand } ∧ y.ops = [] ∧ y.waits = [] ∧ y.pc = (s.facet f).pc ∧ y.x = (s.facet f).x ∧ y.d = (s.facet f).d

/-! ## Steps and the schedule (09, 16, 23) -/

/-- After the steps of a close that is due, a quiet ended step completes, an acknowledged carry write is accounted to its task, and a signature
record waits for its partner or is judged with it (R13, R38, R44, R148, R391, R392). -/
def Obligations.StepReports : Prop :=
  (∀ (s : State) (f : Nat), quiet (afterClose s) f = true → exec (.stepComplete f) s = .next (stepDone (afterClose s) f)) ∧
  (∀ (s : State) (f : Nat) (st : Step),
    let b := afterClose s
    let x := b.facet f
    x.step = some st → x.run = .completed → x.cause = none → x.carryTags = [] →
    exec (.carryWriteComplete f) s = .next (trySettle (modTask b st.entry st.tick st.home fun t =>
      if st.checker then { t with chkCarryDone := true } else { t with carryDone := true }) st.entry st.tick)) ∧
  (∀ (s : State) (u : Fin 4) (r : BitVec 512),
    let b := if fld r 384 64 < s.now then s else afterClose s
    linkUp s (2 + u.val % 2) = true →
    ((∀ p ∈ b.safety.records, p.1 = u.val → sameCheckpoint p.2 r = false ∧ recPair b p.2 r = false) →
      exec (.signatureRecord u r) s = .next { b with safety := { b.safety with records := b.safety.records ++ [(u.val, r)] } }) ∧
    (∀ m, b.safety.records.filter (fun p => p.1 == u.val && (sameCheckpoint p.2 r || recPair b p.2 r)) = [(u.val, m)] → recChecker m ≠ recChecker r →
      exec (.signatureRecord u r) s = .next (judgePair
        { b with safety := { b.safety with records := b.safety.records.erase (u.val, m) } } u.val
        (if recChecker r then m else r) (if recChecker r then r else m))))

/-- The copy has completed at this instant; its registers, descriptors and accumulator are as the program left them, and no watch of its program
remains (R44, R184). -/
def Obligations.StepCompletionKeepsRegisters : Prop :=
  ∀ (s : State) (f : Nat) (st : Step), (s.facet f).step = some st →
    let y := (stepDone s f).facet f
    y.run = .completed ∧ y.ended = s.now ∧ y.x = (s.facet f).x ∧ y.d = (s.facet f).d ∧ y.acc = (s.facet f).acc ∧
    ∀ w ∈ (stepDone s f).sync.watches, w.site ≠ some f

/-- A due entry opens its occurrence; one that can run and is first at its sites is released on them; a release window that closes sheds it; an
ordered replay restarts its steps; an expired budget stops its step; a missed window is a fault stamped just before its end; a replay open two
ticks after its withholding has failed; SCH_TRIGGER waits for its entry; SCH_ENABLE is applied at once in CONFIG and otherwise at a boundary (R234,
R236, R237, R238, R241, R242, R243, R244, R248, R399, R429). -/
def Obligations.ScheduleCommands : Prop :=
  (∀ (s : State) (e : Nat) (x : SchEntry), s.ent e = some x → entKind x.raw = 0 → s.tickNow % s.num 0x2801 0 = entSlot x.raw →
    s.now = tickStart s s.tickNow + fld x.raw 80 16 * 1000 → findOcc s e s.tickNow = none → entSpor x.raw = false → armedFor x s.tickNow = none →
    tickOpened s = true → (∀ p ∈ s.sched.orphans, p.1 = e → s.now < p.2.2.1) →
    s.operating = true → entHeld s x.raw = false → x.en = true → ticks s (entSector x.raw) s.tickNow = true →
    let s1 := clearArm (addOcc s (newOcc s e s.tickNow .waiting none)) e
    let lost := sliceHeld s x.raw || depState s e s.tickNow == .shed || awaitsReplay s x.raw
    exec (.entryDue e) s = .next (if lost then shed s1 e s.tickNow else s1)) ∧
  (∀ (s : State) (e : Nat) (o : Occ), s.sched.occs.find? (fun o => o.entry == e && o.st == .waiting) = some o → canRun s o = true →
    firstInLine s o = true →
    let a := issueHandle s e
    let trial := (pairing s (s.entRaw e) o.tick).2
    let s1 := modOcc a.1 e o.tick fun o => { o with st := .released, release := s.now, handle := a.2, attempts := 1 }
    exec (.entryRelease e) s =
      .next ((startHomes o).foldl (fun b h => releaseTask b o trial h) (if trial then restoreTrial s1 (startHomes o) else s1))) ∧
  (∀ (s : State) (e : Nat) (o : Occ),
    s.sched.occs.find? (fun o => o.entry == e && o.st == .waiting && decide (tickStart s o.tick + fld (s.entRaw e) 112 16 * 1000 ≤ s.now)) = some o →
    entHeld s (s.entRaw e) = false → exec (.releaseWindowClose e) s = .next (shed s e o.tick)) ∧
  (∀ (s : State) (e n : Nat) (o : Occ), findOcc s e n = some o → o.st = .replayOrdered → canRun s o = true → firstInLine s o = true →
    let s1 := modOcc s e n fun o => { o with st := .replaying, release := s.now, attempts := 2 }
    let s2 := (startHomes o).foldl (fun a h => replayTask a o h) s1
    exec (.replayRelease e n) s =
      .next (if s.tickNow = n then s2 else (carryEntries s (startHomes o)).foldl (fun a k => shedOwn a k s.tickNow) s2)) ∧
  (∀ (s : State) (f : Nat) (st : Step),
    let b := afterClose s
    (b.facet f).step = some st → budgetOver b f = true →
    exec (.budgetExpiry f) s =
      .next { raiseAt { lastEvent (b.count32 0x2808 (dieOf f) 1) b.now st.entry 1 with now := b.now } f 0x0C (b.facet f).pc 0 with now := b.now }) ∧
  (∀ (s : State) (e n : Nat) (o : Occ), findOcc s e n = some o → windowMissed s o = true →
    exec (.stageWindowClose e n) s = .next (windowFault s e n (tickStart s n + fld (s.entRaw e) 144 16 * 1000 - 1))) ∧
  (∀ (s : State) (e n : Nat) (o : Occ), findOcc s e n = some o → o.st ∈ [OccSt.withheld, .replayOrdered, .replaying] → o.heldAt + 2 * s.tickNs ≤ s.now →
    exec (.replayBoundExpiry e n) s =
      .next (((o.tasks.filter fun t => t.replay && !t.accepted && !t.failed).map TaskOut.home).foldl (fun a h => failReplay a e n h s.now) s)) ∧
  (∀ (s : State) (h i : Nat) (x : Slot), started s h 0xC0 i x → exec (.schTrigger h) s = .next (waitOn s i)) ∧
  (∀ (s : State) (h i : Nat) (x : Slot) (y : SchEntry),
    let e := fld x.body 0 10
    let put (z : SchEntry) : State := { s with sched := { s.sched with entries := tput s.sched.entries e z } }
    started s h 0xC1 i x → s.ent e = some y → entSector y.raw = x.sector → entKind y.raw = 0 →
    (s.dev.st = .config → exec (.schEnable h) s = .next (done (put { y with en := x.body.getLsbD 16 }) i 0 0)) ∧
    (s.dev.st ≠ .config → exec (.schEnable h) s = .next (waitOn (put { y with change := y.change ++ [(x.body.getLsbD 16, h)] }) i)))

/-- A self-test slot takes its sites and gives them back; a figure with time left is evaluated, or reloaded where its data is not clean; a missed
lap degrades its Prism; a rotation's, a slice switch's and the join's copy end; a debugger halts or writes a main copy, its write to a paired one
kept for the checker while the log has room, and is told that a checker copy is unavailable (R153, R154, R246, R395, R403, R406, R408, R410, R437,
R438, R531). -/
def Obligations.SelfTestsAndCopies : Prop :=
  (∀ (s : State) (e : Nat) (x : SchEntry), s.ent e = some x → entKind x.raw = 2 → x.en = true → s.now = tickStart s s.tickNow + fld x.raw 80 16 * 1000 →
    tfind s.work.switching (entDie x.raw) = none → s.tickNow % s.num 0x2801 0 = entSlot x.raw → tickOpened s = true → ticks s (entSector x.raw) s.tickNow = true → s.dieUp (entDie x.raw) = true → overfull s (entDie x.raw) = false →
    (∀ p ∈ s.work.facets, p.2.testing.map Prod.fst ≠ some e) →
    let d := entDie x.raw
    let fs := testSites s d (fld x.raw 160 4)
    let s1 := fs.foldl (fun a f => a.modFacet f fun y => { y with testing := some (e, s.now, tickStart s s.tickNow + (fld x.raw 80 16 + fld x.raw 96 16) * 1000) }) s
    exec (.selfTestSlotStart e) s = .next (match fs with
      | [] => s1
      | f :: _ => { s1 with sched := { s1.sched with testStart := tput s1.sched.testStart d (f % 128) } })) ∧
  (∀ (s : State) (e : Nat), exec (.selfTestSlotEnd e) s =
    .next (((s.work.facets.filter fun p => testOver s e p.2).map Prod.fst).foldl yieldTest s)) ∧
  (∀ (s : State) (f e : Nat) (out : List (Nat × Word)) (cause : Bool),
    let x := s.facet f
    reservedUntil s f = some e → s.operating = true → x.run ≠ .running → x.run ≠ .ended → s.dieUp (dieOf f) = true → switchDelays s f = false →
    x.reload ≤ s.now → s.now + figureNs s f ≤ e →
    let ordered := s.safety.findings.any fun q => findsOn f q && (x.finding.isSome || decide (q.stamp < reservedSince s f))
    let k := figureNo s f ordered
    let t := figureLoad s f k out
    let pass := figurePass k out cause
    exec (.referenceFigureRun f out cause) s =
      .next (if figureClean s f k then (if ordered then findingFigure t f pass else periodicFigure t f pass) else figureReload s f k e)) ∧
  (∀ (s : State) (d : Fin 4) (t : Nat), tfind s.safety.lapStart d.val = some t → lapEnd s t ≤ s.now → overfull s d.val = false →
    exec (.lapDeadline d) s = .next (startLapAt
      (degrade (raiseFault (s.count32 0x4043 d.val 1) (lapEnd s t) 0 0x0C d.val 0x1FF 0x3F none) (lapMissed d.val)) d.val (lapEnd s t))) ∧
  (∀ (s : State) (f : Nat), exec (.rotationCopyComplete f) s = .next (s.setFacet f { s.facet f with copying := false })) ∧
  (∀ (s : State) (d : Fin 4) (j : Nat), tfind s.work.switching d.val = some j →
    exec (.sliceSwitchComplete d) s = .next (switchIn s d.val j) ∧ tfind (switchIn s d.val j).work.switching d.val = none ∧
    tfind (switchIn s d.val j).work.slice d.val = some j) ∧
  (∀ (s : State) (t : Nat), s.safety.join = .copying t →
    exec .joinCopyComplete s = .next { s with safety := { s.safety with join := .trial (s.tickNow + 1) } }) ∧
  (∀ (s : State) (f : Nat),
    exec (.debugHalt f) s = .next (if checkerSite s f then { s with host := { s.host with out := s.host.out ++ [.debugUnavailable f] } }
      else s.setFacet f { s.facet f with halted := true })) ∧
  (∀ (s : State) (f a : Nat) (data : List Byte), data ≠ [] → data.length ≤ 64 → a + data.length ≤ 0x300000 →
    let y := lsWrite (s.facet f) a data
    let full := debugLogs s f && decide (64 ≤ (s.facet f).debugLog.length)
    exec (.debugLocalStoreWrite f a data) s = .next (
      if checkerSite s f then { s with host := { s.host with out := s.host.out ++ [.debugUnavailable f] } }
      else if full then { s with host := { s.host with out := s.host.out ++ [.debugError f] } }
      else s.setFacet f (if debugLogs s f then { y with debugLog := (s.facet f).debugLog ++ [(a, data)] } else y)))

/-! ## Commands, windows and handles (08) -/

/-- For each posted command row named, a started command whose input held poison completes with 0x010D, one with a buffer in a stack that its hub
does not reach with 0x010E, neither with another effect, and a handle that names no started command of the row changes nothing (R16, R219, R227,
R306, R331). -/
def Obligations.PoisonedCommandsHaveNoEffect : Prop :=
  ∀ (s : State) (h : Nat) (c : Instr × Nat),
    c ∈ [(.cmdNop h, 0x01), (.secCreate h, 0x40), (.secDestroy h, 0x41), (.secInval h, 0x43), (.secDirtyStart h, 0x44), (.secDirtyHarvest h, 0x44),
         (.secDirtyStop h, 0x44), (.imgLoad h, 0x50), (.imgUnload h, 0x51), (.kvPoolCreate h, 0x60), (.kvPoolDestroy h, 0x61), (.kvAlloc h, 0x62),
         (.kvMap h, 0x63), (.kvFree h, 0x64), (.kvSeqOpen h, 0x65), (.kvSeqClose h, 0x65), (.kvSeqCloseFree h, 0x65), (.kvSeqSetGlobals h, 0x65),
         (.vtAlloc h, 0x70), (.vtFree h, 0x71), (.vtPost h, 0x72), (.vtSet h, 0x73), (.vtWatch h, 0x74), (.vtUnwatch h, 0x75), (.apxCreate h, 0x78),
         (.apxDestroy h, 0x79), (.apxArrive h, 0x7A), (.schTrigger h, 0xC0), (.schEnable h, 0xC1)] →
    (∀ i x, startedCmd s h c.2 = some (i, x) → x.bad = true → exec c.1 s = .next (done s i 0x010D 0)) ∧
    (∀ i x, startedCmd s h c.2 = some (i, x) → x.bad = false → cmdCut s x = true → exec c.1 s = .next (done s i 0x010E 0)) ∧
    (startedCmd s h c.2 = none → tornCmd s h c.2 = none → exec c.1 s = .next s)

/-- The oldest eligible command of an idle engine starts; a finished one completes with its status, and a started one that has no effect yet with
0x010E on an internal fault; CMD_FENCE waits for the earlier commands of its context; FWD is noted; CMD_NOP does nothing (R217, R219, R220, R221,
R223, R227). -/
def Obligations.EngineCommands : Prop :=
  (∀ (s : State) (hub : Fin 2) (eng : Engine) (i : Nat) (x : Slot), hubUp s hub.val = true → engineBusy s hub.val eng = false →
    (sortBy (fun p : Nat × Slot => queuePlace p.2) ((queued s hub.val eng).filter fun p => eligible s p.2)).head? = some (i, x) →
    (configOnly x.code = true → s.dev.st = .config) →
    let s1 := s.setSlot i { x with cmd := .started }
    exec (.engineStart hub eng) s = .next (if eng = .plane then peBegin s1 x else s1)) ∧
  (∀ (s : State) (h st : Nat) (r : Word),
    let x := s.slot (slotOf h)
    s.holds h = true → x.st = .inflight →
    (x.cmd = .done st r → ∀ b, exec (.engineCommandComplete h b) s = .next (completeCmd (peRelease s x st) (slotOf h) st r)) ∧
    (x.cmd = .started → (∀ b ∈ s.plant.hubs, b.writing ≠ some h) →
      exec (.engineCommandComplete h true) s = .next (completeCmd s (slotOf h) 0x010E 0))) ∧
  (∀ (s : State) (h i : Nat) (x : Slot), started s h 0x01 i x → exec (.cmdNop h) s = .next (done s i 0 0)) ∧
  (∀ (s : State) (h : Nat),
    let x := s.slot (slotOf h)
    s.holds h = true → x.st = .inflight → x.sgen = (s.sec x.sector).gen → x.cmd ∈ [CmdSt.started, .waiting] →
    (cmdCut s x = false → exec (.fwd h) s = .next (s.setSlot (slotOf h) { x with fwd := true })) ∧
    (x.code = 0x02 → exec (.cmdFence h) s = .next (if earlierOpen s x then waitOn s (slotOf h) else done s (slotOf h) 0 0)))

/-- Under the process identifier of the core's kxpid an allowed control write sets the window; an allowed read answers the control word and clears
ovf, or the oldest response, or all ones where there is none; a complete handle of the window's context is retired (R203, R204, R205, R208, R216,
R255). -/
def Obligations.WindowAccesses : Prop :=
  ∀ (s : State) (hub : Fin 2) (c : Fin 8) (n : Nat) (v : Word),
    let k := winKey (.core hub n)
    let pid := corePid s (coreOf hub c)
    let allowed (checked : Bool) : Bool := accessAllowed s hub.val n pid checked
    hubUp s hub.val = true →
    (ctlAllowed s hub.val n pid (nbits v.toNat 0 6) = true →
      exec (.windowControlWrite (.core hub n) c v) s = .next (setControl s (.core hub n) hub.val v.toNat)) ∧
    (allowed false = true →
      exec (.windowControlRead (.core hub n) c) s = .next (answer (s.setWin k { s.win k with ovf := false }) (.core hub n) (controlWord s k))) ∧
    (allowed true = true →
      ((s.win k).fifo = [] → exec (.responseRead hub n c) s = .next (answer s (.core hub n) 0xFFFFFFFF)) ∧
      (∀ r rest, (s.win k).fifo = r :: rest →
        exec (.responseRead hub n c) s = .next (answer (s.setWin k { s.win k with fifo := rest }) (.core hub n) (responseWord r))) ∧
      (let x := s.slot (slotOf v.toNat)
       (s.win k).isOpen = true → s.holdsGen v.toNat = true → x.st = .complete → x.ctx = (s.win k).ctx → x.kind ≠ 2 → x.rep = 0 →
       exec (.handleRetire (.core hub n) c v) s = .next (freeSlot s (slotOf v.toNat))))

/-! ## Sectors (10), images (06), KV pools (05), Vertex objects (07) -/

/-- Each sector command on a legal record, a sector in the right state and a free generation has its effect and status; with nothing of an old
generation left a reset sector is ACTIVE again and a destroyed one FREE; a drain of 50 µs faults each stack that holds it up, once (R258, R259,
R263, R266, R267, R268, R269, R271, R272). -/
def Obligations.SectorCommands : Prop :=
  (∀ (s : State) (h i : Nat) (x : Slot),
    let n := fld x.body 0 6
    let r := BitVec.ofNat 1536 (ofBytes (x.input.take 192))
    started s h 0x40 i x → n ≠ 0 → n ≤ maxSector s → (s.sec n).st = .free → recordStatus s n r = 0 →
    let s1 := s.setSec n { st := .active, gen := 0, record := r, dirtyOn := false, drain := none, timedOut := false, resume := 0 }
    exec (.secCreate h) s =
      .next (done (grantMasters { s1 with host := { s1.host with wlog := tdel (tdel s1.host.wlog n) (64 + n) } } n r) i 0 0)) ∧
  (∀ (s : State) (h i : Nat) (x : Slot),
    let n := fld x.body 0 6
    started s h 0x41 i x → (s.sec n).st = .active → tfind s.work.images n = none → (∀ p ∈ s.kv, p.2.sector ≠ n) →
    genInUse s n (((s.sec n).gen + 1) % 65536) = false → exec (.secDestroy h) s = .next (waitOn (retireSector s n h true) i)) ∧
  (∀ (s : State) (h i : Nat) (x : Slot),
    let n := fld x.body 0 6
    let b := afterClose s
    started b h 0x42 i x → (b.sec n).st = .active → genInUse b n (((b.sec n).gen + 1) % 65536) = false →
    exec (.secReset h) s = .next (waitOn (retireSector b n h false) i)) ∧
  (∀ (s : State) (h i : Nat) (x : Slot), started s h 0x43 i x → (s.sec (fld x.body 0 6)).st = .active → exec (.secInval h) s = .next (done s i 0 0)) ∧
  (∀ (s : State) (h i : Nat) (x : Slot),
    let n := fld x.body 0 6
    let y := s.sec n
    started s h 0x44 i x → y.st = .active →
    (fld x.body 6 2 = 0 → exec (.secDirtyStart h) s = .next (done ((clearDirty s y.record).setSec n { y with dirtyOn := true }) i 0 0)) ∧
    (fld x.body 6 2 = 1 → y.dirtyOn = true →
      exec (.secDirtyHarvest h) s = .next (done (outWrite (clearDirty s y.record) x (fld x.body 320 64) (harvest s y.record)) i 0 0)) ∧
    (fld x.body 6 2 = 2 → exec (.secDirtyStop h) s = .next (done (s.setSec n { y with dirtyOn := false }) i 0 0))) ∧
  (∀ (s : State) (n t h : Nat), (s.sec n).drain = some (t, h, true) → (∀ r ∈ s.mem.reqs, oldPast s n r = false) →
    exec (.drainEnd n) s =
      .next (doneH ((freeMasters (disableStreams s n) n).setSec n { s.sec n with st := .free, drain := none, dirtyOn := false }) h 0 0)) ∧
  (∀ (s : State) (n t h : Nat), (s.sec n).drain = some (t, h, false) → (∀ r ∈ s.mem.reqs, oldPast s n r = false) →
    exec (.drainEnd n) s =
      .next (doneH (((restoreSector s n).setSec n { s.sec n with st := .active, drain := none, resume := nextFrame s }).count32 0x3012 n 1) h 0 0)) ∧
  (∀ (s : State) (n t h : Nat) (d : Bool), (s.sec n).drain = some (t, h, d) → (s.sec n).timedOut = false → t + 50000 ≤ s.now →
    exec (.drainTimeout n) s =
      .next ((((List.range 4).filter fun k => s.mem.reqs.any fun r => oldPast s n r && stackOf r.off == k).foldl (fun a k => raiseFault a a.now 0 0x12 k 0x1FF 0x3F (some n)) s).setSec n
        { s.sec n with timedOut := true }))

/-- An image that passes every check is applied and its schedule entries placed; unloading drops the entries, tasks and image of the sector (R157,
R169, R170, R171, R233). -/
def Obligations.ImageCommands : Prop :=
  (∀ (s : State) (h i : Nat) (x : Slot),
    let va := fld x.body 320 64
    let n := imgSpan (ofBytes (pagedRead s x.pages va 64))
    let img := pagedRead s x.pages va n
    let placed := (imgEntries img).zip (freeIndices s (imgEntries img).length)
    let t := placed.foldl (fun a p => placeEntry a x.sector p.2 p.1.2) (imgApply (countPaged s x.pages va n 8 false) x.sector img)
    started s h 0x50 i x → tfind s.work.images x.sector = none → pagedBad s x.pages va n = false → imgCheck s x.hub x.sector img = 0 →
    firstBad t x.sector placed = none → exec (.imgLoad h) s = .next (done t i 0 0)) ∧
  (∀ (s : State) (h i : Nat) (x : Slot) (im : Image), started s h 0x51 i x → tfind s.work.images x.sector = some im →
    let t := im.homes.foldl (fun a h =>
      let b := discardFor (unplace (unplace a h) (checkerHome h)) h
      { b with work := { b.work with tasks := tdel b.work.tasks h } }) (dropEntries s x.sector)
    exec (.imgUnload h) s = .next (done { t with work := { t.work with images := tdel t.work.images x.sector } } i 0 0))

/-- Pools are made and unmade, pages taken and given back, sequences opened, closed and changed, held changes applied and released pages freed,
each on the conditions that the pool's state meets (R118, R121, R122, R129, R130, R131, R132, R139, R140, R141). -/
def Obligations.KvCommands : Prop :=
  (∀ (s : State) (h i : Nat) (x : Slot), started s h 0x60 i x → poolWaits s x = false → s.pool (fld x.body 0 4) = none →
    (s.sec x.sector).record.getLsbD (32 + fld x.body 0 4) = true → (∀ b ∈ (newPool s.now x).bases, b % 64 = 0) →
    planesApart (newPool s.now x).bases ((newPool s.now x).pages * (2 * pageHalf (newPool s.now x))) (newPool s.now x).caddr (controlBytes (newPool s.now x).pages (newPool s.now x).seqs) = true →
    exec (.kvPoolCreate h) s = .next (done (s.keepPool (fld x.body 0 4) (newPool s.now x)) i 0 0)) ∧
  (∀ (s : State) (h i n : Nat) (x : Slot) (p : Pool), startedKv s h 0x61 i n x p →
    (∀ t ∈ s.work.tasks, ∀ b, t.2.bind = some b → b.pool ≠ n) → (∀ e ∈ p.page, e.2.pins = 0) → p.held = [] → p.freeing = [] →
    exec (.kvPoolDestroy h) s = .next (done { s with kv := tdel s.kv n } i 0 0)) ∧
  (∀ (s : State) (h i n : Nat) (x : Slot) (p : Pool), startedKv s h 0x62 i n x p → fld x.body 53 11 ≤ freeCount p →
    let r := popPages (fld x.body 53 11) p
    exec (.kvAlloc h) s = .next (done (outWrite (s.keepPool n r.2) x (fld x.body 320 64) (r.1.flatMap (toBytes 4))) i 0 0)) ∧
  (∀ (s : State) (h i n : Nat) (x : Slot) (p : Pool), startedKv s h 0x63 i n x p →
    exec (.kvMap h) s = .next (takeSeq s i n p
      { handle := h, op := 4, seq := fld x.body 24 12, first := fld x.body 39 14, items := inWords x (fld x.body 53 11) })) ∧
  (∀ (s : State) (h i n : Nat) (x : Slot) (p : Pool),
    let ps := inWords x (fld x.body 53 11)
    let p1 := (sortBy (fun w => p.pages - w) ps).foldl (fun a w => dropPage a s.now w) p
    startedKv s h 0x64 i n x p → (∀ w ∈ ps, w < p.pages ∧ (pageAt p w).maps = 0 ∧ (pageAt p w).st = .live) → ps.eraseDups.length = ps.length →
    exec (.kvFree h) s = .next (if (stillFreeing p1 ps).isEmpty then done (s.keepPool n p1) i 0 0
      else waitOn (s.keepPool n { p1 with freeing := p1.freeing ++ [(h, stillFreeing p1 ps)] }) i)) ∧
  (∀ (s : State) (h i n : Nat) (x : Slot) (p : Pool) (c : Instr × Nat),
    c ∈ [(.kvSeqOpen h, 0), (.kvSeqClose h, 1), (.kvSeqCloseFree h, 2), (.kvSeqSetGlobals h, 3)] → startedKv s h 0x65 i n x p → fld x.body 4 2 = c.2 →
    exec c.1 s = .next (takeSeq s i n p { handle := h, op := c.2, seq := fld x.body 24 12, first := 0, items := inWords x (fld x.body 53 11) })) ∧
  (∀ (s : State) (n : Nat) (p : Pool), s.pool n = some p → exec (.kvHeldApply n) s = .next (applyHeld s n p.held [])) ∧
  (∀ (s : State) (n g : Nat) (p : Pool), s.pool n = some p → (pageAt p g).st = .freeing → (pageAt p g).pins = 0 →
    let p1 := pageFree p s.now g
    let fr := p1.freeing.map fun e => (e.1, e.2.filter (· != g))
    exec (.kvPageFree n g) s = .next (((fr.filter fun e => e.2.isEmpty).map Prod.fst).foldl (fun a h => finishH a h 0 0 s.now)
      (s.keepPool n { p1 with freeing := fr.filter fun e => !e.2.isEmpty })))

/-- Objects and barriers are made and unmade, signals and arrivals applied, watches registered and ended, with references, statuses and results as
the unit gives them (R173, R174, R182, R189, R190, R191, R193, R200, R201, R202). -/
def Obligations.VertexCommands : Prop :=
  (∀ (s : State) (h i : Nat) (x : Slot),
    let u := fld x.body 16 3
    let n := fld x.body 24 8
    let ks := takeObjs s u n
    let t0 := unitTook s u x.key
    let t := ks.foldl (fun a k => a.setVobj k { st := .live, gen := ((a.vobj k).gen + 1) % 65536, value := 0, owner := x.ctx, sector := x.sector }) t0
    started s h 0x70 i x → awaitsFwd x u = false → unitBusy s x u = false → liveOn s x.sector u + n ≤ fld (s.sec x.sector).record (800 + 16 * u) 16 → n ≤ ks.length →
    exec (.vtAlloc h) s = .next (done (outWrite t x (fld x.body 320 64)
      ((ks.map fun k => pack [(29, 3, u), (12, 16, (t.vobj k).gen), (0, 12, k % 4096)]).flatMap (toBytes 4))) i 0 0)) ∧
  (∀ (s : State) (h i : Nat) (x : Slot), started s h 0x71 i x → (∀ r ∈ inWords x (fld x.body 24 8), freeStatus s x r = 0) →
    exec (.vtFree h) s = .next (waitOn s i)) ∧
  (∀ (s : State) (h j : Nat),
    let x := s.slot (slotOf h)
    let r := inWord x j
    let ws := lset (inWords x (fld x.body 24 8)) j 0xFFFFFFFF
    s.holds h = true → x.st = .inflight → x.cmd = .waiting → x.code = 0x71 → x.sgen = (s.sec x.sector).gen → j < fld x.body 24 8 → r ≠ 0xFFFFFFFF →
    freeStatus s x r = 0 → unitBusy s x (refUnit r) = false → cmdCut s x = false → tornCmd s h 0x71 = none →
    let t0 := freeObj (unitTook s (refUnit r) x.key) (refKey r)
    let t := t0.setSlot (slotOf h) { t0.slot (slotOf h) with input := ws.flatMap (toBytes 4) }
    exec (.vtFreeUnitApply h j) s = .next (if ws.all (· == 0xFFFFFFFF) then done t (slotOf h) 0 0 else t)) ∧
  (∀ (s : State) (h i : Nat) (x : Slot),
    let r := fld x.body 224 32
    let t := unitTook s (refUnit r) x.key
    (awaitsFwd x (refUnit r) = false ∧ unitBusy s x (refUnit r) = false) ∨ 6 ≤ refUnit r →
    (started s h 0x72 i x → exec (.vtPost h) s =
      .next (done (vtPostOn t x.sector r (fld x.body 288 32)).2 i (vtPostOn t x.sector r (fld x.body 288 32)).1 0)) ∧
    (started s h 0x73 i x → exec (.vtSet h) s =
      .next (done (vtSetOn t x.sector r (fld x.body 288 32)).2 i (vtSetOn t x.sector r (fld x.body 288 32)).1 0))) ∧
  (∀ (s : State) (h i : Nat) (x : Slot),
    let b := x.body
    let r := fld b 224 32
    let w : Watch := { id := 0, unit := 0, ref := r, cond := fld b 14 2, cmp := fld b 256 32, cookie := fld b 192 32, dkind := fld b 12 2,
                       dest := fld b 0 9, sector := x.sector, site := none, handle := some h, wake := none }
    let a := vtRegister (waitOn (unitTook s (refUnit r) x.key) i) w
    started s h 0x74 i x → (awaitsFwd x (refUnit r) = false ∧ unitBusy s x (refUnit r) = false) ∨ 6 ≤ refUnit r → a.1 = 0 → exec (.vtWatch h) s = .next a.2) ∧
  (∀ (s : State) (h i : Nat) (x : Slot) (w : Watch),
    let v := fld x.body 288 32
    started s h 0x75 i x → pendingWatch s x.ctx v = some w → awaitsFwd x w.unit = false → unitBusy s x w.unit = false →
    exec (.vtUnwatch h) s =
      .next (done (finish (unitTook (dropWatch s w.id) w.unit x.key) (slotOf v) 0x050C (s.vobj (refKey w.ref)).value s.now) i 0 0)) ∧
  (∀ (s : State) (h i k : Nat) (x : Slot),
    let dev := x.body.getLsbD 19
    let u := fld x.body 16 3
    let nx := fld x.body 40 8
    let parts := bitmapHomes (leAt x.input 0 64)
    started s h 0x78 i x → awaitsFwd x u = false → unitBusy s x u = false → (∀ p ∈ parts, homeGranted s x.sector p = true ∧ (dev = false → dieOf p = u)) →
    (parts ≠ [] ∨ nx ≠ 0) → (dev = true → s.num 0x4000 0 ≠ 1 ∨ spans parts nx u = false) → (barKeys dev u).find? (fun k => !(s.bar k).live) = some k →
    ((barKeys dev u).filter fun k => (s.bar k).live && (s.bar k).sector == x.sector).length < barQuota s x.sector dev u →
    let t := (unitTook s u x.key).setBar k { Barrier.never with live := true, gen := ((s.bar k).gen + 1) % 4096, parts := parts, nx := nx, owner := x.ctx, sector := x.sector }
    exec (.apxCreate h) s = .next (done (outWrite t x (fld x.body 320 64 + 64) (toBytes 4 (barRef t k))) i 0 0)) ∧
  (∀ (s : State) (h i : Nat) (x : Slot),
    let k := barKey (fld x.body 224 32)
    started s h 0x79 i x → barStatus s x.sector (fld x.body 224 32) = 0 → awaitsFwd x (barSeat k) = false →
    unitBusy s x (barSeat k) = false → exec (.apxDestroy h) s = .next (done (barDestroy (unitTook s (barSeat k) x.key) k) i 0 0)) ∧
  (∀ (s : State) (h i : Nat) (x : Slot),
    let k := barKey (fld x.body 224 32)
    let b := s.bar k
    started s h 0x7A i x → barStatus s x.sector (fld x.body 224 32) = 0 → awaitsFwd x (barSeat k) = false → unitBusy s x (barSeat k) = false →
    b.broken = false → b.narr < b.nx → b.dup = (b.arrived.length, b.narr) →
    exec (.apxArrive h) s = .next (barCheck ((waitOn (unitTook s (barSeat k) x.key) i).setBar k
      { b with narr := b.narr + 1, handles := b.handles ++ [h], dup := (b.dup.1, b.dup.2 + 1) }) k))

/-- A post to a live object adds its value; it then releases the earliest-registered watch whose condition holds for the new value, and none where
none holds; a sum past 0xFFFF_FFFF is refused with 0x0505 and changes nothing. A set writes its value and then releases every watch whose condition
holds for it, in order of registration (R176, R177). -/
def Obligations.SignalsFollowTheirRules : Prop :=
  ∀ (s : State) (sec r v : Nat), refStatus s sec r = 0 →
    let o := s.vobj (refKey r)
    let n := o.value.toNat + v
    let put (k : Nat) : State := s.setVobj (refKey r) { o with value := BitVec.ofNat 32 k }
    (n < 2 ^ 32 → (∀ w ∈ watchesOn s r, watchHolds w n = false) → vtPostOn s sec r v = (0, put n)) ∧
    (n < 2 ^ 32 → ∀ w, (watchesOn s r).find? (watchHolds · n) = some w → vtPostOn s sec r v = (0, releaseWatch (put n) w 1 n)) ∧
    (2 ^ 32 ≤ n → vtPostOn s sec r v = (0x0505, s)) ∧
    (v < 2 ^ 32 → vtSetOn s sec r v = (0, ((watchesOn s r).filter (watchHolds · v)).foldl (fun a w => releaseWatch a w 2 v) (put v)))

/-! ## Memory, integrity, the Chord and the guest (10, 11, 12, 13) -/

/-- An acceptable write writes its line and a read returns what the line holds with what the code finds; a tile failure poisons the line; RRET
places a line, WACK ends a write, RDERR stops the task with FX_MOVER; a request of a retired generation is squashed (R67, R148, R265, R280, R306,
R313, R325, R326). -/
def Obligations.LineRequests : Prop :=
  (∀ (s : State) (tag : Nat) (r : LineReq) (ok : Bool), findReq s tag = some r → current s r = true → acceptable s r true = true →
    let m := if r.die = stackOf r.off then (none, s) else takeMask s r.die
    let s1 := if ok then m.2 else tileFail m.2 (stackOf r.off) r.off
    exec (.wr (.issued tag) ok) s =
      .next (acceptReq (enqueue (dramLine s1 r.off r.data (m.1.orElse fun _ => partMask r.mask.toNat) (r.poison || !ok)) r.off true r.master (sourceOf r)) tag)) ∧
  (∀ (s : State) (tag : Nat) (r : LineReq) (found : EccResult), findReq s tag = some r → current s r = true → acceptable s r false = true →
    let s1 := dramFound s r.off found
    let s2 := { s1 with mem := { s1.mem with returned := s1.mem.returned ++ [(tag, dramRead s1 r.off 64, dramBad s1 r.off)] } }
    exec (.rd (.issued tag) found) s = .next (acceptReq (enqueue s2 r.off false r.master (sourceOf r)) tag)) ∧
  (∀ (s : State) (tag : Nat) (r : LineReq), findReq s tag = some r → current s r = false → r.accepted = false →
    (r.write = true → ∀ ok, exec (.wr (.issued tag) ok) s = .next (dropReq s tag)) ∧
    (r.write = false → ∀ found, exec (.rd (.issued tag) found) s = .next (dropReq s tag))) ∧
  (∀ (s : State) (tag t : Nat) (r : LineReq) (data : List Byte) (bad ok : Bool), findReq s tag = some r →
    s.mem.returned.find? (fun p => p.1 == tag) = some (t, data, bad) →
    let s1 := if ok then s else tileFail s r.die (64 * ((lmin (r.ls.map fun p => p.1 / 128)).getD 0))
    let s2 := { s1 with mem := { s1.mem with returned := s1.mem.returned.filter fun p => p.1 != tag } }
    exec (.rret (.issued tag) ok) s = .next (reqDone (s2.modFacet r.site fun f => placeLine f r.ls data (bad || !ok)) r)) ∧
  (∀ (s : State) (tag : Nat) (r : LineReq), findReq s tag = some r → r.write = true → r.accepted = true →
    exec (.wack (.issued tag)) s = .next (reqDone s r)) ∧
  (∀ (s : State) (tag : Nat) (r : LineReq) (cause : Byte), findReq s tag = some r → r.write = false →
    let s1 := { s with mem := { s.mem with returned := s.mem.returned.filter fun p => p.1 != tag } }
    exec (.rderr (.issued tag) cause) s = .next (failSite (dropReq s1 tag) r.site (reqPc s1 r) (BitVec.ofNat 32 r.off)))

/-- Each byte of the line that the mask names takes its datum; every other byte of DRAM keeps its value; the line is poisoned where the data brings
poison, clean where all 64 bytes are written clean, and otherwise as before; hub SRAM and the Facets are untouched (R280, R306). -/
def Obligations.LineWriteChangesOnlyItsBytes : Prop :=
  ∀ (s : State) (o : Nat) (m : Option Nat) (data : List Byte) (bad : Bool), data.length = 64 →
    let t := dramLine s o data m bad
    (∀ i < 64, mread t.mem.dram (64 * (o / 64) + i) =
      if (m.all fun b => nbit b i) then lget data i 0 else mread s.mem.dram (64 * (o / 64) + i)) ∧
    (∀ a, a < 64 * (o / 64) ∨ 64 * (o / 64) + 64 ≤ a → mread t.mem.dram a = mread s.mem.dram a) ∧
    dramBad t o = (bad || (m.isSome && dramBad s o)) ∧ t.mem.sram = s.mem.sram ∧ t.work = s.work

/-- A request that fails a check is counted as rejected and answered, an admitted one is applied; a MASK is kept for its seat's next WR; a response
from the guest is rejected; an EVT posts 1 to its line's object (R326, R336, R338, R339, R341, R484). -/
def Obligations.GuestTraffic : Prop :=
  (∀ (s : State) (g : GuestLine) (found : EccResult),
    let c := guestCheck s g false false
    guestUp s = true →
    (c ≠ 0 → exec (.rd (.guest g) found) s = .next (toGuest (fwReject s c) (.guestErr g.tag 2))) ∧
    (c = 0 → rateOk s g = true → guestRoom s g = true →
      exec (.rd (.guest g) found) s = .next (guestAdmit s { line := g, write := false, mask := none, found := found, tileOk := true }))) ∧
  (∀ (s : State) (g : GuestLine) (ok : Bool),
    let bad := takeMask s (guestMask g.sseat true)
    let m := takeMask bad.2 (guestMask g.sseat false)
    let c := guestCheck m.2 g true m.1.isSome
    guestUp s = true →
    (bad.1 ≠ none → exec (.wr (.guest g) ok) s = .next (toGuest m.2 (.guestAck g.tag))) ∧
    (bad.1 = none → c ≠ 0 → exec (.wr (.guest g) ok) s = .next (toGuest (fwReject m.2 c) (.guestAck g.tag))) ∧
    (bad.1 = none → c = 0 → rateOk m.2 g = true → guestRoom m.2 g = true →
      exec (.wr (.guest g) ok) s =
        .next (guestAdmit m.2 { line := g, write := true, mask := m.1, found := .clean, tileOk := ok }))) ∧
  (∀ (s : State) (m : ShortHdr) (bits : Dword),
    (m.sseat < 6 → m.gen = (s.sec m.sector).gen → exec (.mask (.inner m) bits) s = .next (keepMask s m.sseat bits.toNat)) ∧
    (guestUp s = true → guestHdr m = true → exec (.mask (.guest m) bits) s = .next (keepMask s (guestMask 6 false) bits.toNat)) ∧
    (guestUp s = true → guestHdr m = false → exec (.mask (.guest m) bits) s = .next (keepMask (fwReject s 1) (guestMask m.sseat true) bits.toNat))) ∧
  (∀ (s : State) (m : ShortHdr) (ok : Bool) (cause : Byte), guestUp s = true →
    ∀ c ∈ [Instr.rret (.guest m) ok, .rderr (.guest m) cause, .wack (.guest m)], exec c s = .next (fwReject s (if guestHdr m then 2 else 1))) ∧
  (∀ (s : State) (m : ShortHdr) (line : Fin 64),
    let r := s.num 0x4C30 line.val
    let u := refUnit r
    let key := 0xC80 + line.val
    let c := tget s.host.guestEvts (refKey r) 0
    let n := if c / 128 = s.tickNow then c % 128 else 0
    let t := unitTook { s with now := unitStamp s u key } u key
    let p := vtPostOn t (t.vobj (refKey r)).sector r 1
    guestUp s = true → m.sseat = 6 → m.sector = 0 → m.gen = 0 → nbit (s.num 0x4811 0) 5 = true → r ≠ 0 → n < 64 → routeUp s 5 u = true →
    refStatus s (s.vobj (refKey r)).sector r = 0 → p.1 = 0 →
    exec (.evt m line) s = .next { p.2 with now := s.now, host := { p.2.host with guestEvts := tput p.2.host.guestEvts (refKey r) (128 * s.tickNow + n + 1) } })

/-- Stack, row, bank and pseudo-channel of an offset are the fields of R279, the bank and the pseudo-channel XORed as it says; two offsets that
agree in stack, row, bank, pseudo-channel, line within the row and byte are one (R279). -/
def Obligations.DramAddressDecode : Prop :=
  (∀ o < 2 ^ 36,
    let a := o - stackOf o * 2 ^ 34
    stackOf o = o / 2 ^ 34 ∧ dramRow o = a / 2 ^ 20 ∧ dramBank o = a / 2 ^ 15 % 32 ^^^ a / 2 ^ 25 % 32 ∧ dramPc o = a / 2 ^ 8 % 32 ^^^ a / 2 ^ 20 % 32) ∧
  (∀ o p : Nat, stackOf o = stackOf p → dramRow o = dramRow p → dramBank o = dramBank p → dramPc o = dramPc p → o / 2 ^ 13 % 4 = p / 2 ^ 13 % 4 →
    o / 2 ^ 6 % 4 = p / 2 ^ 6 % 4 → o % 64 = p % 64 → o = p)

/-- The request that R282 picks is served and counted; a refresh, an idle row and the end of a refresh cycle change their bank; a window's opening
closes the last; a panic input is entered past its mark, left ten points back and reported once at 100 µs; a core's access that reaches over links
that are up takes place once its last line is issued and is held where a line has to wait, and faults out of reach or over a dead link (R278, R282,
R284, R285, R288, R289, R290, R293, R469). -/
def Obligations.MemoryCommands : Prop :=
  (∀ (s : State) (n : Fin 4) (pc : Fin 32) (i : Nat) (r : QReq),
    let k := 32 * n.val + pc.val
    let q := s.queue k
    refUrgent s n.val pc.val = false → nextIssue s n.val q = some i → q[i]? = some r →
    exec (.memctlIssue n pc) s = .next (resumeAll (afterServe (serve (countLines (s.setQueue k (q.take i ++ q.drop (i + 1))) n.val r.master 1) r.off)
      (bankOf r.off)))) ∧
  (∀ (s : State) (n : Fin 4) (pc bank : Fin 32),
    let k := bankNo n.val pc.val bank.val
    let b := s.bank k
    (s.plant.gated = false → exec (.refresh n pc bank) s = .next (s.setBank k { closeRow b with
      refreshes := (closeRow b).refreshes + 1, raa := (closeRow b).raa - Config.raaLimit,
      refAt := match tfind s.mem.trained n.val with
        | none => (closeRow b).refAt
        | some t => refBase (closeRow b) t + refInterval s n.val })) ∧
    (Nat.max b.cleared (tget s.mem.trained n.val 0) + (if stackHot s n.val then 16000000 else 32000000) ≤ s.now →
      exec (.actTableClear n pc bank) s = .next (s.setBank k { b with acts := [], before := b.acts, refreshes := 0, cleared := s.now })) ∧
    (b.row ≠ none → b.last + 1000 ≤ s.now → exec (.rowIdleClose n pc bank) s = .next (s.setBank k (closeRow b)))) ∧
  (∀ s : State, s.now % 1024 = 0 → s.dev.st ≠ .off → s.mem.window ≠ some (s.now / 1024) →
    let t := takeBudgets (closeWindow s)
    exec .regulatorWindow s = .next (resumeAll { t with mem := { t.mem with window := some (s.now / 1024) } })) ∧
  (∀ (s : State) (i : Fin 3) (reported : Nat),
    let p := s.panicIn i.val
    let u := panicReport s i.val reported
    (p.on = false → pastMark u i.val = true →
      exec (.panicEnter i reported) s =
        .next ((u.setPanic i.val { level := panicFill u i.val, on := true, since := u.now, told := false }).count32 0x3441 i.val 1)) ∧
    (p.on = true → backTen u i.val = true →
      exec (.panicExit i reported) s = .next ((u.setPanic i.val { p with level := panicFill u i.val, on := false }).count64 0x3442 i.val (u.now - p.since))) ∧
    (p.on = true → p.told = false → p.since + 100000 ≤ s.now →
      let seat := if i = 0 then 4 else 5
      exec (.panicSustained i) s = .next (nimWarn (dieFault (s.setPanic i.val { p with told := true }) 0x16 i.val seat) seat 0x0103
        (toBytes 1 i.val ++ toBytes 8 (s.now - p.since))))) ∧
  (∀ (s : State) (core : Fin 16) (a : Nat) (op : CoreOp), s.num 0x1400 0 + 0x4000000 ≤ a ∨ a < s.num 0x1400 0 → s.dieUp (4 + core.val / 8) = true →
    s.dev.st ≠ .off → coreLen op ≠ 0 → (a < 0xF000000000 ∨ 0xF004000000 ≤ a) →
    (coreReach s a (coreLen op) = false ∨ coreCut s core.val a (coreLen op) = true →
      exec (.applicationCoreAccess core a op) s = .next (toGuest s (.coreFault core.val false))) ∧
    (coreReach s a (coreLen op) = true → coreCut s core.val a (coreLen op) = false →
      let lines := coreLineList a (coreLen op)
      let p := coreIssue s core.val (coreWrites op) lines
      (lines ≠ [] → (∃ c ∈ s.mem.coreHeld, c.1 = core.val) →
        exec (.applicationCoreAccess core a op) s = .next { s with mem := { s.mem with coreHeld := s.mem.coreHeld ++ [(core.val, a, op, 0)] } }) ∧
      (lines = [] ∨ (∀ c ∈ s.mem.coreHeld, c.1 ≠ core.val) →
        exec (.applicationCoreAccess core a op) s = .next (if p.2 = 0 then coreDo p.1 core.val a op
          else { p.1 with mem := { p.1.mem with coreHeld := p.1.mem.coreHeld ++ [(core.val, a, op, lines.length - p.2)] } }))))

/-- With requests queued, MEMCTL_ISSUE completes and removes exactly one request, one behind no earlier request of the same source for the same
line; the others keep their order, other queues and every byte of DRAM are as before (R281, R282). -/
def Obligations.IssueTakesOneRequest : Prop :=
  ∀ (s : State) (n : Fin 4) (pc : Fin 32), s.mem.ingress = [] → s.sense.inbuf = [] → s.chord.fw.waiting = [] → s.mem.coreHeld = [] →
    refUrgent s n.val pc.val = false → s.queue (32 * n.val + pc.val) ≠ [] →
    ∃ i r t, exec (.memctlIssue n pc) s = .next t ∧ (s.queue (32 * n.val + pc.val))[i]? = some r ∧ behind (s.queue (32 * n.val + pc.val)) i r = false ∧
      t.queue (32 * n.val + pc.val) = (s.queue (32 * n.val + pc.val)).eraseIdx i ∧
      (∀ k, k ≠ 32 * n.val + pc.val → t.queue k = s.queue k) ∧ t.mem.dram = s.mem.dram

/-- On an activate a held row's count rises by one; a new row takes an empty entry at 1, or with eight entries the first of the least counts at
that count plus one; at the threshold the row's neighbours are refreshed and its count is zero; no other entry changes (R287). -/
def Obligations.ActivateCountTable : Prop :=
  ∀ (l : List (Nat × Nat)) (row t : Nat), l.length ≤ 8 →
    let r := actTable l row t
    let kept (c : Nat) : Nat := if t ≤ c then 0 else c
    (∀ n, tfind l row = some n → r.2 = decide (t ≤ n + 1) ∧ tfind r.1 row = some (kept (n + 1)) ∧ ∀ k, k ≠ row → tfind r.1 k = tfind l k) ∧
    (tfind l row = none → l.length < 8 → r = (l ++ [(row, kept 1)], decide (t ≤ 1))) ∧
    (tfind l row = none → l.length = 8 → ∃ i p, l[i]? = some p ∧ (∀ q ∈ l, p.2 ≤ q.2) ∧ (∀ j < i, ∀ q, l[j]? = some q → p.2 < q.2) ∧
      r = (lset l i (row, kept (p.2 + 1)), decide (t ≤ p.2 + 1)))

/-- A scrub read that its rate and store allow takes the next line with what the code finds; a scheduled write-back leaves its list; a qualified
location takes a spare; a lap past its limit is told once; INT_PROBE writes and returns the number of poisoned lines (R303, R307, R308, R309, R310,
R312, R315). -/
def Obligations.IntegrityCommands : Prop :=
  (∀ (s : State) (st : Store) (found : EccResult) (w : Fin 8) (line : Nat), scrubs s st = true → scrubLine s st = some line →
    exec (.scrubRead st found w) s = .next (scrubNext (scrubFound s st line w.val found) st line)) ∧
  (∀ (s : State) (st : Store) (a : Nat),
    let k := storeKey st
    let x := s.scrub k
    let s1 := s.setScrub k { x with wb := x.wb.filter (· != a / 64) }
    (match st with
      | .dram _ => x.wb.contains (a / 64) = true
      | .hubSram _ => x.wb.contains (a / 64) = true
      | .localStore f => (s.facet f).wb.contains (a / 64) = true) →
    exec (.correctiveWriteBack st a) s = .next (match st with
      | .dram _ => afterServe (serve s1 a) (bankOf a)
      | .hubSram _ => s1
      | .localStore f => s.setFacet f { s.facet f with wb := (s.facet f).wb.filter (· != a / 64) })) ∧
  (∀ (s : State) (n : Fin 4) (a : Nat),
    let k := storeKey (.dram n)
    let x := s.scrub k
    x.qualify.contains (a / 64) = true → x.remaps.length < 64 →
    exec (.remapCopy (.dram n) a) s = .next (pendRepair
      ((s.setScrub k { x with qualify := x.qualify.filter (· != a / 64), remaps := x.remaps ++ [a / 64] }).setNum 0x3803 n.val (x.remaps.length + 1))
      n.val (rowEntry (64 * (a / 64))))) ∧
  (∀ (s : State) (f : Nat) (a : Nat),
    let k := storeKey (.localStore f)
    let x := s.scrub k
    x.qualify.contains (a / 8) = true → x.remaps.length < 16 →
    exec (.remapCopy (.localStore f) a) s =
      .next (lsCount (s.setScrub k { x with qualify := x.qualify.filter (· != a / 8), remaps := x.remaps ++ [a / 8] }) f 0 5)) ∧
  (∀ (s : State) (st : Store),
    let k := storeKey st
    let x := s.scrub k
    let c := storeCode st
    x.next ≠ 0 → x.told = false → x.start + 1000000 * s.num 0x3809 c.1 < s.now →
    exec (.scrubLapLimit st) s = .next (nimWarn (s.setScrub k { x with told := true }) (storeSeat st) 0x0101
      (toBytes 1 c.1 ++ toBytes 1 c.2 ++ toBytes 8 (s.now - x.start)))) ∧
  (∀ (s : State) (h i : Nat) (x : Slot),
    let offs := (List.range (fld x.body 224 32)).map fun j => (fld x.body 320 64 + 64 * j, paged x.pages (fld x.body 320 64 + 64 * j))
    let bad := (offs.filter fun p => dramBad s p.2).map Prod.fst
    let s1 := offs.foldl (fun a p => engineLines a p.2 1 false 14 (engineSrc 14)) s
    let s2 := outWrite s1 x (fld x.body 256 64) (toBytes 8 (bad.headD (2 ^ 64 - 1)) ++ toBytes 4 bad.length ++ toBytes 4 0)
    started s h 0x90 i x →
    exec (.intProbe h) s = .next (done (countPaged s2 x.pages (fld x.body 256 64) 16 14 true) i 0 (BitVec.ofNat 32 bad.length)))

/-- A sound flit in order is taken with the acknowledgement and credits it carries and its slots are delivered as far as they can be, one whose CRC
fails is refused, one with a reserved bit stops an inner link; a refusal is repeated and an unacknowledged flit retried after 2,000 ns; a lost link
or PLL is stopped and reported (R32, R324, R329, R330, R331, R332). -/
def Obligations.LinkCommands : Prop :=
  (∀ (s : State) (l : Fin 14) (d : Fin 2) (b : List Byte),
    let x := s.dir l.val d.val
    let h := flitHead b
    let q := nbits h 36 12
    let good := crc64 (b.take 248) == leAt b 248 8
    let s1 := sendFlit s l.val d.val b good
    let due := q = (if flitIdle b then (x.expect + 4095) % 4096 else x.expect)
    linkUp s l.val = true → b.length = 256 → sendable s l.val d.val b good = true →
    (good = false → exec (.flitReceive l d b) s = .next (refuse s1 l.val d.val true)) ∧
    (good = true → flitReserved b = true → ¬ (l = 13 ∧ d = 1) → exec (.flitReceive l d b) s = .next (linkDown s l.val)) ∧
    (good = true → flitReserved b = false → ¬ (l = 13 ∧ d = 1) → due →
      exec (.flitReceive l d b) s = .next (drainDir (takeAck (s1.modDir l.val d.val fun y =>
        if flitIdle b then { y with fresh := false }
        else { y with expect := (q + 1) % 4096, nak := none, fresh := false, fails := 0, sendNak := false, buffer := y.buffer ++ flitUnits b })
        l.val d.val h) l.val d.val)) ∧
    (good = true → l = 13 → d = 1 → due → exec (.flitReceive l d b) s = .next (flitTaken s1 13 1 b)) ∧
    (good = true → (flitReserved b = false ∨ (l = 13 ∧ d = 1)) → ¬ due → exec (.flitReceive l d b) s = .next (refuse s1 l.val d.val false))) ∧
  (∀ (s : State) (l : Fin 14) (d : Fin 2) (t : Nat), (s.dir l.val d.val).nak = some t → linkUp s l.val = true → t + 2000 ≤ s.now →
    exec (.nakTimeout l d) s = .next (s.modDir l.val d.val fun y => { y with nak := some s.now, fresh := true, sendNak := true })) ∧
  (∀ (s : State) (l : Fin 14) (d : Fin 2), linkUp s l.val = true → (s.dir l.val d.val).unacked ≠ [] → (s.dir l.val d.val).ackAt + 2000 ≤ s.now →
    exec (.ackTimeout l d) s = .next (retry (s.modDir l.val d.val fun y => { y with ackAt := s.now, replay := y.unacked.map Prod.fst }) l.val)) ∧
  (∀ (s : State) (l : Fin 14), linkUp s l.val = true → l ≠ 13 →
    exec (.moduleTrainedStateLost l) s =
      .next (dieFault (dieFault (linkStop s l.val) 0x15 l.val (linkEnds l.val).1) 0x15 l.val (linkEnds l.val).2)) ∧
  (∀ (s : State), linkUp s 13 = true →
    let a := linkStop s 13
    exec (.moduleTrainedStateLost 13) s =
      .next (nimWarn (dieFault (assertGrst a) 0x15 13 (linkEnds 13).1) 5 0x0104 [0])) ∧
  (∀ (s : State) (d : Fin 40), s.dev.st ≠ .off → nbit s.dev.pll d.val = true →
    let a := raiseFault { s with dev := { s.dev with pll := s.dev.pll - 2 ^ d.val } } s.now 0 0x14 (domainSeat d.val) 0x1FF d.val none
    exec (.pllLossOfLock d) s = .next (if d.val < 20 && d.val % 5 = 3 then
      ((List.range 14).filter fun l => (linkEnds l).1 == d.val / 5 || (linkEnds l).2 == d.val / 5).foldl linkDown a else a))

/-- P0→P2→P3, P3→P1→P0, P1→P3→P2 and P2→P0→P1 are the two-hop routes, and no route between Prisms has a hub on it (R27). -/
def Obligations.FixedRoutes : Prop :=
  (∀ a < 4, ∀ b < 4, (route a b = [] ↔ a = b) ∧ ∀ l ∈ route a b, (linkEnds l).1 < 4 ∧ (linkEnds l).2 < 4) ∧
  (route 0 3).map linkEnds = [(0, 2), (2, 3)] ∧ (route 3 0).map linkEnds = [(1, 3), (0, 1)] ∧ (route 1 2).map linkEnds = [(1, 3), (2, 3)] ∧
  (route 2 1).map linkEnds = [(0, 2), (0, 1)]

/-! ## Streams (14), fusion (15), the gateway (19) -/

/-- Stream entries are written, a direct write that the dictionary refuses answers its status and changes nothing, frames are started, ended and
timed out on every entry of their channel, long packets taken by the running frame of their type, packets with bad headers counted, and accepted
transmit commands sent (R344, R346, R348, R349, R350, R356, R358, R360). -/
def Obligations.StreamCommands : Prop :=
  (∀ (s : State) (hub : Fin 2) (n : Nat) (value : List Byte),
    let told (t : State) : State := { t with host := { t.host with out := t.host.out ++ [.entryStatus 0x2100 n 0] } }
    entryStatus s hub.val none true 0x2100 n = 0 → n < 128 → value.length = 32 → strOn (s.stream n) = false →
    (strOn (ofBytes value) = false → strReserved (ofBytes value) = false → exec (.strEntryWrite hub n value) s = .next (told (s.setOcts 0x2100 n value))) ∧
    (strOn (ofBytes value) = true → (strCheck s n (ofBytes value)).1 = 0 →
      let t := (s.setOcts 0x2100 n value).setNum 0x2101 n 0
      exec (.strEntryWrite hub n value) s =
        .next (told { t with sense := { t.sense with
          ringPages := tput t.sense.ringPages n (pageOffsets (strCheck s n (ofBytes value)).2),
          closing := t.sense.closing.map fun p => if p.1 = n then (n, { p.2 with old := true }) else p } }))) ∧
  (∀ (s : State) (hub b : Fin 2) (n : Nat) (v : List Byte) (c : Instr × Nat × Nat),
    c ∈ [(.strEntryWrite hub n v, 0x2100, n), (.fusBindWrite hub b v, 0x2400, b.val), (.calRecWrite hub b n v, 0x2408 + b.val, n)] →
    let st := entryStatus s hub.val none true c.2.1 c.2.2
    st ≠ 0 → exec c.1 s = .next { s with host := { s.host with out := s.host.out ++ [.entryStatus c.2.1 c.2.2 st] } }) ∧
  (∀ (s : State) (h i : Nat) (x : Slot), started s h 0xB0 i x → x.sector = 0 →
    let w := strWrite s (fld x.body 0 7) (slice x.input 0 32)
    exec (.strSet h) s = .next (done w.2 i w.1 0)) ∧
  (∀ (s : State) (port vc : Fin 16) (fnum : Nat), portUp s port.val = true →
    exec (.frameStart port vc fnum) s = .next ((onChannel s port.val vc.val).foldl (fun a n => startFrame a n fnum) s)) ∧
  (∀ (s : State) (port vc : Fin 16), portUp s port.val = true →
    let s1 := (onChannel s port.val vc.val).foldl expireFrame s
    let es := (onChannel s1 port.val vc.val).filter fun n => (tfind s1.sense.frames n).isSome
    exec (.frameEnd port vc) s = .next (if es.isEmpty then s1.count64 0x2012 port.val 1 else es.foldl (fun a n => closeFrame a n 0 s.now) s1)) ∧
  (∀ (s : State) (n : Nat) (f : Frame), tfind s.sense.frames n = some f → strTmo f.raw ≠ 0 → f.tfs + strTmo f.raw ≤ s.now →
    exec (.frameTimeout n) s = .next (closeFrame s n flagTmo (f.tfs + strTmo f.raw))) ∧
  (∀ (s : State) (port vc : Fin 16), portUp s port.val = true →
    exec (.lineStart port vc) s = .next (countShort s (2 * port.val)) ∧ exec (.lineEnd port vc) s = .next (countShort s (2 * port.val + 1))) ∧
  (∀ (s : State) (port : Fin 16) (p : LongPacket) (n : Nat) (f : Frame), portUp s port.val = true →
    let s1 := (onChannel s port.val p.vc).foldl expireFrame s
    p.hdrOk = true → (onChannel s1 port.val p.vc).find? (fun n => strDt (s1.stream n) == p.dt) = some n → tfind s1.sense.frames n = some f →
    exec (.longPacket port p) s = .next (takeLine s1 n f p)) ∧
  (∀ (s : State) (port : Fin 16) (p : LongPacket), portUp s port.val = true → p.hdrOk = false →
    let s1 := (onChannel s port.val p.vc).foldl expireFrame s
    exec (.longPacket port p) s = .next (badHeader ((s1.sense.frames.map Prod.fst).foldl expireFrame s1) port.val)) ∧
  (∀ (s : State) (h i : Nat) (x : Slot), started s h 0xB2 i x → exec (.strTx h) s = .next (waitOn s i)) ∧
  (∀ (s : State) (port : Fin 4) (h : Nat) (x : Slot), nextTx s port.val = some (h, x) → nbit (txPort s port.val) 0 = true →
    s.dieUp (4 + port.val / 2) = true → tornCmd s h 0xB2 = none →
    exec (.strTxFrameSend port) s = .next (done (txSent s port.val h x) (slotOf h) 0 0))

/-- Where the frame's lines are all in their queues and one has room, FRAME_RECORD_FINAL completes: the record is the entry's last record, the
frame count goes on by one, no frame is left closing, and no other entry of the dictionary's octet values changes (R351, R352). -/
def Obligations.FrameRecordIsPublishedOnce : Prop :=
  ∀ (s : State) (n : Nat) (f : Frame), s.sense.closing = [(n, f)] → s.sense.inbuf = [] → hubReach s (frameHub f) (slotAt f 0) = true →
    roomFor (s.queue (queueOf (slotAt f 0))) (frameHub f) = true → strNotify f.raw = 0 → f.old = false → s.stream n / 2 = f.raw / 2 →
    ∃ t, exec (.frameRecordFinal n) s = .next t ∧ t.sense.closing = [] ∧ t.octs 0x2102 n = frameRecord n f true ∧
      t.num 0x2101 n = (f.fseq + 1) % 2 ^ 64 ∧ ∀ k, k ≠ 256 * 0x2102 + n → tget t.host.oct k [] = tget s.host.oct k []

/-- With every line of the frame out of the receive write buffer, the hub reaching the slot's stack, room in its queue and the notify object's unit
ready for the entry's key or out of the hub's reach, FRAME_RECORD_FINAL answers the state in which the oldest closed frame of the entry has its
record in its slot and in STR_LAST and is closing no longer, its enabling's sequence has moved on, and a notify object in reach is set with a
refusal counted (that no later frame of another key has gone before at the unit is the order of R179, log entry 29) (R13, R344, R345, R351, R352).
-/
def Obligations.FrameRecordFinalCompletes : Prop :=
  ∀ (s : State) (n m i : Nat) (f : Frame),
    let o := slotAt f 0
    let unit := refUnit (strNotify f.raw)
    let next := (f.fseq + 1) % 2 ^ 64
    s.sense.closing.find? (fun p => p.1 == n) = some (m, f) → lfind (fun p : Nat × Frame => p.1 == n) s.sense.closing = some i →
    (∀ l ∈ s.sense.inbuf, l.entry ≠ n ∨ l.tfs ≠ f.tfs) → hubReach s (frameHub f) o = true → roomFor (s.queue (queueOf o)) (frameHub f) = true →
    let s1 := enqueue (dramLine s o (frameRecord n f true) none false) o true (frameHub f) (0x40000 + n)
    let s2 := { s1 with sense := { s1.sense with closing := s.sense.closing.eraseIdx i } }.setOcts 0x2102 n (frameRecord n f true)
    let s3 := if f.old = false ∧ s.stream n / 2 = f.raw / 2 then s2.setNum 0x2101 n next else s2
    let v := vtSetOn (unitTook s3 unit (0xC00 + n)) (strSector f.raw) (strNotify f.raw) (next % 2 ^ 32)
    (strNotify f.raw = 0 ∨ routeUp s (4 + frameHub f) unit = false → exec (.frameRecordFinal n) s = .next s3) ∧
    (strNotify f.raw ≠ 0 → routeUp s (4 + frameHub f) unit = true → unitTakes s unit (0xC00 + n) = true →
      exec (.frameRecordFinal n) s = .next (if v.1 = 0 then v.2 else v.2.count32 0x2103 n 1))

/-- A legal binding or calibration record is taken in CONFIG; a lift, a voxel pass and an assignment on clean input complete with their buffers,
results and counts; a sensor's report expires (R362, R363, R365, R366, R367, R368, R369, R370, R371, R376, R380). -/
def Obligations.FusionCommands : Prop :=
  (∀ (s : State) (hub b : Fin 2) (value : List Byte),
    let r := ofBytes value
    let areas := (bindAreas r).map fun a => latchPages s (bindSector r) a.1 a.2 true
    entryStatus s hub.val none true 0x2400 b.val = 0 → value.length = 128 → bindShape r = true → (s.sec (bindSector r)).st = .active →
    (∀ a ∈ areas, a.isSome = true) →
    let s1 := s.setOcts 0x2400 b.val value
    exec (.fusBindWrite hub b value) s = .next { s1 with
      sense := { s1.sense with fusPages := areas.zipIdx.foldl (fun t p => tput t (8 * b.val + p.2) (pageOffsets (p.1.getD []))) s1.sense.fusPages },
      host := { s1.host with out := s1.host.out ++ [.entryStatus 0x2400 b.val 0] } }) ∧
  (∀ (s : State) (hub b : Fin 2) (i : Nat) (value : List Byte),
    let r := ofBytes value
    let p := (List.range 10).map fun k => BitVec.ofNat 32 (nbits r (32 * k) 32)
    entryStatus s hub.val none true (0x2408 + b.val) i = 0 → value.length = 64 → i < 48 → calOk r = true →
    let t := (s.setOcts (0x2408 + b.val) i value).setSensor b.val i { lidar := nbit r 320, p := p, ref := p, rot := rotOf p, cinv := false, out := 0 }
    exec (.calRecWrite hub b i value) s = .next { t with host := { t.host with out := t.host.out ++ [.entryStatus (0x2408 + b.val) i 0] } }) ∧
  (∀ (s : State) (h i : Nat) (x : Slot) (p : PeBuf) (c : Instr × Nat × Bool), c ∈ [(.peLift h, 0xA0, false), (.peVoxel h, 0xA1, true)] →
    started s h c.2.1 i x → peTake s x c.2.2 = some p → (∀ a ∈ peReads c.2.2 x.body, pagedBad s x.pages a.1 a.2 = false) →
    exec c.1 s = .next (done (peDone s x c.2.2 p) i 0 (if (s.peBuf x.hub).start.isSome then 0 else 1))) ∧
  (∀ (s : State) (h i : Nat) (x : Slot), started s h 0xA2 i x → (∀ r ≤ fld x.body 0 9, pagedBad s x.pages (solveRow x r) (solveWidth x) = false) →
    exec (.asSolve h) s = .next (done (solveDone s x) i 0 (BitVec.ofNat 32 (solveOf s x).cost))) ∧
  (∀ (s : State) (b : Fin 2) (i : Nat), s.operating = true → s.atBoundary = true → s.sched.closed * s.tickNs < s.now → i < 48 →
    bindOn (s.binding b.val) = true → (s.sensor b.val i).out = 1 →
    exec (.sensorOutExpiry b i) s = .next (s.setSensor b.val i { s.sensor b.val i with out := 0 }))

/-- Among all assignments that give every row a free, allowed column of its own or none, the solver's is one, its pairs and cost are its own, and
it comes before every other by R381's three rules: more pairs, then less cost, then the lexicographically smaller vector of columns, 512 for none
(R381). -/
def Obligations.AssignmentIsTheBest : Prop :=
  ∀ (rows : List (List Nat)) (free cols : List Nat), free.Nodup → (∀ c ∈ free, c < 512) → fitsRows rows free cols → cols ≠ (assign rows free).cols →
    fitsRows rows free (assign rows free).cols ∧ assign rows free = worth rows (assign rows free).cols ∧
    (assign rows free).better (worth rows cols) = true

/-- A gPTP relation and a gate list are taken; a queue's next owned slot is sent and completed; CAN frames go out in ascending order of identifier
and come in to their FIFO and their bridges; a received Ethernet frame goes to its queue or to its bridge (R475, R476, R477, R478, R479, R481,
R482, R483). -/
def Obligations.GatewayCommands : Prop :=
  (∀ (s : State) (hub : Fin 2) (t0 ratio : Dword), hubUp s hub.val = true →
    exec (.ptpSync hub t0 ratio) s = .next (s.setOcts 0x4C16 hub.val (toBytes 8 s.now ++ toBytes 8 t0.toNat ++ toBytes 8 ratio.toNat))) ∧
  (∀ (s : State) (n : Nat) (value : List Byte),
    let st := entryStatus s (if n < 6 then 0 else 1) none true 0x4C11 n
    (st ≠ 0 → exec (.gwQbvWrite n value) s = .next { s with host := { s.host with out := s.host.out ++ [.entryStatus 0x4C11 n st] } }) ∧
    (st = 0 → n < 12 → qbvOk value = true →
      let running := ((tfind s.host.gates n).map Prod.fst).getD []
      let next := if value.isEmpty then (([] : List Byte), none) else (running, some (value, qbvStart value (gptp s (n / 6) (s.now + 1000000))))
      let s1 := s.setOcts 0x4C11 n value
      exec (.gwQbvWrite n value) s = .next { s1 with host := { s1.host with
        gates := tput s1.host.gates n next, out := s1.host.out ++ [.entryStatus 0x4C11 n 0] } })) ∧
  (∀ (s : State) (n start : Nat) (run l : List Byte), tfind s.host.gates n = some (run, some (l, start)) → (start : Int) ≤ gptp s (n / 6) s.now →
    exec (.gateListSwitch n) s = .next { s with host := { s.host with gates := tput s.host.gates n (l, none) } }) ∧
  (∀ (s : State) (hub : Fin 2) (q : Fin 8) (i : Nat), hubUp s hub.val = true → queueOn s hub.val q.val = true →
    tfind s.host.txBusy (8 * hub.val + q.val) = none → ownedFrom s hub.val q.val (tget s.host.txAt (8 * hub.val + q.val) 0) = some i →
    exec (.txQueueScan hub q) s = .next (txBegin s hub.val q.val i)) ∧
  (∀ (s : State) (hub : Fin 2) (q : Fin 8) (i st : Nat) (bad : Bool),
    let s0 := drainGates s
    let a := queueSlot s0 hub.val q.val i
    hubUp s0 hub.val = true → tfind s0.host.txBusy (8 * hub.val + q.val) = some (i, bad) →
    (∀ x ∈ s0.host.leaving, x.hub = hub.val → x.queue ≠ some q.val) →
    let s1 := sramWrite s0 hub.val (a + 16) (toBytes 8 s0.now ++ toBytes 8 (lowBits 64 (gptp s0 hub.val s0.now)) ++ toBytes 2 st)
    let s2 := if bad then sramWrite s1 hub.val (a + 1) (toBytes 1 (slotField s0 hub.val a 1 1 ||| 4)) else s1
    let s3 := sramWrite s2 hub.val a [0]
    exec (.ethTxComplete hub q st) s = .next { s3 with host := { s3.host with txBusy := tdel s3.host.txBusy (8 * hub.val + q.val) } }) ∧
  (∀ (s : State) (c : Fin 12) (i : Nat), canOn s c.val = true →
    (sortBy (fun i => slotField s (c.val / 6) (canSlot s c.val i) 4 4)
      ((List.range 32).filter (canReady s c.val))).head? = some i →
    let s1 := sramWrite (sramWrite s (c.val / 6) (canSlot s c.val i + 14) (toBytes 2 0 ++ toBytes 8 s.now)) (c.val / 6) (canSlot s c.val i) [0]
    exec (.canFrameTransmit c) s = .next { s1 with host := { s1.host with out := s1.host.out ++ [.can c.val (canRead s c.val i)] } }) ∧
  (∀ (s : State) (b : Fin 32) (p : Pdu), tfind s.host.pdus b.val = some p → p.opened + 1000 * leAt (bridgeCfg s b.val) 18 2 ≤ s.now →
    exec (.bridgeTransitExpiry b) s = .next (sendPdu s b.val)) ∧
  (∀ (s : State) (c : Fin 12) (f : CanFrame), canOn s c.val = true → canFormat f = true →
    exec (.canFrameReceive c f) s = .next ((List.range 32).foldl (fun a b => bridgeFrame a b c.val f) (canStore s c.val f))) ∧
  (∀ (s : State) (hub : Fin 2) (dest src : BitVec 48) (rest : List Byte), hubUp s hub.val = true → rest.length ≤ 9204 →
    let frame := ethFrame dest src rest
    let r := rxQueue s hub.val frame
    (r.1 = none → exec (.ethFrameReceive hub dest src rest) s = .next r.2) ∧
    (∀ q, r.1 = some q → bridged r.2 hub.val frame = none → exec (.ethFrameReceive hub dest src rest) s = .next (ethStore r.2 hub.val q frame)) ∧
    (∀ q b payload, r.1 = some q → bridged r.2 hub.val frame = some (b, payload) →
      exec (.ethFrameReceive hub dest src rest) s = .next ((acfMessages 256 payload).foldl (fun a m => bridgeIn a b m) r.2)))

/-! ## Boot, security and keys (20), supply and pins (00, 23) -/

/-- UPD_VERIFY keeps an accepted image's identity; UPD_WRITE writes it hub by hub; ATT_REPORT signs and writes the report; a key slot is emptied or
installed with a fresh window; recovery takes data, verifies, flashes and discards (R499, R500, R501, R505, R508, R498). -/
def Obligations.SecurityCommands : Prop :=
  (∀ (s : State) (h i : Nat) (x : Slot),
    let img := updImage s x
    let st := updStatus s x.hub img
    let s1 := countPaged s x.pages (fld x.body 320 64) (fld x.body 288 32) 11 false
    started s h 0xE0 i x → pagedBad s x.pages (fld x.body 320 64) (fld x.body 288 32) = false →
    exec (.updVerify h) s = .next (if st = 0 then done (s1.setOcts 0x4803 0 (fwIdentity img)) i 0 (BitVec.ofNat 32 (fwSvn img))
      else done (s1.setOcts 0x4803 0 []) i st 0)) ∧
  (∀ (s : State) (h i : Nat) (x : Slot) (readback : List (List Byte)), started s h 0xE1 i x →
    updAt s (handleOf i x) = none → updBusy s (fld x.body 0 2) (handleOf i x) = false →
    pagedBad s x.pages (fld x.body 320 64) (fld x.body 288 32) = false →
    s.octs 0x4803 0 ≠ [] → fwIdentity (updImage s x) = s.octs 0x4803 0 → (updImage s x).length = fwClen (updImage s x) + 3309 →
    exec (.updWrite h readback) s = .next (updHubs (countPaged s x.pages (fld x.body 320 64) (fld x.body 288 32) 11 false) i x (updImage s x) readback
      (updNext (fld x.body 0 2) 0))) ∧
  (∀ (s : State) (h i : Nat) (x : Slot),
    let va := fld x.body 320 64
    let body := reportBody s x.hub (fld x.body 0 6) (fld x.body 64 256)
    started s h 0xE2 i x →
    exec (.attReport h) s =
      .next (done (countPaged (outWrite s x va (body ++ slice (mldsaSign (identitySeed s) body) 0 3309)) x.pages va 3565 11 true) i 0 0)) ∧
  (∀ (s : State) (hub : Fin 2) (via : Option Nat) (n : Nat) (value : List Byte), s.dev.st ∈ [DevState.config, .operational] → n < 15 →
    (∀ k, via = some k → nbit (s.keySlot k).mask 2 = true) →
    (value = [] → exec (.bsAxKey hub via n value) s = .next { s with plant := { s.plant with keys := tdel s.plant.keys n } }) ∧
    (value.length = 48 → leAt value 39 1 < 8 → leAt value 40 8 = 0 → ((s.keySlot n).installed = true → leAt value 36 3 ≠ (s.keySlot n).gen) →
      let slot : KeySlot := { installed := true, gen := leAt value 36 3, mask := leAt value 39 1, key := value.take 32, salt := (value.drop 32).take 4,
                              tx := 1, high := 0, seen := [] }
      exec (.bsAxKey hub via n value) s = .next (s.setKeySlot n slot))) ∧
  (∀ (s : State) (hub : Fin 2), recovering s hub.val = true →
    (∀ value : List Byte,
      let off := leAt value 0 8
      let data := value.drop 8
      data ≠ [] → data.length ≤ 1016 → off + data.length ≤ 0x600000 →
      exec (.bsRecData hub value) s = .next ((sramWrite s hub.val (0x01A00000 + off) data).modHub hub.val fun x =>
        { x with recovery := data.zipIdx.foldl (fun t p => tput t (off + p.2) p.1) x.recovery })) ∧
    exec (.bsRecCmdVerify hub) s = .next (if fwCheck s hub.val (recImage s hub.val) = 0 then takeImage s hub.val (recImage s hub.val)
      else bootStatus s hub.val 0x0919 0xE) ∧
    (∀ readback,
      let s1 := s.modHub hub.val fun x => { x with flash := some readback }
      exec (.bsRecCmdFlash hub readback) s = .next (if fwCheck s hub.val (recImage s hub.val) ≠ 0 then bootStatus s hub.val 0x0919 0xE
        else if fwCheck s1 hub.val readback = 0 then takeImage s1 hub.val readback else bootStatus s1 hub.val 0x0917 0xE)) ∧
    exec (.bsRecCmdDiscard hub) s = .next (s.modHub hub.val fun x => { x with recovery := [] }))

/-- PWRGD takes the device from OFF to BOOT at time 0 with the memory, the Facets, the tables and the schedule of State.reset; its loss takes it to
OFF with all of these as at reset; a low of RSTIN_N of 10 µs restarts the device; its release clears the pin (R4, R5, R492, R517, R569). -/
def Obligations.SupplyAndReset : Prop :=
  (∀ s : State, s.dev.pwrgd = false → ∃ t, exec .pwrgdAssert s = .next t ∧ t.dev.st = .boot ∧ t.dev.pwrgd = true ∧ t.now = 0 ∧ t.mem = State.reset.mem ∧
    t.work = State.reset.work ∧ t.sync = State.reset.sync ∧ t.cmds = State.reset.cmds ∧ t.sched = State.reset.sched ∧ t.kv = [] ∧ t.sectors = []) ∧
  (∀ s : State, s.dev.pwrgd = true → ∃ t, exec .pwrgdDeassert s = .next t ∧ t.dev.st = .off ∧ t.now = 0 ∧ t.mem = State.reset.mem ∧
    t.work = State.reset.work ∧ t.sync = State.reset.sync ∧ t.cmds = State.reset.cmds ∧ t.sched = State.reset.sched ∧ t.kv = [] ∧ t.sectors = []) ∧
  (∀ (s : State) (lowNs : Nat), 10000 ≤ lowNs → s.dev.st ≠ .off → s.dev.thermtrip = false →
    let b : State := { s.takeFree 1 with dev := { s.dev with rstin := true } }
    let a := restartDevice b
    (s.plant.coolant.survival = none → exec (.rstinNAssert lowNs) s = .next { a with plant := { a.plant with keys := recoverySlot a } }) ∧
    (s.plant.coolant.survival ≠ none → exec (.rstinNAssert lowNs) s = .next (resetAll b))) ∧
  (∀ s : State, exec .rstinNDeassert s = .next { s with dev := { s.dev with rstin := false } })

/-- A die that may leave reset does, freshly and with its injections judged; an image that verifies is taken; the hubs exchange equal images and
the higher rollback; a stack and a link train; a Prism is ready after its restore; a device with everything up opens CONFIG with the root sector
ACTIVE (R277, R322, R323, R425, R435, R493, R494, R495, R496). -/
def Obligations.BootCommands : Prop :=
  (∀ (s : State) (seat : Fin 7) (wrong : Nat),
    let s0 := if s.dev.st = .safe then setDevState s .boot else s
    let s1 := { s0 with dev := { s0.dev with
      pll := s0.dev.pll ||| seatPlls seat.val ||| 2 ^ 39, prst := if seat.val < 4 then lset s0.dev.prst seat.val false else s0.dev.prst,
      mrst := if seat.val < 4 then lset s0.dev.mrst seat.val false else s0.dev.mrst, grst := if seat.val = 6 then false else s0.dev.grst } }
    let s2 := dueLinks (if seat.val < 4 then freshPrism s1 seat.val else if seat.val < 6 then freshHub s1 (seat.val - 4) else s1) seat.val
    mayLeave s seat.val = true → (seat.val < 6 → seatOk s0 seat.val = true) →
    exec (.dieLeavesReset seat wrong) s = .next (if seat.val < 6 then injected s2 seat.val wrong else s2)) ∧
  (∀ (s : State) (hub : Fin 2) (shipped : List Byte), (s.hubBoot hub.val).phase = 1 → (∀ k < 6, seatOk s k = true) →
    let img := (s.hubBoot hub.val).flash.getD shipped
    exec (.firmwareImageVerify hub shipped) s = .next (if fwCheck s hub.val img = 0 then takeImage s hub.val img
      else bootStatus s hub.val (fwCheck s hub.val img) 0xE)) ∧
  (∀ s : State, hasImage (s.hubBoot 0) = true → hasImage (s.hubBoot 1) = true → ((s.hubBoot 0).phase = 2 ∨ (s.hubBoot 1).phase = 2) → linkUp s 12 = true →
    (s.hubBoot 0).image = (s.hubBoot 1).image →
    let up (x : HubBoot) : HubBoot := { x with rollback := Nat.max (s.hubBoot 0).rollback (s.hubBoot 1).rollback, phase := if x.phase = 4 then 4 else 3 }
    exec .hubImageExchange s = .next ((s.modHub 0 up).modHub 1 up)) ∧
  (∀ (s : State) (n : Fin 4) (lanes : Nat) (devId : List Byte), s.dev.st = .boot → lget s.dev.mrst n.val true = false → nbit (s.num 0x3400 n.val) 0 = false →
    let t := (repairStack (clearStack s n.val) n.val).setOcts 0x1041 n.val devId
    exec (.stackTrainingDone n true false lanes devId false) s =
      .next ({ t with mem := { t.mem with trained := tput t.mem.trained n.val s.now,
                                          banks := t.mem.banks.filter fun p => p.1 / 1024 != n.val } }.setNum 0x3400 n.val (lanes % 16 * 16 + 1))) ∧
  (∀ (s : State) (l : Fin 14) (r : LinkTraining) (p : PeerId), r ≠ .failed → s.dev.st ≠ .off → linkUp s l.val = false → (s.link l.val).due = true →
    inReset s (linkEnds l.val).1 = false → inReset s (linkEnds l.val).2 = false →
    let s0 := s.setLink l.val { s.link l.val with due := false }
    let s1 := ((s0.setLink l.val { up := true, due := false, window := 0, retries := 0 }).modDir l.val 0 fun _ => LinkDir.start).modDir l.val 1 fun _ => LinkDir.start
    peerOk s0 l.val p = true → exec (.linkTrainingDone l r p) s =
      .next (crcTest ((s1.setNum 0x5F10 l.val (Nat.min 0xFFFF (s.num 0x5F10 l.val + 1))).count64 0x5F11 l.val (linkModules l.val)) l.val (r == .wrongTest))) ∧
  (∀ (s : State) (d : Fin 4), (s.scope d.val).st = 1 → (s.scope d.val).ready = false → (s.scope (4 + halfOf d.val)).st ≠ 1 →
    lget s.dev.prst d.val true = false → tfind s.plant.trips d.val = none → restarting s .device = false → linksTried s [d.val] = true →
    exec (.scopeReady (.prism d)) s = .next (setReady (restoreDie s d.val) d.val)) ∧
  (∀ s : State, s.dev.st = .boot → (s.hubBoot 0).phase = 3 → (s.hubBoot 1).phase = 3 → (∀ b ∈ s.dev.prst, b = false) → s.dev.rstin = false →
    (∀ n < 4, nbit (s.num 0x3400 n) 0 = true) → s.plant.trips = [] → s.plant.gated = false → linksTried s [0, 1, 2, 3, 4, 5] = true →
    let s1 := (s.modHub 0 fun x => { x with phase := 4 }).modHub 1 fun x => { x with phase := 4 }
    let s2 := { s1 with dev := { s1.dev with scopes := s1.dev.scopes.map scopeOut } }
    exec (.scopeReady .device) s = .next (setDevState (s2.setSec 0
      { st := .active, gen := 0, record := rootRecord, dirtyOn := false, drain := none, timedOut := false, resume := 0 }) .config))

/-! ## Power, thermal and coolant (21) -/

/-- Rails step inside their limits and are read back, a rail out of tolerance is told, droop is noted, power and temperature samples are taken at
their periods, sensor pairs are marked and cleared after their times, a stale sensor is invalid, a trip is raised and THERMTRIP_N driven where it
persists (R513, R514, R515, R519, R520, R523, R524, R525, R528, R530). -/
def Obligations.PowerAndThermalCommands : Prop :=
  (∀ (s : State) (r : Fin 8) (up : Bool),
    let w := if up then lget s.plant.setpoint r.val 0 + 5 else lget s.plant.setpoint r.val 0 - 5
    periodDue s (16 + r.val) 10000 = true → wantsStep s r.val up = true →
    exec (.avsStep r up) s = .next (periodTaken { s with plant := { s.plant with setpoint := lset s.plant.setpoint r.val w } } (16 + r.val))) ∧
  (∀ (s : State) (r : Fin 8) (y : RailReading), periodDue s (24 + r.val) 100000 = true →
    let s1 := s.setNum 0x4400 r.val (y.mv % 65536 * 65536 + y.ma % 65536)
    let bad := if railGood (lget s.plant.setpoint r.val 0) (some y) then tdel (tdel s.plant.railBad r.val) (64 + r.val)
      else if (tfind s.plant.railBad r.val).isSome then s.plant.railBad else tput s.plant.railBad r.val s.now
    exec (.railReadback r (some y)) s = .next (periodTaken { s1 with plant := { s1.plant with railBad := bad } } (24 + r.val))) ∧
  (∀ (s : State) (r : Fin 8) (t : Nat), s.dev.st ≠ .off → tfind s.plant.railBad r.val = some t → t + 1000000 ≤ s.now →
    tfind s.plant.railBad (64 + r.val) = none →
    exec (.railOutOfTolerance (.avs r)) s =
      .next (dieFault { s with plant := { s.plant with railBad := tput s.plant.railBad (64 + r.val) s.now } } 0x1A 0x06 (railSeat r.val))) ∧
  (∀ (s : State) (f : Nat), exec (.droopDetect f) s = .next { s with plant := { s.plant with droop := tput s.plant.droop f true } } ∧
    exec (.droopRecovery f) s = .next { s with plant := { s.plant with droop := tdel s.plant.droop f } }) ∧
  (∀ (s : State) (split : List Nat), periodDue s 0 100000 = true →
    let s1 := [0, 1, 2, 3].foldl tellLimited ([0, 1, 2, 3, 4, 5].foldl limitDie (periodTaken ((List.range 7).foldl (takePower split) s) 0))
    exec (.powerSample split) s = .next (evalCoolant ((List.range 7).foldl (fun a d =>
      let r := ((diePower a d).recent).take 100
      a.setNum 0x4403 d (rneDiv (lsum id r) r.length)) s1))) ∧
  (∀ (s : State) (rs : List TempReading), periodDue s 1 100000 = true →
    let s1 := [0, 1, 2, 3].foldl slowStack ([0, 1, 2, 3, 4, 5].foldl slowHot (periodTaken (rs.foldl takeReading s) 1))
    exec (.tempConversion rs) s =
      .next (evalCoolant (noteCoolant (releaseTrips (((List.range 4).flatMap fun d => (List.range 72).map (128 * d + ·)).foldl updateCap s1))))) ∧
  (∀ (s : State) (k t : Nat),
    let x := s.spot k
    x.differ = some t → x.suspect = false → t + 100000000 ≤ s.now →
    exec (.sensorPairSuspect k) s = .next (nimWarn (s.setSpot k { x with suspect := true }) (spotSeat k) 0x0202 (spotBody k [x.a, x.b]))) ∧
  (∀ (s : State) (k t : Nat), (s.spot k).agree = some t → (s.spot k).suspect = true → t + 10000000000 ≤ s.now →
    exec (.sensorPairClear k) s = .next (s.setSpot k { s.spot k with suspect := false })) ∧
  (∀ (s : State) (k : Nat) (second : Bool),
    let x := s.spot k
    s.dev.st ≠ .off → k < 532 → (second = true → twoSensors k = true) → (if second then x.bAt else x.aAt) + 1000000 ≤ s.now →
    exec (.sensorConversionTimeout k second) s =
      .next (checkHeat (checkPair (checkValid (s.setSpot k (if second then { x with bBad := true } else { x with aBad := true })) k x) k) k)) ∧
  (∀ (s : State) (k : Nat), s.dev.st ≠ .off → k < 526 → tfind s.plant.trips (spotSeat k) = none →
    exec (.tripComparator k) s = .next (raiseFault { s with plant := { s.plant with trips := tput s.plant.trips (spotSeat k) s.now } } s.now
      (if spotSeat k < 4 then 0x01 else 0x02) 0x1A (spotSeat k) (spotSite k) 0x3F none)) ∧
  (∀ (s : State) (seat : Fin 7) (t : Nat) (p : Nat × Spot), tfind s.plant.trips seat.val = some t → t + 10000000 ≤ s.now → p ∈ s.plant.spots →
    p.1 < 526 → spotSeat p.1 = seat.val → (125 * 16 ≤ p.2.a ∨ 125 * 16 ≤ p.2.b) →
    exec (.thermtripCheck seat) s = .next { s with dev := { s.dev with thermtrip := true } })

/-- Tachometer pulses are timed; a rise past its limit and a stopped flow stop the device; stages change with their conditions; a disagreement is
told; the survival level is left after its time or ends in THERMTRIP_N (R534, R535, R536, R537, R538, R539, R542). -/
def Obligations.CoolantCommands : Prop :=
  (∀ s : State, s.dev.st ≠ .off →
    let c := s.plant.coolant
    let iv := match c.lastPulse with
      | none => 0
      | some t => Nat.max 500000 (s.now - t)
    exec .tachPulse s = .next (evalCoolant { s with plant := { s.plant with coolant := { c with lastPulse := some s.now, interval := iv } } })) ∧
  (∀ (s : State) (r : Int), periodDue s 3 1000000 = true → riseRate (periodTaken s 3) = some r →
    exec .riseRateEval s = .next (if canStop (periodTaken s 3) && ((periodTaken s 3).num 0x4425 0 : Int) < r then coolantStop (periodTaken s 3) 2
      else periodTaken s 3)) ∧
  (∀ s : State, canStop s = true → s.plant.coolant.lastPulse.getD 0 + 200000000 ≤ s.now →
    exec .tachZeroFlow s = .next (coolantStop (evalCoolant s) 1)) ∧
  (∀ s : State,
    let a := evalCoolant s
    let n := stageOf (stagesNow a)
    a.dev.st ≠ .off → a.plant.coolant.survival = none → n ≠ a.num 0x4422 0 →
    let s1 := { a with plant := { a.plant with coolant := { a.plant.coolant with inForce := stagesNow a } } }.setNum 0x4422 0 n
    let s2 := nimWarn s1 7 0x0203 (toBytes 1 (a.num 0x4422 0) ++ toBytes 1 n ++ [0, 1].flatMap (fun i => toBytes 4 (s1.num 0x4420 i)) ++
      [0, 1].flatMap fun i => toBytes 4 (s1.num 0x4421 i))
    exec .coolantStageChange s = .next (if n = 3 then degrade s2 coolantThree else undegrade s2 coolantThree)) ∧
  (∀ (s : State) (t : Nat),
    let a := evalCoolant s
    a.plant.coolant.disagree = some t → a.dev.st ≠ .off → t + 10000000000 ≤ a.now → (tfind a.plant.last 4 = none ∨ tget a.plant.last 4 0 < t) →
    exec .tachDisagree s = .next (nimWarn (periodTaken a 4) 7 0x0207 ([0, 1].flatMap fun i => toBytes 4 (a.num 0x4421 i)))) ∧
  (∀ (s : State) (t u : Nat),
    let k := s.plant.coolant
    k.survival = some u → k.okSince = some t → s.dev.thermtrip = false → s.dev.rstin = false → t + 5000000000 ≤ s.now →
    let c : Coolant := { Coolant.fresh with lastPulse := k.lastPulse, interval := k.interval, history := k.history, cond := List.replicate 3 (false, s.now) }
    exec .survivalExit s =
      .next (restartDevice (undegrade ({ s with plant := { s.plant with gated := false, coolant := c } }.setNum 0x4422 0 0) coolantThree))) ∧
  (∀ (s : State) (t : Nat), s.plant.coolant.survival = some t → s.dev.thermtrip = false →
    (t + s.num 0x4426 0 * 1000000000 ≤ s.now ∨ junctionsBelow s 115 = false) →
    let a := resetAll (dieFault s 0x1A 0x07 7)
    exec .survivalTimeout s = .next
      { a with dev := { a.dev with thermtrip := true },
               plant := { a.plant with held := (List.range 7).map fun k => (k, true) } })

/-! ## The Meridians (17), the dictionary, Axbel and Nimbusor (18), the test port (23), ticks (01) -/

/-- A fault record that reaches a Meridian directly, or through the other over the hub-hub link, is taken once by each Meridian that executes; a
comparator fault restarts its half; a tick mismatch is a fault of both hubs; a countersignature completes or fails a write of two keys and its
absence fails it; an acceptable request for a write of two keys is forwarded (R417, R419, R420, R426, R428, R448). -/
def Obligations.MeridianCommands : Prop :=
  (∀ (s : State) (hub : Fin 2) (r : BitVec 512), meridianUp s hub.val = true → hasTaken s hub.val r = false →
    (directRoute s hub.val r = true → exec (.faultRecord hub r) s = .next (takeFault s hub.val r)) ∧
    (hasTaken s (1 - hub.val) r = true → linkUp s 12 = true → exec (.faultRecordForward hub r) s = .next (takeFault s hub.val r))) ∧
  (∀ (s : State) (hub : Fin 2) (r : BitVec 512), hasTaken s hub.val r = true → exec (.faultRecord hub r) s = .next s) ∧
  (∀ (s : State) (hub : Fin 2), meridianUp s hub.val = true →
    let a := restart s (.half hub)
    exec (.meridianComparatorFault hub) s = .next { a with dev := { a.dev with merFault := lset a.dev.merFault hub.val (some s.now) } }) ∧
  (∀ s : State, s.dev.st ≠ .off → linkUp s 12 = true → exec .gnomonTickMismatch s = .next (dieFault (dieFault s 0x18 0 4) 0x18 0 5)) ∧
  (∀ (s : State) (hub : Fin 2) (id : Nat) (w : TwoK), s.host.twoK.find? (fun w => w.id == id) = some w → w.pending = none →
    (if hub.val = 0 then w.signW else w.signE) = none → meridianUp s hub.val = true → s.now ≤ w.stamp + 10000000 →
    (signs s hub.val = false → exec (.meridianCountersign hub id) s = .next (failTwoK s w 0x0742)) ∧
    (signs s hub.val = true →
      let w1 := if hub.val = 0 then { w with signW := some true } else { w with signE := some true }
      let s1 := { s with host := { s.host with twoK := s.host.twoK.map fun y => if y.id = id then w1 else y } }
      exec (.meridianCountersign hub id) s = .next (if w1.signW = some true && w1.signE = some true then makePending s1 w1 else s1))) ∧
  (∀ (s : State) (id : Nat) (w : TwoK), s.host.twoK.find? (fun w => w.id == id) = some w → w.pending = none → w.stamp + 10000000 ≤ s.now →
    exec (.countersignTimeout id) s = .next (failTwoK s w 9)) ∧
  (∀ (s : State) (hub : Fin 2) (v : Byte) (c : Instr × Nat × Nat),
    c ∈ [(.pxModeWrite hub v, 0x4000, v.toNat), (.devRequestOperational hub, 0x1101, 1), (.devRequestConfig hub, 0x1101, 2),
         (.bsSvnCommit hub v, 0x4806, v.toNat), (.bsKeyRevoke hub v, 0x4807, v.toNat)] →
    let z := settled s
    entryStatus z hub.val none true c.2.1 0 = 0 → twoKStatus z hub.val c.2.1 c.2.2 = 0 →
    exec c.1 s = .next (forwardTwoK z hub.val c.2.1 0 c.2.2 none 0))

/-- An authentic request with a free session is served; a register write that passes its checks is applied; a core's access of kxpid answers its
value, changes it or traps by its privilege; a private read, the common command codes and an in-band interrupt are answered; records are
acknowledged, sent again at their period and sampled (R254, R445, R451, R452, R454, R455, R456, R458, R463, R464, R465). -/
def Obligations.FrontCommands : Prop :=
  (∀ (s : State) (hub : Fin 2) (pdu : List Byte) (c : Instr × Nat),
    c ∈ [(.axbelRead hub .i3c pdu, 1), (.axbelWrite hub .i3c pdu, 2), (.axbelEcho hub .i3c pdu, 4)] → carriesPdu c.2 pdu = true →
    let z := settled s
    frontUp z hub.val = true → addressed z hub.val = true → sessionFull z hub.val none = false →
    exec c.1 s = .next (stampRequest (hdrExit z hub.val) hub none pdu)) ∧
  (∀ (s : State) (hub : Fin 2) (addr port dport : Nat) (bytes : List Byte),
    let src := AxSource.udp addr port dport
    let z := settled s
    carries s 1 src bytes = true → frontUp z hub.val = true → dport = z.num 0x5F08 0 →
    (openDatagram z bytes = none → exec (.axbelRead hub src bytes) s = .next (authFail z hub.val (leAt bytes 0 1) addr port)) ∧
    (∀ slot ctr pdu, openDatagram z bytes = some (slot, ctr, pdu) → sessionFull (takeCtr z slot ctr) hub.val (some (slot, addr, port)) = false →
      exec (.axbelRead hub src bytes) s = .next (stampRequest (takeCtr z slot ctr) hub (some (slot, addr, port)) pdu))) ∧
  (∀ (s : State) (hub : Fin 2) (i sub : Nat) (r : EntryRow) (v : List Byte),
    let z := settled s
    findRow i = some r → frontUp z hub.val = true → entryStatus z hub.val none true i sub = 0 → r.acc ≠ .rw2k →
    exec (.registerWrite (.entry hub i sub) v) s = .next (writeEntry z hub none r i sub v).2) ∧
  (∀ (s : State) (core : Fin 16) (priv : Nat) (v : List Byte), hubUp s (core.val / 8) = true →
    let a := toGuest s (.coreData core.val (toBytes 4 (lget s.dev.kxpid core.val 0)))
    (priv < 3 → exec (.registerWrite (.kxpid core priv false) v) s = .next a ∧
      exec (.registerWrite (.kxpid core priv true) v) s = .next { a with dev := { a.dev with kxpid := lset a.dev.kxpid core.val (ofBytes v % 2 ^ 20) } }) ∧
    (3 ≤ priv → ∀ w, exec (.registerWrite (.kxpid core priv w) v) s = .next (toGuest s (.coreTrap core.val (decide (priv < 5)))))) ∧
  (∀ (s : State) (hub : Fin 2) (maxlen : Nat) (x : Session) (u : List Byte) (rest : List (List Byte)), frontUp s hub.val = true → addressed s hub.val = true →
    findSession s hub.val none = some x → x.unread = u :: rest →
    let s1 := i3cOut (putSession (hdrExit s hub.val) { x with unread := rest }) hub.val (u.take maxlen)
    exec (.i3cPrivateRead hub maxlen) s = .next (if maxlen < u.length then s1.count64 0x5F03 hub.val 1 else s1)) ∧
  (∀ (s : State) (hub : Fin 2), frontUp s hub.val = true →
    let b := hdrExit s hub.val
    (∀ c, (cccDirect c = true → addressed s hub.val = true) → exec (.i3cCcc hub c) s = .next (cccRun b hub.val c)) ∧
    (∀ a : Byte, (b.target hub.val).addr = 0 →
      exec (.i3cCcc hub (.entdaa a)) s = .next (b.modTarget hub.val fun x => { x with addr := a.toNat % 128, hotJoin := false })) ∧
    exec (.i3cCcc hub .rstdaa) s = .next (b.modTarget hub.val fun x => { x with addr := 0 }) ∧
    (addressed s hub.val = true →
      exec (.i3cCcc hub .getpid) s = .next (i3cOut b hub.val (toBytesBE 6 (i3cPid hub.val))) ∧
      ∀ n, exec (.i3cCcc hub (.setmwl n)) s = .next (b.modTarget hub.val fun x => { x with maxWrite := n }))) ∧
  (∀ (s : State) (hub : Fin 2) (i : Ibi) (rest : List Ibi), lget s.host.ibis hub.val [] = i :: rest → frontUp s hub.val = true → recovering s hub.val = false →
    (s.target hub.val).addr ≠ 0 → nbit (s.target hub.val).events 0 = false → i.handle = none →
    exec (.i3cIbi hub true) s =
      .next (i3cOut { s with host := { s.host with ibis := lset s.host.ibis hub.val rest } } hub.val (toBytes 1 i.mdb ++ i.bytes))) ∧
  (∀ (s : State) (hub ring : Fin 2) (q : Word),
    let z := settled s
    frontUp z hub.val = true → entryStatus z hub.val none true 0x5001 ring.val = 0 →
    exec (.nimAck hub ring q) s = .next (nimAckWrite z ring.val q.toNat).2) ∧
  (∀ (s : State) (hub : Fin 2), meridianUp s hub.val = true →
    let g := lget s.host.rings hub.val Ring.fresh
    let due (r : Nat × BitVec 512) : Bool := match tfind g.pushed r.1 with
      | none => true
      | some t => decide (t + s.num 0x5005 0 * 1000000 ≤ s.now)
    exec (.nimRetransmit hub) s = .next (((unacked g).filter due).foldl (fun a r => pushRecord a hub.val r.1 r.2) s)) ∧
  (∀ s : State,
    let p := s.num 0x5006 0 * 1000000
    telemetryOwed s = true → hubDown s 0 = false → s.dev.st ≠ .off →
    exec .nimTelemetry s = .next (nim { s with host := { s.host with telemetry := (s.now / p + 1) * p } } s.now 7 0x1FF none 0x0400 0 false
      (ofBytes ((List.range 6).flatMap fun k => toBytes 8 (sampleOf s k)))))

/-- For every header field and payload up to 1,024 bytes, the unit that the device builds passes the framing checks, and its operation, sequence,
index, subindex and payload read back as they were given (R450, R451). -/
def Obligations.AxbelUnitRoundTrip : Prop :=
  ∀ (bits seq index sub status : Nat) (payload : List Byte), bits < 2 ^ 16 → seq < 2 ^ 16 → index < 2 ^ 16 → sub < 2 ^ 8 → payload.length ≤ 1024 →
    let u := axUnit bits seq index sub status payload
    framing u = 0 ∧ (request u).op = bits % 16 ∧ (request u).seq = seq ∧ (request u).index = index ∧ (request u).sub = sub ∧ (request u).payload = payload

/-- A rising edge of TCK moves the TAPs to the state that IEEE 1149.1 gives for TMS and leaves the Facets, memory and front as they were; five
edges with TMS high reach Test-Logic-Reset; TRST_N reaches it with the identity code selected (register lengths and codes: log entry 18) (R576). -/
def Obligations.TestPort : Prop :=
  (∀ (s : State) (tms tdi : Bool), s.dev.st ≠ .off →
    ∃ t, exec (.tckRisingEdge tms tdi) s = .next t ∧ t.plant.taps.st = s.plant.taps.st.next tms ∧ t.work = s.work ∧ t.mem = s.mem ∧ t.host = s.host ∧
      t.free = s.free + 7) ∧
  (∀ st : TapSt, ((((st.next true).next true).next true).next true).next true = .reset) ∧
  (∀ (s : State) (lowNs : Nat), 1000 ≤ lowNs →
    exec (.trstNAssert lowNs) s = .next { s with plant := { s.plant with taps := { s.plant.taps with st := .reset, ir := List.replicate 6 1 } } })

/-- A shift register of n bits that takes n bits holds them in the order they came, the first nearest TDO (R576). -/
def Obligations.DataScanHoldsItsBits : Prop :=
  ∀ (reg bits : List Bool), reg.length = bits.length → bits.foldl shiftIn reg = bits

/-- At a boundary of a powered device whose window is not yet open, TICK_BOUNDARY runs the close and opens the window; on a window already open it
changes nothing (R13, R38). -/
def Obligations.TickBoundaryOpensOnce : Prop :=
  ∀ s : State, s.dev.st ≠ .off → s.atBoundary = true →
    (s.sched.tick < s.tickNow → exec .tickBoundary s = .next (openTick (afterClose s))) ∧
    (s.tickNow ≤ s.sched.tick → exec .tickBoundary s = .next s)
end

