-- ==== Sys2Proof/Laws/Ops.lean ====
section
/-! SUPPORT. What the shared operations can do, said once: an engine instruction, a started command, a record that leaves, a fault. -/

namespace Sys2Proof.Machine

/-- An engine instruction leaves its device as it was (no step runs on the site, or the instruction waits), raises a cause, or changes its Facet and moves
its pc on. -/
theorem runEngine_cases (s : State) (site : Nat) (legal : Bool) (regs : List Nat) (foot : Facet → List (Nat × Nat)) (g : Facet → Eng) :
    (runEngine s site legal regs foot g = s ∧ (runs s site = false ∨ stalls (s.facet site) regs (foot (s.facet site)) = true)) ∨
    (legal = false ∧ runEngine s site legal regs foot g = raise s site 0x01 0) ∨
    (∃ c o, g (s.facet site) = .cause c o ∧ runEngine s site legal regs foot g = raise s site c o) ∨
    (∃ f, g (s.facet site) = .good f ∧ runEngine s site legal regs foot g = s.setFacet site (advance f)) := by
  unfold runEngine
  cases hr : runs s site
  · exact .inl ⟨by simp, .inl rfl⟩
  cases legal
  · exact .inr (.inl ⟨rfl, by simp⟩)
  cases hs : stalls (s.facet site) regs (foot (s.facet site))
  · cases hg : g (s.facet site) with
    | cause c o => exact .inr (.inr (.inl ⟨c, o, rfl, by simp [hs, hg]⟩))
    | good f => exact .inr (.inr (.inr ⟨f, rfl, by simp [hs, hg]⟩))
  · exact .inl ⟨by simp [hs], .inr rfl⟩

/-- A command row changes nothing, runs its effect on the slot of the started command, or runs it for a command whose context was torn down. -/
theorem runCmd_cases (s : State) (h code : Nat) (g : State → Nat → Slot → State) :
    (startedCmd s h code = none ∧ runCmd s h code g = s) ∨
    (∃ i x, startedCmd s h code = some (i, x) ∧ runCmd s h code g = runSlot s i x g) ∨
    (∃ x, startedCmd s h code = none ∧ tornCmd s h code = some x ∧ x.cmd = .started ∧
      runCmd s h code g = runTorn s h x fun a => runSlot a (slotOf h) x g) := by
  unfold runCmd
  cases hs : startedCmd s h code with
  | some p => exact .inr (.inl ⟨p.1, p.2, rfl, rfl⟩)
  | none =>
    cases ht : tornCmd s h code with
    | none => exact .inl ⟨rfl, rfl⟩
    | some x => by_cases hx : x.cmd = .started <;> simp [hx]

/-- What a state is beside its host side and its plant. -/
def State.bare (s : State) : State := { s with host := State.reset.host, plant := State.reset.plant }

/-- A datagram that leaves changes the host side and the key slots only. -/
theorem sendUdp_bare (s : State) (hub slot addr port : Nat) (unit : List Byte) : (sendUdp s hub slot addr port unit).bare = s.bare := by
  unfold sendUdp; split <;> rfl

/-- A record that is pushed changes the host side and the plant only. -/
theorem pushRecord_bare (s : State) (hub q : Nat) (r : BitVec 512) : (pushRecord s hub q r).bare = s.bare := by
  unfold pushRecord
  extract_lets d
  split
  · rfl
  · exact sendUdp_bare s hub _ _ _ _

/-- A counter changes the host side only. -/
theorem count32_bare (s : State) (i sub n : Nat) : (s.count32 i sub n).bare = s.bare := rfl

/-- An interrupt that is queued changes the host side only. -/
theorem raiseIbi_bare (s : State) (hub : Nat) (i : Ibi) : (raiseIbi s hub i).bare = s.bare := rfl

/-- A record placed in a ring changes the host side and the plant only. -/
theorem ringPut_bare (s : State) (hub : Nat) (r : BitVec 512) : (ringPut s hub r).bare = s.bare := by
  unfold ringPut
  extract_lets g
  split
  · rfl
  · rename_i full oldest lost r' g' h s1 s2 s3 _
    have h1 : s1.bare = s.bare := pushRecord_bare _ hub _ _
    have h3 : s3.bare = s.bare := by
      by_cases hl : lost = true
      · simp only [s3, hl]; exact (count32_bare s2 _ _ _).trans h1
      · simp only [s3, hl]; exact h1
    split
    · exact (raiseIbi_bare s3 hub _).trans h3
    · exact h3

/-- A Nimbusor record changes the host side and the plant only. -/
theorem nim_bare (s : State) (time seat site : Nat) (sec : Option Nat) (code sev : Nat) (inj : Bool) (payload : Nat) :
    (nim s time seat site sec code sev inj payload).bare = s.bare := by
  unfold nim
  extract_lets r
  split
  · exact (ringPut_bare _ 1 r).trans (ringPut_bare s 0 r)
  · exact ringPut_bare s _ r

/-- A change of the device state keeps everything but `Dev.st`, the host side and the plant. -/
theorem setDevState_bare (s : State) (d : DevState) : (setDevState s d).bare = { s with dev := { s.dev with st := d } }.bare := by
  unfold setDevState
  split
  · next h => subst h; rfl
  · extract_lets s1 s2 i
    split <;> rfl

/-- Time that passes is a nanosecond, and then at most one thing befalls the data. -/
theorem elapse_cases (s : State) :
    (Config.upset s.free = none ∧ elapse s = nanosecond s) ∨ (∃ u, Config.upset s.free = some u ∧ elapse s = befall (nanosecond s) u) := by
  unfold elapse
  cases h : Config.upset s.free with
  | none => exact .inl ⟨rfl, rfl⟩
  | some u => exact .inr ⟨u, rfl, rfl⟩

/-- A nanosecond in which no frame waits at a gate, no receive buffer of a link holds a slot and no line waits to be shown changes only the
time and the count of free values. -/
theorem nanosecond_quiet (s : State) (hg : s.host.leaving = []) (hl : ∀ p ∈ s.chord.dirs, p.2.buffer = []) (hs : s.chord.fw.scanOut = []) :
    nanosecond s = { s with now := s.now + 1, free := s.free + 3 } := by
  have hf : s.chord.dirs.filter (fun p => !p.2.buffer.isEmpty) = [] :=
    List.filter_eq_nil_iff.mpr fun p hp => by simp [hl p hp]
  have hd : drainScan { s.takeFree 3 with now := s.now + 1 } (64 * (s.chord.fw.scanOut.length - Config.displayTakes s.free)) =
      { s with now := s.now + 1, free := s.free + 3 } := by
    obtain ⟨_, _, _, _, _, _, _, _, _, _, _, _, ⟨_, _, _, fw⟩, _, _, front, _⟩ := s
    obtain ⟨⟩ := fw
    obtain ⟨⟩ := front
    simp_all [drainScan, State.takeFree]
  unfold nanosecond
  rw [hd]
  simp [drainGates, drainLinks, hf, hg]

end Sys2Proof.Machine
end

