-- ==== Sys2Proof/Laws/Tables.lean ====
section
/-! SUPPORT. What the operations on sparse tables and byte stores do: reading after a write, and the canonical form they keep. -/

namespace Sys2Proof.Machine

variable {α : Type}

@[simp] theorem tget_nil (k : Nat) (d : α) : tget [] k d = d := rfl

theorem tget_cons (j k : Nat) (v d : α) (r : Tab α) : tget ((j, v) :: r) k d = if j = k then v else tget r k d := rfl

theorem tfind_cons (j k : Nat) (v : α) (r : Tab α) : tfind ((j, v) :: r) k = if j = k then some v else tfind r k := rfl

theorem tget_eq_tfind (t : Tab α) (k : Nat) (d : α) : tget t k d = (tfind t k).getD d := by
  induction t with
  | nil => rfl
  | cons p r ih =>
    obtain ⟨i, w⟩ := p
    simp only [tget_cons, tfind_cons, ih]
    split <;> rfl

theorem tfind_tput (t : Tab α) (k j : Nat) (v : α) : tfind (tput t k v) j = if k = j then some v else tfind t j := by
  induction t with
  | nil => rfl
  | cons p r ih =>
    obtain ⟨i, w⟩ := p
    unfold tput
    split
    · rfl
    · split
      next h => subst h; simp only [tfind_cons]; split <;> rfl
      next h =>
        simp only [tfind_cons, ih]
        by_cases h1 : k = j
        · subst h1; simp [Ne.symm h]
        · simp [h1]

theorem tfind_tdel (t : Tab α) (k j : Nat) : tfind (tdel t k) j = if k = j then none else tfind t j := by
  induction t with
  | nil => simp [tdel, tfind]
  | cons p r ih =>
    obtain ⟨i, w⟩ := p
    unfold tdel
    split
    next h => subst h; rw [ih, tfind_cons]; split <;> rfl
    next h =>
      simp only [tfind_cons, ih]
      by_cases h1 : k = j
      · subst h1; simp [h]
      · simp [h1]

@[simp] theorem tget_tput_same (t : Tab α) (k : Nat) (v d : α) : tget (tput t k v) k d = v := by
  simp [tget_eq_tfind, tfind_tput]

theorem tget_tput (t : Tab α) (k j : Nat) (v d : α) : tget (tput t k v) j d = if k = j then v else tget t j d := by
  simp only [tget_eq_tfind, tfind_tput]; split <;> rfl

theorem tget_tput_ne (t : Tab α) {k j : Nat} (v d : α) (h : k ≠ j) : tget (tput t k v) j d = tget t j d := by
  rw [tget_tput, if_neg h]

theorem tget_tdel (t : Tab α) (k j : Nat) (d : α) : tget (tdel t k) j d = if k = j then d else tget t j d := by
  simp only [tget_eq_tfind, tfind_tdel]; split <;> rfl

theorem tget_tset [DecidableEq α] (t : Tab α) (k j : Nat) (v d : α) : tget (tset t k v d) j d = if k = j then v else tget t j d := by
  unfold tset
  split
  · subst v; exact tget_tdel t k j d
  · exact tget_tput t k j v d

/-! ## The keys of a table rise -/

/-- Every key of a table is above `k`. -/
def above (k : Nat) (t : Tab α) : Prop := ∀ p ∈ t, k < p.1

theorem sorted_cons (p : Nat × α) (t : Tab α) : sorted (p :: t) = true ↔ above p.1 t ∧ sorted t = true := by
  induction t generalizing p with
  | nil => simp [sorted, above]
  | cons q r ih =>
    simp only [sorted, Bool.and_eq_true, decide_eq_true_eq, above, List.mem_cons, forall_eq_or_imp]
    constructor
    · rintro ⟨h, hs⟩
      exact ⟨⟨h, fun x hx => Nat.lt_trans h (((ih q).1 hs).1 x hx)⟩, hs⟩
    · rintro ⟨⟨h, _⟩, hs⟩
      exact ⟨h, hs⟩

theorem above_tput {k j : Nat} {v : α} {t : Tab α} (h : above j t) (hk : j < k) : above j (tput t k v) := by
  induction t with
  | nil => intro p hp; simp [tput] at hp; subst hp; exact hk
  | cons q r ih =>
    have hr : above j r := fun p hp => h p (.tail _ hp)
    unfold tput
    split
    · intro p hp
      rcases List.mem_cons.1 hp with rfl | hp
      · exact hk
      · exact h p hp
    · split
      · intro p hp
        rcases List.mem_cons.1 hp with rfl | hp
        · exact hk
        · exact hr p hp
      · intro p hp
        rcases List.mem_cons.1 hp with rfl | hp
        · exact h _ (.head _)
        · exact ih hr p hp

theorem mem_tdel {k : Nat} {t : Tab α} {p : Nat × α} (h : p ∈ tdel t k) : p ∈ t := by
  induction t with
  | nil => exact h
  | cons q r ih =>
    unfold tdel at h
    split at h
    · exact .tail _ (ih h)
    · rcases List.mem_cons.1 h with rfl | h
      · exact .head _
      · exact .tail _ (ih h)

theorem mem_tput {k : Nat} {v : α} {t : Tab α} {p : Nat × α} (h : p ∈ tput t k v) : p = (k, v) ∨ p ∈ t := by
  induction t with
  | nil => exact .inl (by simpa [tput] using h)
  | cons q r ih =>
    unfold tput at h
    split at h
    · exact (List.mem_cons.1 h).imp id id
    · split at h
      · exact (List.mem_cons.1 h).imp id fun h => .tail _ h
      · rcases List.mem_cons.1 h with rfl | h
        · exact .inr (.head _)
        · exact (ih h).imp id fun h => .tail _ h

/-- A write keeps the keys rising. -/
theorem sorted_tput {k : Nat} {v : α} {t : Tab α} (h : sorted t = true) : sorted (tput t k v) = true := by
  induction t with
  | nil => rfl
  | cons q r ih =>
    have hq := (sorted_cons q r).1 h
    unfold tput
    split
    next hk =>
      refine (sorted_cons _ _).2 ⟨fun p hp => ?_, h⟩
      rcases List.mem_cons.1 hp with rfl | hp
      · exact hk
      · exact Nat.lt_trans hk (hq.1 p hp)
    next hk =>
      split
      next he => subst he; exact (sorted_cons _ _).2 hq
      next he => exact (sorted_cons _ _).2 ⟨above_tput hq.1 (by simp only; omega), ih hq.2⟩

/-- A removal keeps the keys rising. -/
theorem sorted_tdel {k : Nat} {t : Tab α} (h : sorted t = true) : sorted (tdel t k) = true := by
  induction t with
  | nil => rfl
  | cons q r ih =>
    have hq := (sorted_cons q r).1 h
    unfold tdel
    split
    · exact ih hq.2
    · exact (sorted_cons _ _).2 ⟨fun p hp => hq.1 p (mem_tdel hp), ih hq.2⟩

/-- A filter keeps the keys rising. -/
theorem sorted_filter {t : Tab α} (f : Nat × α → Bool) (h : sorted t = true) : sorted (t.filter f) = true := by
  induction t with
  | nil => rfl
  | cons q r ih =>
    have hq := (sorted_cons q r).1 h
    rw [List.filter_cons]
    split
    · exact (sorted_cons _ _).2 ⟨fun p hp => hq.1 p ((List.mem_filter.1 hp).1), ih hq.2⟩
    · exact ih hq.2

/-! ## Byte stores (log entry 2) -/

/-- A byte reads as what was last written to it; every other byte reads as before. -/
theorem mread_mwrite (m : List Host.Cell) (a b : Nat) (v : Byte) : mread (mwrite m a v) b = if a = b then v else mread m b :=
  tget_tset m a b v 0

theorem wf_iff (m : List Host.Cell) : Memory.wf m = true ↔ sorted m = true ∧ ∀ c ∈ m, c.2 ≠ 0 := by
  simp [Memory.wf]

/-- A byte write keeps the canonical form. -/
theorem wf_mwrite {m : List Host.Cell} (a : Nat) (v : Byte) (h : Memory.wf m = true) : Memory.wf (mwrite m a v) = true := by
  obtain ⟨hs, hz⟩ := (wf_iff m).1 h
  unfold mwrite tset
  split
  next => exact (wf_iff _).2 ⟨sorted_tdel hs, fun c hc => hz c (mem_tdel hc)⟩
  next hv =>
    refine (wf_iff _).2 ⟨sorted_tput hs, fun c hc => ?_⟩
    rcases mem_tput hc with rfl | hc
    · exact hv
    · exact hz c hc

/-- A run of bytes keeps the canonical form. -/
theorem wf_mwrites {m : List Host.Cell} (a : Nat) (l : List Byte) (h : Memory.wf m = true) : Memory.wf (mwrites m a l) = true := by
  induction l generalizing m a with
  | nil => exact h
  | cons b r ih => exact ih _ (wf_mwrite a b h)

/-- A masked run of bytes keeps the canonical form. -/
theorem wf_mwritem {m : List Host.Cell} (a mask : Nat) (l : List Byte) (h : Memory.wf m = true) : Memory.wf (mwritem m a mask l) = true := by
  induction l generalizing m a mask with
  | nil => exact h
  | cons b r ih =>
    refine ih _ _ ?_
    split
    · exact wf_mwrite a b h
    · exact h

/-- Bytes taken out of a store leave the canonical form. -/
theorem wf_filter {m : List Host.Cell} (f : Host.Cell → Bool) (h : Memory.wf m = true) : Memory.wf (m.filter f) = true := by
  obtain ⟨hs, hz⟩ := (wf_iff m).1 h
  exact (wf_iff _).2 ⟨sorted_filter f hs, fun c hc => hz c ((List.mem_filter.1 hc).1)⟩

theorem wf_nil : Memory.wf [] = true := rfl

/-- After a run of bytes is written, a byte of the run reads as written and every other byte as before. -/
theorem mread_mwrites (m : List Host.Cell) (a b : Nat) (l : List Byte) :
    mread (mwrites m a l) b = if a ≤ b ∧ b < a + l.length then lget l (b - a) 0 else mread m b := by
  induction l generalizing m a with
  | nil => rw [if_neg (by simp)]; rfl
  | cons x r ih =>
    simp only [mwrites, ih, mread_mwrite, List.length_cons]
    by_cases h : a = b
    · subst h; rw [if_neg (by omega), if_pos rfl, if_pos (by omega)]; simp [lget]
    · by_cases h2 : a + 1 ≤ b ∧ b < a + 1 + r.length
      · rw [if_pos h2, if_pos (by omega)]
        obtain ⟨n, hn⟩ : ∃ n, b - a = n + 1 := ⟨b - a - 1, by omega⟩
        rw [hn, show b - (a + 1) = n by omega]; rfl
      · rw [if_neg h2, if_neg h, if_neg (by omega)]

/-- After a masked run, a byte that the mask selects reads as written and every other byte as before. -/
theorem mread_mwritem (m : List Host.Cell) (a b mask : Nat) (l : List Byte) :
    mread (mwritem m a mask l) b =
      if a ≤ b ∧ b < a + l.length ∧ mask.testBit (b - a) = true then lget l (b - a) 0 else mread m b := by
  induction l generalizing m a mask with
  | nil => simp [mwritem]; omega
  | cons x r ih =>
    simp only [mwritem, ih, List.length_cons]
    by_cases h : a = b
    · subst h
      have hb : mask.testBit 0 = decide (mask % 2 = 1) := Nat.testBit_zero mask
      rw [if_neg (by omega)]
      simp only [Nat.sub_self, hb]
      by_cases hm : mask % 2 = 1
      · simp [hm, mread_mwrite, lget]
      · simp [hm]
    · have hk : mread (if mask % 2 = 1 then mwrite m a x else m) b = mread m b := by
        split
        · rw [mread_mwrite, if_neg h]
        · rfl
      rw [hk]
      by_cases h2 : a < b
      · obtain ⟨n, hn⟩ : ∃ n, b - a = n + 1 := ⟨b - a - 1, by omega⟩
        rw [hn, show b - (a + 1) = n by omega, Nat.testBit_succ]
        by_cases h3 : b < a + 1 + r.length ∧ (mask / 2).testBit n = true
        · rw [if_pos ⟨by omega, h3⟩, if_pos ⟨by omega, by omega, h3.2⟩]; rfl
        · rw [if_neg (fun c => h3 c.2), if_neg (fun c => h3 ⟨by omega, c.2.2⟩)]
      · rw [if_neg (by omega), if_neg (by omega)]

theorem mreads_length (m : List Host.Cell) (a n : Nat) : (mreads m a n).length = n := by
  induction n generalizing a with
  | zero => rfl
  | succ n ih => simp [mreads, ih]

/-- Byte `i` of a run read is the byte at its address. -/
theorem lget_mreads (m : List Host.Cell) (a n i : Nat) (h : i < n) : lget (mreads m a n) i 0 = mread m (a + i) := by
  induction n generalizing a i with
  | zero => omega
  | succ n ih =>
    cases i with
    | zero => simp [mreads, lget]
    | succ i =>
      have := ih (a + 1) i (by omega)
      rw [show a + (i + 1) = a + 1 + i by omega, ← this]; rfl

/-! ## Lists by index and bytes -/

theorem lget_lmod (l : List α) (i j : Nat) (g : α → α) (d : α) :
    lget (lmod l i g) j d = if i = j ∧ j < l.length then g (lget l j d) else lget l j d := by
  induction l generalizing i j with
  | nil => simp [lmod]
  | cons x r ih =>
    cases i <;> cases j
    · simp [lmod, lget]
    · simp [lmod, lget]
    · simp [lmod, lget]
    · simpa [lmod, lget] using ih _ _

@[simp] theorem lmod_length (l : List α) (i : Nat) (g : α → α) : (lmod l i g).length = l.length := by
  induction l generalizing i with
  | nil => rfl
  | cons x r ih => cases i <;> simp [lmod, ih]

@[simp] theorem lset_length (l : List α) (i : Nat) (v : α) : (lset l i v).length = l.length := lmod_length l i _

theorem lget_lset (l : List α) (i j : Nat) (v d : α) : lget (lset l i v) j d = if i = j ∧ j < l.length then v else lget l j d :=
  lget_lmod l i j _ d

@[simp] theorem toBytes_length (n v : Nat) : (toBytes n v).length = n := by
  induction n generalizing v with
  | zero => rfl
  | succ n ih => simp [toBytes, ih]

/-- A number's bytes spell it again, cut to their number. -/
theorem ofBytes_toBytes (n v : Nat) : ofBytes (toBytes n v) = v % 256 ^ n := by
  induction n generalizing v with
  | zero => simp [toBytes, ofBytes, Nat.mod_one]
  | succ n ih =>
    rw [toBytes, ofBytes, ih, BitVec.toNat_ofNat]
    rw [show (256 : Nat) ^ (n + 1) = 256 * 256 ^ n from Nat.pow_succ', Nat.mod_mul (a := 256)]

theorem ofBytes_lt (l : List Byte) : ofBytes l < 256 ^ l.length := by
  induction l with
  | nil => simp [ofBytes]
  | cons b r ih =>
    have hb : b.toNat < 256 := b.isLt
    simp only [ofBytes, List.length_cons, Nat.pow_succ']
    omega

end Sys2Proof.Machine
end

