-- ==== Sys2Proof/Laws/State.lean ====
section
/-! SUPPORT. What each small update of the state leaves in each field, so that no proof unfolds a record update, and what a part reads as after it
was replaced. -/

namespace Sys2Proof.Machine

variable (s : State)

/-! ## takeId -/

@[simp] theorem State.takeId_pending : (s.takeId).pending = s.pending := rfl
@[simp] theorem State.takeId_now : (s.takeId).now = s.now := rfl
@[simp] theorem State.takeId_id : (s.takeId).id = s.id + 1 := rfl
@[simp] theorem State.takeId_free : (s.takeId).free = s.free := rfl
@[simp] theorem State.takeId_dev : (s.takeId).dev = s.dev := rfl
@[simp] theorem State.takeId_work : (s.takeId).work = s.work := rfl
@[simp] theorem State.takeId_kv : (s.takeId).kv = s.kv := rfl
@[simp] theorem State.takeId_sync : (s.takeId).sync = s.sync := rfl
@[simp] theorem State.takeId_cmds : (s.takeId).cmds = s.cmds := rfl
@[simp] theorem State.takeId_sched : (s.takeId).sched = s.sched := rfl
@[simp] theorem State.takeId_sectors : (s.takeId).sectors = s.sectors := rfl
@[simp] theorem State.takeId_mem : (s.takeId).mem = s.mem := rfl
@[simp] theorem State.takeId_chord : (s.takeId).chord = s.chord := rfl
@[simp] theorem State.takeId_sense : (s.takeId).sense = s.sense := rfl
@[simp] theorem State.takeId_safety : (s.takeId).safety = s.safety := rfl
@[simp] theorem State.takeId_host : (s.takeId).host = s.host := rfl
@[simp] theorem State.takeId_plant : (s.takeId).plant = s.plant := rfl

/-! ## takeFree -/

@[simp] theorem State.takeFree_pending (n : Nat) : (s.takeFree n).pending = s.pending := rfl
@[simp] theorem State.takeFree_now (n : Nat) : (s.takeFree n).now = s.now := rfl
@[simp] theorem State.takeFree_id (n : Nat) : (s.takeFree n).id = s.id := rfl
@[simp] theorem State.takeFree_free (n : Nat) : (s.takeFree n).free = s.free + n := rfl
@[simp] theorem State.takeFree_dev (n : Nat) : (s.takeFree n).dev = s.dev := rfl
@[simp] theorem State.takeFree_work (n : Nat) : (s.takeFree n).work = s.work := rfl
@[simp] theorem State.takeFree_kv (n : Nat) : (s.takeFree n).kv = s.kv := rfl
@[simp] theorem State.takeFree_sync (n : Nat) : (s.takeFree n).sync = s.sync := rfl
@[simp] theorem State.takeFree_cmds (n : Nat) : (s.takeFree n).cmds = s.cmds := rfl
@[simp] theorem State.takeFree_sched (n : Nat) : (s.takeFree n).sched = s.sched := rfl
@[simp] theorem State.takeFree_sectors (n : Nat) : (s.takeFree n).sectors = s.sectors := rfl
@[simp] theorem State.takeFree_mem (n : Nat) : (s.takeFree n).mem = s.mem := rfl
@[simp] theorem State.takeFree_chord (n : Nat) : (s.takeFree n).chord = s.chord := rfl
@[simp] theorem State.takeFree_sense (n : Nat) : (s.takeFree n).sense = s.sense := rfl
@[simp] theorem State.takeFree_safety (n : Nat) : (s.takeFree n).safety = s.safety := rfl
@[simp] theorem State.takeFree_host (n : Nat) : (s.takeFree n).host = s.host := rfl
@[simp] theorem State.takeFree_plant (n : Nat) : (s.takeFree n).plant = s.plant := rfl

/-! ## withPending -/

@[simp] theorem State.withPending_pending (q : List Instr) : (s.withPending q).pending = q := rfl
@[simp] theorem State.withPending_now (q : List Instr) : (s.withPending q).now = s.now := rfl
@[simp] theorem State.withPending_id (q : List Instr) : (s.withPending q).id = s.id := rfl
@[simp] theorem State.withPending_free (q : List Instr) : (s.withPending q).free = s.free := rfl
@[simp] theorem State.withPending_dev (q : List Instr) : (s.withPending q).dev = s.dev := rfl
@[simp] theorem State.withPending_work (q : List Instr) : (s.withPending q).work = s.work := rfl
@[simp] theorem State.withPending_kv (q : List Instr) : (s.withPending q).kv = s.kv := rfl
@[simp] theorem State.withPending_sync (q : List Instr) : (s.withPending q).sync = s.sync := rfl
@[simp] theorem State.withPending_cmds (q : List Instr) : (s.withPending q).cmds = s.cmds := rfl
@[simp] theorem State.withPending_sched (q : List Instr) : (s.withPending q).sched = s.sched := rfl
@[simp] theorem State.withPending_sectors (q : List Instr) : (s.withPending q).sectors = s.sectors := rfl
@[simp] theorem State.withPending_mem (q : List Instr) : (s.withPending q).mem = s.mem := rfl
@[simp] theorem State.withPending_chord (q : List Instr) : (s.withPending q).chord = s.chord := rfl
@[simp] theorem State.withPending_sense (q : List Instr) : (s.withPending q).sense = s.sense := rfl
@[simp] theorem State.withPending_safety (q : List Instr) : (s.withPending q).safety = s.safety := rfl
@[simp] theorem State.withPending_host (q : List Instr) : (s.withPending q).host = s.host := rfl
@[simp] theorem State.withPending_plant (q : List Instr) : (s.withPending q).plant = s.plant := rfl

/-! ## setNum -/

@[simp] theorem State.setNum_pending (i sub v : Nat) : (s.setNum i sub v).pending = s.pending := rfl
@[simp] theorem State.setNum_now (i sub v : Nat) : (s.setNum i sub v).now = s.now := rfl
@[simp] theorem State.setNum_id (i sub v : Nat) : (s.setNum i sub v).id = s.id := rfl
@[simp] theorem State.setNum_free (i sub v : Nat) : (s.setNum i sub v).free = s.free := rfl
@[simp] theorem State.setNum_dev (i sub v : Nat) : (s.setNum i sub v).dev = s.dev := rfl
@[simp] theorem State.setNum_work (i sub v : Nat) : (s.setNum i sub v).work = s.work := rfl
@[simp] theorem State.setNum_kv (i sub v : Nat) : (s.setNum i sub v).kv = s.kv := rfl
@[simp] theorem State.setNum_sync (i sub v : Nat) : (s.setNum i sub v).sync = s.sync := rfl
@[simp] theorem State.setNum_cmds (i sub v : Nat) : (s.setNum i sub v).cmds = s.cmds := rfl
@[simp] theorem State.setNum_sched (i sub v : Nat) : (s.setNum i sub v).sched = s.sched := rfl
@[simp] theorem State.setNum_sectors (i sub v : Nat) : (s.setNum i sub v).sectors = s.sectors := rfl
@[simp] theorem State.setNum_mem (i sub v : Nat) : (s.setNum i sub v).mem = s.mem := rfl
@[simp] theorem State.setNum_chord (i sub v : Nat) : (s.setNum i sub v).chord = s.chord := rfl
@[simp] theorem State.setNum_sense (i sub v : Nat) : (s.setNum i sub v).sense = s.sense := rfl
@[simp] theorem State.setNum_safety (i sub v : Nat) : (s.setNum i sub v).safety = s.safety := rfl
@[simp] theorem State.setNum_host (i sub v : Nat) : (s.setNum i sub v).host = { s.host with num := tput s.host.num (i * 256 + sub) v } := rfl
@[simp] theorem State.setNum_plant (i sub v : Nat) : (s.setNum i sub v).plant = s.plant := rfl

/-! ## setOcts -/

@[simp] theorem State.setOcts_pending (i sub : Nat) (v : List Byte) : (s.setOcts i sub v).pending = s.pending := rfl
@[simp] theorem State.setOcts_now (i sub : Nat) (v : List Byte) : (s.setOcts i sub v).now = s.now := rfl
@[simp] theorem State.setOcts_id (i sub : Nat) (v : List Byte) : (s.setOcts i sub v).id = s.id := rfl
@[simp] theorem State.setOcts_free (i sub : Nat) (v : List Byte) : (s.setOcts i sub v).free = s.free := rfl
@[simp] theorem State.setOcts_dev (i sub : Nat) (v : List Byte) : (s.setOcts i sub v).dev = s.dev := rfl
@[simp] theorem State.setOcts_work (i sub : Nat) (v : List Byte) : (s.setOcts i sub v).work = s.work := rfl
@[simp] theorem State.setOcts_kv (i sub : Nat) (v : List Byte) : (s.setOcts i sub v).kv = s.kv := rfl
@[simp] theorem State.setOcts_sync (i sub : Nat) (v : List Byte) : (s.setOcts i sub v).sync = s.sync := rfl
@[simp] theorem State.setOcts_cmds (i sub : Nat) (v : List Byte) : (s.setOcts i sub v).cmds = s.cmds := rfl
@[simp] theorem State.setOcts_sched (i sub : Nat) (v : List Byte) : (s.setOcts i sub v).sched = s.sched := rfl
@[simp] theorem State.setOcts_sectors (i sub : Nat) (v : List Byte) : (s.setOcts i sub v).sectors = s.sectors := rfl
@[simp] theorem State.setOcts_mem (i sub : Nat) (v : List Byte) : (s.setOcts i sub v).mem = s.mem := rfl
@[simp] theorem State.setOcts_chord (i sub : Nat) (v : List Byte) : (s.setOcts i sub v).chord = s.chord := rfl
@[simp] theorem State.setOcts_sense (i sub : Nat) (v : List Byte) : (s.setOcts i sub v).sense = s.sense := rfl
@[simp] theorem State.setOcts_safety (i sub : Nat) (v : List Byte) : (s.setOcts i sub v).safety = s.safety := rfl
@[simp] theorem State.setOcts_host (i sub : Nat) (v : List Byte) : (s.setOcts i sub v).host = { s.host with oct := tput s.host.oct (i * 256 + sub) v } := rfl
@[simp] theorem State.setOcts_plant (i sub : Nat) (v : List Byte) : (s.setOcts i sub v).plant = s.plant := rfl

/-! ## modTarget -/

@[simp] theorem State.modTarget_pending (n : Nat) (g : I3c → I3c) : (s.modTarget n g).pending = s.pending := rfl
@[simp] theorem State.modTarget_now (n : Nat) (g : I3c → I3c) : (s.modTarget n g).now = s.now := rfl
@[simp] theorem State.modTarget_id (n : Nat) (g : I3c → I3c) : (s.modTarget n g).id = s.id := rfl
@[simp] theorem State.modTarget_free (n : Nat) (g : I3c → I3c) : (s.modTarget n g).free = s.free := rfl
@[simp] theorem State.modTarget_dev (n : Nat) (g : I3c → I3c) : (s.modTarget n g).dev = s.dev := rfl
@[simp] theorem State.modTarget_work (n : Nat) (g : I3c → I3c) : (s.modTarget n g).work = s.work := rfl
@[simp] theorem State.modTarget_kv (n : Nat) (g : I3c → I3c) : (s.modTarget n g).kv = s.kv := rfl
@[simp] theorem State.modTarget_sync (n : Nat) (g : I3c → I3c) : (s.modTarget n g).sync = s.sync := rfl
@[simp] theorem State.modTarget_cmds (n : Nat) (g : I3c → I3c) : (s.modTarget n g).cmds = s.cmds := rfl
@[simp] theorem State.modTarget_sched (n : Nat) (g : I3c → I3c) : (s.modTarget n g).sched = s.sched := rfl
@[simp] theorem State.modTarget_sectors (n : Nat) (g : I3c → I3c) : (s.modTarget n g).sectors = s.sectors := rfl
@[simp] theorem State.modTarget_mem (n : Nat) (g : I3c → I3c) : (s.modTarget n g).mem = s.mem := rfl
@[simp] theorem State.modTarget_chord (n : Nat) (g : I3c → I3c) : (s.modTarget n g).chord = s.chord := rfl
@[simp] theorem State.modTarget_sense (n : Nat) (g : I3c → I3c) : (s.modTarget n g).sense = s.sense := rfl
@[simp] theorem State.modTarget_safety (n : Nat) (g : I3c → I3c) : (s.modTarget n g).safety = s.safety := rfl
@[simp] theorem State.modTarget_host (n : Nat) (g : I3c → I3c) : (s.modTarget n g).host = { s.host with i3c := lmod s.host.i3c n g } := rfl
@[simp] theorem State.modTarget_plant (n : Nat) (g : I3c → I3c) : (s.modTarget n g).plant = s.plant := rfl

/-! ## setFacet -/

@[simp] theorem State.setFacet_pending (f : Nat) (x : Facet) : (s.setFacet f x).pending = s.pending := rfl
@[simp] theorem State.setFacet_now (f : Nat) (x : Facet) : (s.setFacet f x).now = s.now := rfl
@[simp] theorem State.setFacet_id (f : Nat) (x : Facet) : (s.setFacet f x).id = s.id := rfl
@[simp] theorem State.setFacet_free (f : Nat) (x : Facet) : (s.setFacet f x).free = s.free := rfl
@[simp] theorem State.setFacet_dev (f : Nat) (x : Facet) : (s.setFacet f x).dev = s.dev := rfl
@[simp] theorem State.setFacet_work (f : Nat) (x : Facet) : (s.setFacet f x).work = { s.work with facets := tput s.work.facets f x } := rfl
@[simp] theorem State.setFacet_kv (f : Nat) (x : Facet) : (s.setFacet f x).kv = s.kv := rfl
@[simp] theorem State.setFacet_sync (f : Nat) (x : Facet) : (s.setFacet f x).sync = s.sync := rfl
@[simp] theorem State.setFacet_cmds (f : Nat) (x : Facet) : (s.setFacet f x).cmds = s.cmds := rfl
@[simp] theorem State.setFacet_sched (f : Nat) (x : Facet) : (s.setFacet f x).sched = s.sched := rfl
@[simp] theorem State.setFacet_sectors (f : Nat) (x : Facet) : (s.setFacet f x).sectors = s.sectors := rfl
@[simp] theorem State.setFacet_mem (f : Nat) (x : Facet) : (s.setFacet f x).mem = s.mem := rfl
@[simp] theorem State.setFacet_chord (f : Nat) (x : Facet) : (s.setFacet f x).chord = s.chord := rfl
@[simp] theorem State.setFacet_sense (f : Nat) (x : Facet) : (s.setFacet f x).sense = s.sense := rfl
@[simp] theorem State.setFacet_safety (f : Nat) (x : Facet) : (s.setFacet f x).safety = s.safety := rfl
@[simp] theorem State.setFacet_host (f : Nat) (x : Facet) : (s.setFacet f x).host = s.host := rfl
@[simp] theorem State.setFacet_plant (f : Nat) (x : Facet) : (s.setFacet f x).plant = s.plant := rfl

/-! ## modFacet -/

@[simp] theorem State.modFacet_pending (f : Nat) (g : Facet → Facet) : (s.modFacet f g).pending = s.pending := rfl
@[simp] theorem State.modFacet_now (f : Nat) (g : Facet → Facet) : (s.modFacet f g).now = s.now := rfl
@[simp] theorem State.modFacet_id (f : Nat) (g : Facet → Facet) : (s.modFacet f g).id = s.id := rfl
@[simp] theorem State.modFacet_free (f : Nat) (g : Facet → Facet) : (s.modFacet f g).free = s.free := rfl
@[simp] theorem State.modFacet_dev (f : Nat) (g : Facet → Facet) : (s.modFacet f g).dev = s.dev := rfl
@[simp] theorem State.modFacet_work (f : Nat) (g : Facet → Facet) : (s.modFacet f g).work = { s.work with facets := tput s.work.facets f (g (s.facet f)) } := rfl
@[simp] theorem State.modFacet_kv (f : Nat) (g : Facet → Facet) : (s.modFacet f g).kv = s.kv := rfl
@[simp] theorem State.modFacet_sync (f : Nat) (g : Facet → Facet) : (s.modFacet f g).sync = s.sync := rfl
@[simp] theorem State.modFacet_cmds (f : Nat) (g : Facet → Facet) : (s.modFacet f g).cmds = s.cmds := rfl
@[simp] theorem State.modFacet_sched (f : Nat) (g : Facet → Facet) : (s.modFacet f g).sched = s.sched := rfl
@[simp] theorem State.modFacet_sectors (f : Nat) (g : Facet → Facet) : (s.modFacet f g).sectors = s.sectors := rfl
@[simp] theorem State.modFacet_mem (f : Nat) (g : Facet → Facet) : (s.modFacet f g).mem = s.mem := rfl
@[simp] theorem State.modFacet_chord (f : Nat) (g : Facet → Facet) : (s.modFacet f g).chord = s.chord := rfl
@[simp] theorem State.modFacet_sense (f : Nat) (g : Facet → Facet) : (s.modFacet f g).sense = s.sense := rfl
@[simp] theorem State.modFacet_safety (f : Nat) (g : Facet → Facet) : (s.modFacet f g).safety = s.safety := rfl
@[simp] theorem State.modFacet_host (f : Nat) (g : Facet → Facet) : (s.modFacet f g).host = s.host := rfl
@[simp] theorem State.modFacet_plant (f : Nat) (g : Facet → Facet) : (s.modFacet f g).plant = s.plant := rfl

/-! ## setSec -/

@[simp] theorem State.setSec_pending (n : Nat) (x : Sector) : (s.setSec n x).pending = s.pending := rfl
@[simp] theorem State.setSec_now (n : Nat) (x : Sector) : (s.setSec n x).now = s.now := rfl
@[simp] theorem State.setSec_id (n : Nat) (x : Sector) : (s.setSec n x).id = s.id := rfl
@[simp] theorem State.setSec_free (n : Nat) (x : Sector) : (s.setSec n x).free = s.free := rfl
@[simp] theorem State.setSec_dev (n : Nat) (x : Sector) : (s.setSec n x).dev = s.dev := rfl
@[simp] theorem State.setSec_work (n : Nat) (x : Sector) : (s.setSec n x).work = s.work := rfl
@[simp] theorem State.setSec_kv (n : Nat) (x : Sector) : (s.setSec n x).kv = s.kv := rfl
@[simp] theorem State.setSec_sync (n : Nat) (x : Sector) : (s.setSec n x).sync = s.sync := rfl
@[simp] theorem State.setSec_cmds (n : Nat) (x : Sector) : (s.setSec n x).cmds = s.cmds := rfl
@[simp] theorem State.setSec_sched (n : Nat) (x : Sector) : (s.setSec n x).sched = s.sched := rfl
@[simp] theorem State.setSec_sectors (n : Nat) (x : Sector) : (s.setSec n x).sectors = tput s.sectors n x := rfl
@[simp] theorem State.setSec_mem (n : Nat) (x : Sector) : (s.setSec n x).mem = s.mem := rfl
@[simp] theorem State.setSec_chord (n : Nat) (x : Sector) : (s.setSec n x).chord = s.chord := rfl
@[simp] theorem State.setSec_sense (n : Nat) (x : Sector) : (s.setSec n x).sense = s.sense := rfl
@[simp] theorem State.setSec_safety (n : Nat) (x : Sector) : (s.setSec n x).safety = s.safety := rfl
@[simp] theorem State.setSec_host (n : Nat) (x : Sector) : (s.setSec n x).host = s.host := rfl
@[simp] theorem State.setSec_plant (n : Nat) (x : Sector) : (s.setSec n x).plant = s.plant := rfl

/-! ## setPool -/

@[simp] theorem State.setPool_pending (n : Nat) (x : Pool) : (s.setPool n x).pending = s.pending := rfl
@[simp] theorem State.setPool_now (n : Nat) (x : Pool) : (s.setPool n x).now = s.now := rfl
@[simp] theorem State.setPool_id (n : Nat) (x : Pool) : (s.setPool n x).id = s.id := rfl
@[simp] theorem State.setPool_free (n : Nat) (x : Pool) : (s.setPool n x).free = s.free := rfl
@[simp] theorem State.setPool_dev (n : Nat) (x : Pool) : (s.setPool n x).dev = s.dev := rfl
@[simp] theorem State.setPool_work (n : Nat) (x : Pool) : (s.setPool n x).work = s.work := rfl
@[simp] theorem State.setPool_kv (n : Nat) (x : Pool) : (s.setPool n x).kv = tput s.kv n x := rfl
@[simp] theorem State.setPool_sync (n : Nat) (x : Pool) : (s.setPool n x).sync = s.sync := rfl
@[simp] theorem State.setPool_cmds (n : Nat) (x : Pool) : (s.setPool n x).cmds = s.cmds := rfl
@[simp] theorem State.setPool_sched (n : Nat) (x : Pool) : (s.setPool n x).sched = s.sched := rfl
@[simp] theorem State.setPool_sectors (n : Nat) (x : Pool) : (s.setPool n x).sectors = s.sectors := rfl
@[simp] theorem State.setPool_mem (n : Nat) (x : Pool) : (s.setPool n x).mem = s.mem := rfl
@[simp] theorem State.setPool_chord (n : Nat) (x : Pool) : (s.setPool n x).chord = s.chord := rfl
@[simp] theorem State.setPool_sense (n : Nat) (x : Pool) : (s.setPool n x).sense = s.sense := rfl
@[simp] theorem State.setPool_safety (n : Nat) (x : Pool) : (s.setPool n x).safety = s.safety := rfl
@[simp] theorem State.setPool_host (n : Nat) (x : Pool) : (s.setPool n x).host = s.host := rfl
@[simp] theorem State.setPool_plant (n : Nat) (x : Pool) : (s.setPool n x).plant = s.plant := rfl

/-! ## setSlot -/

@[simp] theorem State.setSlot_pending (i : Nat) (x : Slot) : (s.setSlot i x).pending = s.pending := rfl
@[simp] theorem State.setSlot_now (i : Nat) (x : Slot) : (s.setSlot i x).now = s.now := rfl
@[simp] theorem State.setSlot_id (i : Nat) (x : Slot) : (s.setSlot i x).id = s.id := rfl
@[simp] theorem State.setSlot_free (i : Nat) (x : Slot) : (s.setSlot i x).free = s.free := rfl
@[simp] theorem State.setSlot_dev (i : Nat) (x : Slot) : (s.setSlot i x).dev = s.dev := rfl
@[simp] theorem State.setSlot_work (i : Nat) (x : Slot) : (s.setSlot i x).work = s.work := rfl
@[simp] theorem State.setSlot_kv (i : Nat) (x : Slot) : (s.setSlot i x).kv = s.kv := rfl
@[simp] theorem State.setSlot_sync (i : Nat) (x : Slot) : (s.setSlot i x).sync = s.sync := rfl
@[simp] theorem State.setSlot_cmds (i : Nat) (x : Slot) : (s.setSlot i x).cmds = { s.cmds with slots := tput s.cmds.slots i x } := rfl
@[simp] theorem State.setSlot_sched (i : Nat) (x : Slot) : (s.setSlot i x).sched = s.sched := rfl
@[simp] theorem State.setSlot_sectors (i : Nat) (x : Slot) : (s.setSlot i x).sectors = s.sectors := rfl
@[simp] theorem State.setSlot_mem (i : Nat) (x : Slot) : (s.setSlot i x).mem = s.mem := rfl
@[simp] theorem State.setSlot_chord (i : Nat) (x : Slot) : (s.setSlot i x).chord = s.chord := rfl
@[simp] theorem State.setSlot_sense (i : Nat) (x : Slot) : (s.setSlot i x).sense = s.sense := rfl
@[simp] theorem State.setSlot_safety (i : Nat) (x : Slot) : (s.setSlot i x).safety = s.safety := rfl
@[simp] theorem State.setSlot_host (i : Nat) (x : Slot) : (s.setSlot i x).host = s.host := rfl
@[simp] theorem State.setSlot_plant (i : Nat) (x : Slot) : (s.setSlot i x).plant = s.plant := rfl

/-! ## setWin -/

@[simp] theorem State.setWin_pending (k : Nat) (w : Window) : (s.setWin k w).pending = s.pending := rfl
@[simp] theorem State.setWin_now (k : Nat) (w : Window) : (s.setWin k w).now = s.now := rfl
@[simp] theorem State.setWin_id (k : Nat) (w : Window) : (s.setWin k w).id = s.id := rfl
@[simp] theorem State.setWin_free (k : Nat) (w : Window) : (s.setWin k w).free = s.free := rfl
@[simp] theorem State.setWin_dev (k : Nat) (w : Window) : (s.setWin k w).dev = s.dev := rfl
@[simp] theorem State.setWin_work (k : Nat) (w : Window) : (s.setWin k w).work = s.work := rfl
@[simp] theorem State.setWin_kv (k : Nat) (w : Window) : (s.setWin k w).kv = s.kv := rfl
@[simp] theorem State.setWin_sync (k : Nat) (w : Window) : (s.setWin k w).sync = s.sync := rfl
@[simp] theorem State.setWin_cmds (k : Nat) (w : Window) : (s.setWin k w).cmds = { s.cmds with windows := tput s.cmds.windows k w } := rfl
@[simp] theorem State.setWin_sched (k : Nat) (w : Window) : (s.setWin k w).sched = s.sched := rfl
@[simp] theorem State.setWin_sectors (k : Nat) (w : Window) : (s.setWin k w).sectors = s.sectors := rfl
@[simp] theorem State.setWin_mem (k : Nat) (w : Window) : (s.setWin k w).mem = s.mem := rfl
@[simp] theorem State.setWin_chord (k : Nat) (w : Window) : (s.setWin k w).chord = s.chord := rfl
@[simp] theorem State.setWin_sense (k : Nat) (w : Window) : (s.setWin k w).sense = s.sense := rfl
@[simp] theorem State.setWin_safety (k : Nat) (w : Window) : (s.setWin k w).safety = s.safety := rfl
@[simp] theorem State.setWin_host (k : Nat) (w : Window) : (s.setWin k w).host = s.host := rfl
@[simp] theorem State.setWin_plant (k : Nat) (w : Window) : (s.setWin k w).plant = s.plant := rfl

/-! ## setVobj -/

@[simp] theorem State.setVobj_pending (k : Nat) (x : VObj) : (s.setVobj k x).pending = s.pending := rfl
@[simp] theorem State.setVobj_now (k : Nat) (x : VObj) : (s.setVobj k x).now = s.now := rfl
@[simp] theorem State.setVobj_id (k : Nat) (x : VObj) : (s.setVobj k x).id = s.id := rfl
@[simp] theorem State.setVobj_free (k : Nat) (x : VObj) : (s.setVobj k x).free = s.free := rfl
@[simp] theorem State.setVobj_dev (k : Nat) (x : VObj) : (s.setVobj k x).dev = s.dev := rfl
@[simp] theorem State.setVobj_work (k : Nat) (x : VObj) : (s.setVobj k x).work = s.work := rfl
@[simp] theorem State.setVobj_kv (k : Nat) (x : VObj) : (s.setVobj k x).kv = s.kv := rfl
@[simp] theorem State.setVobj_sync (k : Nat) (x : VObj) : (s.setVobj k x).sync = { s.sync with objs := tput s.sync.objs k x } := rfl
@[simp] theorem State.setVobj_cmds (k : Nat) (x : VObj) : (s.setVobj k x).cmds = s.cmds := rfl
@[simp] theorem State.setVobj_sched (k : Nat) (x : VObj) : (s.setVobj k x).sched = s.sched := rfl
@[simp] theorem State.setVobj_sectors (k : Nat) (x : VObj) : (s.setVobj k x).sectors = s.sectors := rfl
@[simp] theorem State.setVobj_mem (k : Nat) (x : VObj) : (s.setVobj k x).mem = s.mem := rfl
@[simp] theorem State.setVobj_chord (k : Nat) (x : VObj) : (s.setVobj k x).chord = s.chord := rfl
@[simp] theorem State.setVobj_sense (k : Nat) (x : VObj) : (s.setVobj k x).sense = s.sense := rfl
@[simp] theorem State.setVobj_safety (k : Nat) (x : VObj) : (s.setVobj k x).safety = s.safety := rfl
@[simp] theorem State.setVobj_host (k : Nat) (x : VObj) : (s.setVobj k x).host = s.host := rfl
@[simp] theorem State.setVobj_plant (k : Nat) (x : VObj) : (s.setVobj k x).plant = s.plant := rfl

/-! ## setBar -/

@[simp] theorem State.setBar_pending (k : Nat) (x : Barrier) : (s.setBar k x).pending = s.pending := rfl
@[simp] theorem State.setBar_now (k : Nat) (x : Barrier) : (s.setBar k x).now = s.now := rfl
@[simp] theorem State.setBar_id (k : Nat) (x : Barrier) : (s.setBar k x).id = s.id := rfl
@[simp] theorem State.setBar_free (k : Nat) (x : Barrier) : (s.setBar k x).free = s.free := rfl
@[simp] theorem State.setBar_dev (k : Nat) (x : Barrier) : (s.setBar k x).dev = s.dev := rfl
@[simp] theorem State.setBar_work (k : Nat) (x : Barrier) : (s.setBar k x).work = s.work := rfl
@[simp] theorem State.setBar_kv (k : Nat) (x : Barrier) : (s.setBar k x).kv = s.kv := rfl
@[simp] theorem State.setBar_sync (k : Nat) (x : Barrier) : (s.setBar k x).sync = { s.sync with bars := tput s.sync.bars k x } := rfl
@[simp] theorem State.setBar_cmds (k : Nat) (x : Barrier) : (s.setBar k x).cmds = s.cmds := rfl
@[simp] theorem State.setBar_sched (k : Nat) (x : Barrier) : (s.setBar k x).sched = s.sched := rfl
@[simp] theorem State.setBar_sectors (k : Nat) (x : Barrier) : (s.setBar k x).sectors = s.sectors := rfl
@[simp] theorem State.setBar_mem (k : Nat) (x : Barrier) : (s.setBar k x).mem = s.mem := rfl
@[simp] theorem State.setBar_chord (k : Nat) (x : Barrier) : (s.setBar k x).chord = s.chord := rfl
@[simp] theorem State.setBar_sense (k : Nat) (x : Barrier) : (s.setBar k x).sense = s.sense := rfl
@[simp] theorem State.setBar_safety (k : Nat) (x : Barrier) : (s.setBar k x).safety = s.safety := rfl
@[simp] theorem State.setBar_host (k : Nat) (x : Barrier) : (s.setBar k x).host = s.host := rfl
@[simp] theorem State.setBar_plant (k : Nat) (x : Barrier) : (s.setBar k x).plant = s.plant := rfl

/-! ## setLink -/

@[simp] theorem State.setLink_pending (l : Nat) (x : Link) : (s.setLink l x).pending = s.pending := rfl
@[simp] theorem State.setLink_now (l : Nat) (x : Link) : (s.setLink l x).now = s.now := rfl
@[simp] theorem State.setLink_id (l : Nat) (x : Link) : (s.setLink l x).id = s.id := rfl
@[simp] theorem State.setLink_free (l : Nat) (x : Link) : (s.setLink l x).free = s.free := rfl
@[simp] theorem State.setLink_dev (l : Nat) (x : Link) : (s.setLink l x).dev = s.dev := rfl
@[simp] theorem State.setLink_work (l : Nat) (x : Link) : (s.setLink l x).work = s.work := rfl
@[simp] theorem State.setLink_kv (l : Nat) (x : Link) : (s.setLink l x).kv = s.kv := rfl
@[simp] theorem State.setLink_sync (l : Nat) (x : Link) : (s.setLink l x).sync = s.sync := rfl
@[simp] theorem State.setLink_cmds (l : Nat) (x : Link) : (s.setLink l x).cmds = s.cmds := rfl
@[simp] theorem State.setLink_sched (l : Nat) (x : Link) : (s.setLink l x).sched = s.sched := rfl
@[simp] theorem State.setLink_sectors (l : Nat) (x : Link) : (s.setLink l x).sectors = s.sectors := rfl
@[simp] theorem State.setLink_mem (l : Nat) (x : Link) : (s.setLink l x).mem = s.mem := rfl
@[simp] theorem State.setLink_chord (l : Nat) (x : Link) : (s.setLink l x).chord = { s.chord with links := tput s.chord.links l x } := rfl
@[simp] theorem State.setLink_sense (l : Nat) (x : Link) : (s.setLink l x).sense = s.sense := rfl
@[simp] theorem State.setLink_safety (l : Nat) (x : Link) : (s.setLink l x).safety = s.safety := rfl
@[simp] theorem State.setLink_host (l : Nat) (x : Link) : (s.setLink l x).host = s.host := rfl
@[simp] theorem State.setLink_plant (l : Nat) (x : Link) : (s.setLink l x).plant = s.plant := rfl

/-! ## modDir -/

@[simp] theorem State.modDir_pending (l d : Nat) (g : LinkDir → LinkDir) : (s.modDir l d g).pending = s.pending := rfl
@[simp] theorem State.modDir_now (l d : Nat) (g : LinkDir → LinkDir) : (s.modDir l d g).now = s.now := rfl
@[simp] theorem State.modDir_id (l d : Nat) (g : LinkDir → LinkDir) : (s.modDir l d g).id = s.id := rfl
@[simp] theorem State.modDir_free (l d : Nat) (g : LinkDir → LinkDir) : (s.modDir l d g).free = s.free := rfl
@[simp] theorem State.modDir_dev (l d : Nat) (g : LinkDir → LinkDir) : (s.modDir l d g).dev = s.dev := rfl
@[simp] theorem State.modDir_work (l d : Nat) (g : LinkDir → LinkDir) : (s.modDir l d g).work = s.work := rfl
@[simp] theorem State.modDir_kv (l d : Nat) (g : LinkDir → LinkDir) : (s.modDir l d g).kv = s.kv := rfl
@[simp] theorem State.modDir_sync (l d : Nat) (g : LinkDir → LinkDir) : (s.modDir l d g).sync = s.sync := rfl
@[simp] theorem State.modDir_cmds (l d : Nat) (g : LinkDir → LinkDir) : (s.modDir l d g).cmds = s.cmds := rfl
@[simp] theorem State.modDir_sched (l d : Nat) (g : LinkDir → LinkDir) : (s.modDir l d g).sched = s.sched := rfl
@[simp] theorem State.modDir_sectors (l d : Nat) (g : LinkDir → LinkDir) : (s.modDir l d g).sectors = s.sectors := rfl
@[simp] theorem State.modDir_mem (l d : Nat) (g : LinkDir → LinkDir) : (s.modDir l d g).mem = s.mem := rfl
@[simp] theorem State.modDir_chord (l d : Nat) (g : LinkDir → LinkDir) : (s.modDir l d g).chord = { s.chord with dirs := tput s.chord.dirs (2 * l + d) (g (s.dir l d)) } := rfl
@[simp] theorem State.modDir_sense (l d : Nat) (g : LinkDir → LinkDir) : (s.modDir l d g).sense = s.sense := rfl
@[simp] theorem State.modDir_safety (l d : Nat) (g : LinkDir → LinkDir) : (s.modDir l d g).safety = s.safety := rfl
@[simp] theorem State.modDir_host (l d : Nat) (g : LinkDir → LinkDir) : (s.modDir l d g).host = s.host := rfl
@[simp] theorem State.modDir_plant (l d : Nat) (g : LinkDir → LinkDir) : (s.modDir l d g).plant = s.plant := rfl

/-! ## setQueue -/

@[simp] theorem State.setQueue_pending (k : Nat) (q : List QReq) : (s.setQueue k q).pending = s.pending := rfl
@[simp] theorem State.setQueue_now (k : Nat) (q : List QReq) : (s.setQueue k q).now = s.now := rfl
@[simp] theorem State.setQueue_id (k : Nat) (q : List QReq) : (s.setQueue k q).id = s.id := rfl
@[simp] theorem State.setQueue_free (k : Nat) (q : List QReq) : (s.setQueue k q).free = s.free := rfl
@[simp] theorem State.setQueue_dev (k : Nat) (q : List QReq) : (s.setQueue k q).dev = s.dev := rfl
@[simp] theorem State.setQueue_work (k : Nat) (q : List QReq) : (s.setQueue k q).work = s.work := rfl
@[simp] theorem State.setQueue_kv (k : Nat) (q : List QReq) : (s.setQueue k q).kv = s.kv := rfl
@[simp] theorem State.setQueue_sync (k : Nat) (q : List QReq) : (s.setQueue k q).sync = s.sync := rfl
@[simp] theorem State.setQueue_cmds (k : Nat) (q : List QReq) : (s.setQueue k q).cmds = s.cmds := rfl
@[simp] theorem State.setQueue_sched (k : Nat) (q : List QReq) : (s.setQueue k q).sched = s.sched := rfl
@[simp] theorem State.setQueue_sectors (k : Nat) (q : List QReq) : (s.setQueue k q).sectors = s.sectors := rfl
@[simp] theorem State.setQueue_mem (k : Nat) (q : List QReq) : (s.setQueue k q).mem = { s.mem with queues := tset s.mem.queues k q [] } := rfl
@[simp] theorem State.setQueue_chord (k : Nat) (q : List QReq) : (s.setQueue k q).chord = s.chord := rfl
@[simp] theorem State.setQueue_sense (k : Nat) (q : List QReq) : (s.setQueue k q).sense = s.sense := rfl
@[simp] theorem State.setQueue_safety (k : Nat) (q : List QReq) : (s.setQueue k q).safety = s.safety := rfl
@[simp] theorem State.setQueue_host (k : Nat) (q : List QReq) : (s.setQueue k q).host = s.host := rfl
@[simp] theorem State.setQueue_plant (k : Nat) (q : List QReq) : (s.setQueue k q).plant = s.plant := rfl

/-! ## setBank -/

@[simp] theorem State.setBank_pending (k : Nat) (b : Bank) : (s.setBank k b).pending = s.pending := rfl
@[simp] theorem State.setBank_now (k : Nat) (b : Bank) : (s.setBank k b).now = s.now := rfl
@[simp] theorem State.setBank_id (k : Nat) (b : Bank) : (s.setBank k b).id = s.id := rfl
@[simp] theorem State.setBank_free (k : Nat) (b : Bank) : (s.setBank k b).free = s.free := rfl
@[simp] theorem State.setBank_dev (k : Nat) (b : Bank) : (s.setBank k b).dev = s.dev := rfl
@[simp] theorem State.setBank_work (k : Nat) (b : Bank) : (s.setBank k b).work = s.work := rfl
@[simp] theorem State.setBank_kv (k : Nat) (b : Bank) : (s.setBank k b).kv = s.kv := rfl
@[simp] theorem State.setBank_sync (k : Nat) (b : Bank) : (s.setBank k b).sync = s.sync := rfl
@[simp] theorem State.setBank_cmds (k : Nat) (b : Bank) : (s.setBank k b).cmds = s.cmds := rfl
@[simp] theorem State.setBank_sched (k : Nat) (b : Bank) : (s.setBank k b).sched = s.sched := rfl
@[simp] theorem State.setBank_sectors (k : Nat) (b : Bank) : (s.setBank k b).sectors = s.sectors := rfl
@[simp] theorem State.setBank_mem (k : Nat) (b : Bank) : (s.setBank k b).mem = { s.mem with banks := tput s.mem.banks k b } := rfl
@[simp] theorem State.setBank_chord (k : Nat) (b : Bank) : (s.setBank k b).chord = s.chord := rfl
@[simp] theorem State.setBank_sense (k : Nat) (b : Bank) : (s.setBank k b).sense = s.sense := rfl
@[simp] theorem State.setBank_safety (k : Nat) (b : Bank) : (s.setBank k b).safety = s.safety := rfl
@[simp] theorem State.setBank_host (k : Nat) (b : Bank) : (s.setBank k b).host = s.host := rfl
@[simp] theorem State.setBank_plant (k : Nat) (b : Bank) : (s.setBank k b).plant = s.plant := rfl

/-! ## setScrub -/

@[simp] theorem State.setScrub_pending (k : Nat) (x : Scrub) : (s.setScrub k x).pending = s.pending := rfl
@[simp] theorem State.setScrub_now (k : Nat) (x : Scrub) : (s.setScrub k x).now = s.now := rfl
@[simp] theorem State.setScrub_id (k : Nat) (x : Scrub) : (s.setScrub k x).id = s.id := rfl
@[simp] theorem State.setScrub_free (k : Nat) (x : Scrub) : (s.setScrub k x).free = s.free := rfl
@[simp] theorem State.setScrub_dev (k : Nat) (x : Scrub) : (s.setScrub k x).dev = s.dev := rfl
@[simp] theorem State.setScrub_work (k : Nat) (x : Scrub) : (s.setScrub k x).work = s.work := rfl
@[simp] theorem State.setScrub_kv (k : Nat) (x : Scrub) : (s.setScrub k x).kv = s.kv := rfl
@[simp] theorem State.setScrub_sync (k : Nat) (x : Scrub) : (s.setScrub k x).sync = s.sync := rfl
@[simp] theorem State.setScrub_cmds (k : Nat) (x : Scrub) : (s.setScrub k x).cmds = s.cmds := rfl
@[simp] theorem State.setScrub_sched (k : Nat) (x : Scrub) : (s.setScrub k x).sched = s.sched := rfl
@[simp] theorem State.setScrub_sectors (k : Nat) (x : Scrub) : (s.setScrub k x).sectors = s.sectors := rfl
@[simp] theorem State.setScrub_mem (k : Nat) (x : Scrub) : (s.setScrub k x).mem = { s.mem with scrubs := tput s.mem.scrubs k x } := rfl
@[simp] theorem State.setScrub_chord (k : Nat) (x : Scrub) : (s.setScrub k x).chord = s.chord := rfl
@[simp] theorem State.setScrub_sense (k : Nat) (x : Scrub) : (s.setScrub k x).sense = s.sense := rfl
@[simp] theorem State.setScrub_safety (k : Nat) (x : Scrub) : (s.setScrub k x).safety = s.safety := rfl
@[simp] theorem State.setScrub_host (k : Nat) (x : Scrub) : (s.setScrub k x).host = s.host := rfl
@[simp] theorem State.setScrub_plant (k : Nat) (x : Scrub) : (s.setScrub k x).plant = s.plant := rfl

/-! ## setPanic -/

@[simp] theorem State.setPanic_pending (i : Nat) (p : Panic) : (s.setPanic i p).pending = s.pending := rfl
@[simp] theorem State.setPanic_now (i : Nat) (p : Panic) : (s.setPanic i p).now = s.now := rfl
@[simp] theorem State.setPanic_id (i : Nat) (p : Panic) : (s.setPanic i p).id = s.id := rfl
@[simp] theorem State.setPanic_free (i : Nat) (p : Panic) : (s.setPanic i p).free = s.free := rfl
@[simp] theorem State.setPanic_dev (i : Nat) (p : Panic) : (s.setPanic i p).dev = s.dev := rfl
@[simp] theorem State.setPanic_work (i : Nat) (p : Panic) : (s.setPanic i p).work = s.work := rfl
@[simp] theorem State.setPanic_kv (i : Nat) (p : Panic) : (s.setPanic i p).kv = s.kv := rfl
@[simp] theorem State.setPanic_sync (i : Nat) (p : Panic) : (s.setPanic i p).sync = s.sync := rfl
@[simp] theorem State.setPanic_cmds (i : Nat) (p : Panic) : (s.setPanic i p).cmds = s.cmds := rfl
@[simp] theorem State.setPanic_sched (i : Nat) (p : Panic) : (s.setPanic i p).sched = s.sched := rfl
@[simp] theorem State.setPanic_sectors (i : Nat) (p : Panic) : (s.setPanic i p).sectors = s.sectors := rfl
@[simp] theorem State.setPanic_mem (i : Nat) (p : Panic) : (s.setPanic i p).mem = { s.mem with panics := lset s.mem.panics i p } := rfl
@[simp] theorem State.setPanic_chord (i : Nat) (p : Panic) : (s.setPanic i p).chord = s.chord := rfl
@[simp] theorem State.setPanic_sense (i : Nat) (p : Panic) : (s.setPanic i p).sense = s.sense := rfl
@[simp] theorem State.setPanic_safety (i : Nat) (p : Panic) : (s.setPanic i p).safety = s.safety := rfl
@[simp] theorem State.setPanic_host (i : Nat) (p : Panic) : (s.setPanic i p).host = s.host := rfl
@[simp] theorem State.setPanic_plant (i : Nat) (p : Panic) : (s.setPanic i p).plant = s.plant := rfl

/-! ## setSensor -/

@[simp] theorem State.setSensor_pending (b i : Nat) (x : Sensor) : (s.setSensor b i x).pending = s.pending := rfl
@[simp] theorem State.setSensor_now (b i : Nat) (x : Sensor) : (s.setSensor b i x).now = s.now := rfl
@[simp] theorem State.setSensor_id (b i : Nat) (x : Sensor) : (s.setSensor b i x).id = s.id := rfl
@[simp] theorem State.setSensor_free (b i : Nat) (x : Sensor) : (s.setSensor b i x).free = s.free := rfl
@[simp] theorem State.setSensor_dev (b i : Nat) (x : Sensor) : (s.setSensor b i x).dev = s.dev := rfl
@[simp] theorem State.setSensor_work (b i : Nat) (x : Sensor) : (s.setSensor b i x).work = s.work := rfl
@[simp] theorem State.setSensor_kv (b i : Nat) (x : Sensor) : (s.setSensor b i x).kv = s.kv := rfl
@[simp] theorem State.setSensor_sync (b i : Nat) (x : Sensor) : (s.setSensor b i x).sync = s.sync := rfl
@[simp] theorem State.setSensor_cmds (b i : Nat) (x : Sensor) : (s.setSensor b i x).cmds = s.cmds := rfl
@[simp] theorem State.setSensor_sched (b i : Nat) (x : Sensor) : (s.setSensor b i x).sched = s.sched := rfl
@[simp] theorem State.setSensor_sectors (b i : Nat) (x : Sensor) : (s.setSensor b i x).sectors = s.sectors := rfl
@[simp] theorem State.setSensor_mem (b i : Nat) (x : Sensor) : (s.setSensor b i x).mem = s.mem := rfl
@[simp] theorem State.setSensor_chord (b i : Nat) (x : Sensor) : (s.setSensor b i x).chord = s.chord := rfl
@[simp] theorem State.setSensor_sense (b i : Nat) (x : Sensor) : (s.setSensor b i x).sense = { s.sense with sensors := tput s.sense.sensors (48 * b + i) x } := rfl
@[simp] theorem State.setSensor_safety (b i : Nat) (x : Sensor) : (s.setSensor b i x).safety = s.safety := rfl
@[simp] theorem State.setSensor_host (b i : Nat) (x : Sensor) : (s.setSensor b i x).host = s.host := rfl
@[simp] theorem State.setSensor_plant (b i : Nat) (x : Sensor) : (s.setSensor b i x).plant = s.plant := rfl

/-! ## setPeBuf -/

@[simp] theorem State.setPeBuf_pending (n : Nat) (p : PeBuf) : (s.setPeBuf n p).pending = s.pending := rfl
@[simp] theorem State.setPeBuf_now (n : Nat) (p : PeBuf) : (s.setPeBuf n p).now = s.now := rfl
@[simp] theorem State.setPeBuf_id (n : Nat) (p : PeBuf) : (s.setPeBuf n p).id = s.id := rfl
@[simp] theorem State.setPeBuf_free (n : Nat) (p : PeBuf) : (s.setPeBuf n p).free = s.free := rfl
@[simp] theorem State.setPeBuf_dev (n : Nat) (p : PeBuf) : (s.setPeBuf n p).dev = s.dev := rfl
@[simp] theorem State.setPeBuf_work (n : Nat) (p : PeBuf) : (s.setPeBuf n p).work = s.work := rfl
@[simp] theorem State.setPeBuf_kv (n : Nat) (p : PeBuf) : (s.setPeBuf n p).kv = s.kv := rfl
@[simp] theorem State.setPeBuf_sync (n : Nat) (p : PeBuf) : (s.setPeBuf n p).sync = s.sync := rfl
@[simp] theorem State.setPeBuf_cmds (n : Nat) (p : PeBuf) : (s.setPeBuf n p).cmds = s.cmds := rfl
@[simp] theorem State.setPeBuf_sched (n : Nat) (p : PeBuf) : (s.setPeBuf n p).sched = s.sched := rfl
@[simp] theorem State.setPeBuf_sectors (n : Nat) (p : PeBuf) : (s.setPeBuf n p).sectors = s.sectors := rfl
@[simp] theorem State.setPeBuf_mem (n : Nat) (p : PeBuf) : (s.setPeBuf n p).mem = s.mem := rfl
@[simp] theorem State.setPeBuf_chord (n : Nat) (p : PeBuf) : (s.setPeBuf n p).chord = s.chord := rfl
@[simp] theorem State.setPeBuf_sense (n : Nat) (p : PeBuf) : (s.setPeBuf n p).sense = { s.sense with pe := tput s.sense.pe n p } := rfl
@[simp] theorem State.setPeBuf_safety (n : Nat) (p : PeBuf) : (s.setPeBuf n p).safety = s.safety := rfl
@[simp] theorem State.setPeBuf_host (n : Nat) (p : PeBuf) : (s.setPeBuf n p).host = s.host := rfl
@[simp] theorem State.setPeBuf_plant (n : Nat) (p : PeBuf) : (s.setPeBuf n p).plant = s.plant := rfl

/-! ## modHub -/

@[simp] theorem State.modHub_pending (n : Nat) (g : HubBoot → HubBoot) : (s.modHub n g).pending = s.pending := rfl
@[simp] theorem State.modHub_now (n : Nat) (g : HubBoot → HubBoot) : (s.modHub n g).now = s.now := rfl
@[simp] theorem State.modHub_id (n : Nat) (g : HubBoot → HubBoot) : (s.modHub n g).id = s.id := rfl
@[simp] theorem State.modHub_free (n : Nat) (g : HubBoot → HubBoot) : (s.modHub n g).free = s.free := rfl
@[simp] theorem State.modHub_dev (n : Nat) (g : HubBoot → HubBoot) : (s.modHub n g).dev = s.dev := rfl
@[simp] theorem State.modHub_work (n : Nat) (g : HubBoot → HubBoot) : (s.modHub n g).work = s.work := rfl
@[simp] theorem State.modHub_kv (n : Nat) (g : HubBoot → HubBoot) : (s.modHub n g).kv = s.kv := rfl
@[simp] theorem State.modHub_sync (n : Nat) (g : HubBoot → HubBoot) : (s.modHub n g).sync = s.sync := rfl
@[simp] theorem State.modHub_cmds (n : Nat) (g : HubBoot → HubBoot) : (s.modHub n g).cmds = s.cmds := rfl
@[simp] theorem State.modHub_sched (n : Nat) (g : HubBoot → HubBoot) : (s.modHub n g).sched = s.sched := rfl
@[simp] theorem State.modHub_sectors (n : Nat) (g : HubBoot → HubBoot) : (s.modHub n g).sectors = s.sectors := rfl
@[simp] theorem State.modHub_mem (n : Nat) (g : HubBoot → HubBoot) : (s.modHub n g).mem = s.mem := rfl
@[simp] theorem State.modHub_chord (n : Nat) (g : HubBoot → HubBoot) : (s.modHub n g).chord = s.chord := rfl
@[simp] theorem State.modHub_sense (n : Nat) (g : HubBoot → HubBoot) : (s.modHub n g).sense = s.sense := rfl
@[simp] theorem State.modHub_safety (n : Nat) (g : HubBoot → HubBoot) : (s.modHub n g).safety = s.safety := rfl
@[simp] theorem State.modHub_host (n : Nat) (g : HubBoot → HubBoot) : (s.modHub n g).host = s.host := rfl
@[simp] theorem State.modHub_plant (n : Nat) (g : HubBoot → HubBoot) : (s.modHub n g).plant = { s.plant with hubs := lmod s.plant.hubs n g } := rfl

/-! ## setKeySlot -/

@[simp] theorem State.setKeySlot_pending (n : Nat) (k : KeySlot) : (s.setKeySlot n k).pending = s.pending := rfl
@[simp] theorem State.setKeySlot_now (n : Nat) (k : KeySlot) : (s.setKeySlot n k).now = s.now := rfl
@[simp] theorem State.setKeySlot_id (n : Nat) (k : KeySlot) : (s.setKeySlot n k).id = s.id := rfl
@[simp] theorem State.setKeySlot_free (n : Nat) (k : KeySlot) : (s.setKeySlot n k).free = s.free := rfl
@[simp] theorem State.setKeySlot_dev (n : Nat) (k : KeySlot) : (s.setKeySlot n k).dev = s.dev := rfl
@[simp] theorem State.setKeySlot_work (n : Nat) (k : KeySlot) : (s.setKeySlot n k).work = s.work := rfl
@[simp] theorem State.setKeySlot_kv (n : Nat) (k : KeySlot) : (s.setKeySlot n k).kv = s.kv := rfl
@[simp] theorem State.setKeySlot_sync (n : Nat) (k : KeySlot) : (s.setKeySlot n k).sync = s.sync := rfl
@[simp] theorem State.setKeySlot_cmds (n : Nat) (k : KeySlot) : (s.setKeySlot n k).cmds = s.cmds := rfl
@[simp] theorem State.setKeySlot_sched (n : Nat) (k : KeySlot) : (s.setKeySlot n k).sched = s.sched := rfl
@[simp] theorem State.setKeySlot_sectors (n : Nat) (k : KeySlot) : (s.setKeySlot n k).sectors = s.sectors := rfl
@[simp] theorem State.setKeySlot_mem (n : Nat) (k : KeySlot) : (s.setKeySlot n k).mem = s.mem := rfl
@[simp] theorem State.setKeySlot_chord (n : Nat) (k : KeySlot) : (s.setKeySlot n k).chord = s.chord := rfl
@[simp] theorem State.setKeySlot_sense (n : Nat) (k : KeySlot) : (s.setKeySlot n k).sense = s.sense := rfl
@[simp] theorem State.setKeySlot_safety (n : Nat) (k : KeySlot) : (s.setKeySlot n k).safety = s.safety := rfl
@[simp] theorem State.setKeySlot_host (n : Nat) (k : KeySlot) : (s.setKeySlot n k).host = s.host := rfl
@[simp] theorem State.setKeySlot_plant (n : Nat) (k : KeySlot) : (s.setKeySlot n k).plant = { s.plant with keys := tput s.plant.keys n k } := rfl

/-! ## setSpot -/

@[simp] theorem State.setSpot_pending (k : Nat) (x : Spot) : (s.setSpot k x).pending = s.pending := rfl
@[simp] theorem State.setSpot_now (k : Nat) (x : Spot) : (s.setSpot k x).now = s.now := rfl
@[simp] theorem State.setSpot_id (k : Nat) (x : Spot) : (s.setSpot k x).id = s.id := rfl
@[simp] theorem State.setSpot_free (k : Nat) (x : Spot) : (s.setSpot k x).free = s.free := rfl
@[simp] theorem State.setSpot_dev (k : Nat) (x : Spot) : (s.setSpot k x).dev = s.dev := rfl
@[simp] theorem State.setSpot_work (k : Nat) (x : Spot) : (s.setSpot k x).work = s.work := rfl
@[simp] theorem State.setSpot_kv (k : Nat) (x : Spot) : (s.setSpot k x).kv = s.kv := rfl
@[simp] theorem State.setSpot_sync (k : Nat) (x : Spot) : (s.setSpot k x).sync = s.sync := rfl
@[simp] theorem State.setSpot_cmds (k : Nat) (x : Spot) : (s.setSpot k x).cmds = s.cmds := rfl
@[simp] theorem State.setSpot_sched (k : Nat) (x : Spot) : (s.setSpot k x).sched = s.sched := rfl
@[simp] theorem State.setSpot_sectors (k : Nat) (x : Spot) : (s.setSpot k x).sectors = s.sectors := rfl
@[simp] theorem State.setSpot_mem (k : Nat) (x : Spot) : (s.setSpot k x).mem = s.mem := rfl
@[simp] theorem State.setSpot_chord (k : Nat) (x : Spot) : (s.setSpot k x).chord = s.chord := rfl
@[simp] theorem State.setSpot_sense (k : Nat) (x : Spot) : (s.setSpot k x).sense = s.sense := rfl
@[simp] theorem State.setSpot_safety (k : Nat) (x : Spot) : (s.setSpot k x).safety = s.safety := rfl
@[simp] theorem State.setSpot_host (k : Nat) (x : Spot) : (s.setSpot k x).host = s.host := rfl
@[simp] theorem State.setSpot_plant (k : Nat) (x : Spot) : (s.setSpot k x).plant = { s.plant with spots := tput s.plant.spots k x } := rfl

/-! ## unitTook -/

@[simp] theorem unitTook_pending (u key : Nat) : (unitTook s u key).pending = s.pending := rfl
@[simp] theorem unitTook_now (u key : Nat) : (unitTook s u key).now = s.now := rfl
@[simp] theorem unitTook_id (u key : Nat) : (unitTook s u key).id = s.id := rfl
@[simp] theorem unitTook_free (u key : Nat) : (unitTook s u key).free = s.free := rfl
@[simp] theorem unitTook_dev (u key : Nat) : (unitTook s u key).dev = s.dev := rfl
@[simp] theorem unitTook_work (u key : Nat) : (unitTook s u key).work = s.work := rfl
@[simp] theorem unitTook_kv (u key : Nat) : (unitTook s u key).kv = s.kv := rfl
@[simp] theorem unitTook_sync (u key : Nat) : (unitTook s u key).sync = { s.sync with order := tput s.sync.order u (s.now, key + 1) } := rfl
@[simp] theorem unitTook_cmds (u key : Nat) : (unitTook s u key).cmds = s.cmds := rfl
@[simp] theorem unitTook_sched (u key : Nat) : (unitTook s u key).sched = s.sched := rfl
@[simp] theorem unitTook_sectors (u key : Nat) : (unitTook s u key).sectors = s.sectors := rfl
@[simp] theorem unitTook_mem (u key : Nat) : (unitTook s u key).mem = s.mem := rfl
@[simp] theorem unitTook_chord (u key : Nat) : (unitTook s u key).chord = s.chord := rfl
@[simp] theorem unitTook_sense (u key : Nat) : (unitTook s u key).sense = s.sense := rfl
@[simp] theorem unitTook_safety (u key : Nat) : (unitTook s u key).safety = s.safety := rfl
@[simp] theorem unitTook_host (u key : Nat) : (unitTook s u key).host = s.host := rfl
@[simp] theorem unitTook_plant (u key : Nat) : (unitTook s u key).plant = s.plant := rfl

/-! ## keepMask -/

@[simp] theorem keepMask_pending (port bits : Nat) : (keepMask s port bits).pending = s.pending := rfl
@[simp] theorem keepMask_now (port bits : Nat) : (keepMask s port bits).now = s.now := rfl
@[simp] theorem keepMask_id (port bits : Nat) : (keepMask s port bits).id = s.id := rfl
@[simp] theorem keepMask_free (port bits : Nat) : (keepMask s port bits).free = s.free := rfl
@[simp] theorem keepMask_dev (port bits : Nat) : (keepMask s port bits).dev = s.dev := rfl
@[simp] theorem keepMask_work (port bits : Nat) : (keepMask s port bits).work = s.work := rfl
@[simp] theorem keepMask_kv (port bits : Nat) : (keepMask s port bits).kv = s.kv := rfl
@[simp] theorem keepMask_sync (port bits : Nat) : (keepMask s port bits).sync = s.sync := rfl
@[simp] theorem keepMask_cmds (port bits : Nat) : (keepMask s port bits).cmds = s.cmds := rfl
@[simp] theorem keepMask_sched (port bits : Nat) : (keepMask s port bits).sched = s.sched := rfl
@[simp] theorem keepMask_sectors (port bits : Nat) : (keepMask s port bits).sectors = s.sectors := rfl
@[simp] theorem keepMask_mem (port bits : Nat) : (keepMask s port bits).mem = s.mem := rfl
@[simp] theorem keepMask_chord (port bits : Nat) : (keepMask s port bits).chord = { s.chord with masks := tput s.chord.masks port bits } := rfl
@[simp] theorem keepMask_sense (port bits : Nat) : (keepMask s port bits).sense = s.sense := rfl
@[simp] theorem keepMask_safety (port bits : Nat) : (keepMask s port bits).safety = s.safety := rfl
@[simp] theorem keepMask_host (port bits : Nat) : (keepMask s port bits).host = s.host := rfl
@[simp] theorem keepMask_plant (port bits : Nat) : (keepMask s port bits).plant = s.plant := rfl

/-! ## assertGrst -/

@[simp] theorem assertGrst_pending : (assertGrst s).pending = s.pending := rfl
@[simp] theorem assertGrst_now : (assertGrst s).now = s.now := rfl
@[simp] theorem assertGrst_id : (assertGrst s).id = s.id := rfl
@[simp] theorem assertGrst_free : (assertGrst s).free = s.free := rfl
@[simp] theorem assertGrst_dev : (assertGrst s).dev = { s.dev with grst := true, lowAt := tput s.dev.lowAt 6 s.now } := rfl
@[simp] theorem assertGrst_work : (assertGrst s).work = s.work := rfl
@[simp] theorem assertGrst_kv : (assertGrst s).kv = s.kv := rfl
@[simp] theorem assertGrst_sync : (assertGrst s).sync = s.sync := rfl
@[simp] theorem assertGrst_cmds : (assertGrst s).cmds = s.cmds := rfl
@[simp] theorem assertGrst_sched : (assertGrst s).sched = s.sched := rfl
@[simp] theorem assertGrst_sectors : (assertGrst s).sectors = s.sectors := rfl
@[simp] theorem assertGrst_mem : (assertGrst s).mem = s.mem := rfl
@[simp] theorem assertGrst_chord : (assertGrst s).chord = s.chord := rfl
@[simp] theorem assertGrst_sense : (assertGrst s).sense = s.sense := rfl
@[simp] theorem assertGrst_safety : (assertGrst s).safety = s.safety := rfl
@[simp] theorem assertGrst_host : (assertGrst s).host = s.host := rfl
@[simp] theorem assertGrst_plant : (assertGrst s).plant = s.plant := rfl

/-! ## Reading back -/

theorem facet_setFacet (f g : Nat) (x : Facet) : (s.setFacet f x).facet g = if f = g then x else s.facet g := tget_tput _ _ _ _ _

@[simp] theorem facet_setFacet_same (f : Nat) (x : Facet) : (s.setFacet f x).facet f = x := tget_tput_same _ _ _ _

theorem facet_setFacet_ne {f g : Nat} (x : Facet) (h : f ≠ g) : (s.setFacet f x).facet g = s.facet g := tget_tput_ne _ _ _ h

@[simp] theorem facet_modFacet_same (f : Nat) (g : Facet → Facet) : (s.modFacet f g).facet f = g (s.facet f) := tget_tput_same _ _ _ _

theorem facet_modFacet_ne {f h : Nat} (g : Facet → Facet) (hf : f ≠ h) : (s.modFacet f g).facet h = s.facet h := tget_tput_ne _ _ _ hf

@[simp] theorem num_setNum_same (i sub v : Nat) : (s.setNum i sub v).num i sub = v := tget_tput_same _ _ _ _

theorem num_setNum_ne {i sub j t : Nat} (v : Nat) (h : i * 256 + sub ≠ j * 256 + t) : (s.setNum i sub v).num j t = s.num j t :=
  tget_tput_ne _ _ _ h

@[simp] theorem octs_setOcts_same (i sub : Nat) (v : List Byte) : (s.setOcts i sub v).octs i sub = v := tget_tput_same _ _ _ _

@[simp] theorem slot_setSlot_same (i : Nat) (x : Slot) : (s.setSlot i x).slot i = x := tget_tput_same _ _ _ _

theorem slot_setSlot_ne {i j : Nat} (x : Slot) (h : i ≠ j) : (s.setSlot i x).slot j = s.slot j := tget_tput_ne _ _ _ h

@[simp] theorem sec_setSec_same (n : Nat) (x : Sector) : (s.setSec n x).sec n = x := tget_tput_same _ _ _ _

theorem sec_setSec_ne {n m : Nat} (x : Sector) (h : n ≠ m) : (s.setSec n x).sec m = s.sec m := tget_tput_ne _ _ _ h

@[simp] theorem pool_setPool_same (n : Nat) (p : Pool) : (s.setPool n p).pool n = some p := by
  simp [State.pool, tfind_tput]

@[simp] theorem vobj_setVobj_same (k : Nat) (x : VObj) : (s.setVobj k x).vobj k = x := tget_tput_same _ _ _ _

@[simp] theorem bar_setBar_same (k : Nat) (x : Barrier) : (s.setBar k x).bar k = x := tget_tput_same _ _ _ _

@[simp] theorem bank_setBank_same (k : Nat) (b : Bank) : (s.setBank k b).bank k = b := tget_tput_same _ _ _ _

@[simp] theorem link_setLink_same (l : Nat) (x : Link) : (s.setLink l x).link l = x := tget_tput_same _ _ _ _

@[simp] theorem scrub_setScrub_same (k : Nat) (x : Scrub) : (s.setScrub k x).scrub k = x := tget_tput_same _ _ _ _

@[simp] theorem win_setWin_same (k : Nat) (w : Window) : (s.setWin k w).win k = w := tget_tput_same _ _ _ _

end Sys2Proof.Machine
end

