-- ==== Sys2Proof/WellFormed.lean ====
section
/-! DEFINITION. Commands that can be put to the block at all: identifiers that exist (R8, R9), handles of 32 bits (R213), bytes of
the length that the interface carries. A command that is not well formed names something that the block does not have; its
meaning then has no effect or is rejected by the checks of its rule. -/

namespace Sys2Proof

/-- A Facet identifier names one of the 288 sites (R8, R9). -/
def siteOk (f : Nat) : Bool := decide (f < 512) && decide (f % 128 < 72)

/-- A handle is a 32-bit word other than all ones (R213). -/
def handleOk (h : Nat) : Bool := decide (h < 0xFFFFFFFF)

/-- A schedule-table index (R231). -/
def entryOk (e : Nat) : Bool := decide (e < 1024)

/-- A window exists: 256 core windows of a hub, 64 host windows (R203). -/
def winOk : WinRef → Bool
  | .core _ n => decide (n < 256)
  | .host _ n => decide (n < 64)

/-- A flit is 256 bytes (R324). -/
def flitOk (b : List Byte) : Bool := b.length == 256

/-- A command names only what exists. -/
def WellFormed : Instr → Bool
  | .sequencerInstruction f => siteOk f
  | .fxstatRead f _ => siteOk f
  | .fxtimeRead f _ => siteOk f
  | .ecall f => siteOk f
  | .stepComplete f => siteOk f
  | .carryWriteComplete f => siteOk f
  | .lxDld f _ _ => siteOk f
  | .lxDst f _ _ => siteOk f
  | .lxDbase f _ _ => siteOk f
  | .lxWld f _ => siteOk f
  | .lxMm f _ _ _ => siteOk f
  | .lxDg f _ _ _ => siteOk f
  | .lxCvt f _ _ _ => siteOk f
  | .lxAcz f _ _ => siteOk f
  | .wnMax f _ _ _ => siteOk f
  | .wnAvg f _ _ _ => siteOk f
  | .vxAdd f _ _ _ => siteOk f
  | .vxSub f _ _ _ => siteOk f
  | .vxMul f _ _ _ => siteOk f
  | .vxMax f _ _ _ => siteOk f
  | .vxMin f _ _ _ => siteOk f
  | .vxCvt f _ _ => siteOk f
  | .vxRelu f _ _ => siteOk f
  | .vxExp2 f _ _ => siteOk f
  | .vxRcp f _ _ => siteOk f
  | .vxRsq f _ _ => siteOk f
  | .vxAdds f _ _ _ => siteOk f
  | .vxMuls f _ _ _ => siteOk f
  | .vxRsum f _ _ => siteOk f
  | .vxRmax f _ _ => siteOk f
  | .vxAld f _ _ => siteOk f
  | .vxAacc f _ _ => siteOk f
  | .dmGet f _ _ _ => siteOk f
  | .dmPut f _ _ _ => siteOk f
  | .dmWait f _ => siteOk f
  | .dmKv f _ _ _ => siteOk f
  | .msSend f _ => siteOk f
  | .msRecv f _ => siteOk f
  | .msPoll f _ => siteOk f
  | .msAck f => siteOk f
  | .vtPostInsn f _ _ _ => siteOk f
  | .vtSetInsn f _ _ _ => siteOk f
  | .vtRead f _ _ => siteOk f
  | .vtWatchInsn f _ _ => siteOk f
  | .vtBar f _ _ => siteOk f
  | .entryDue e => entryOk e
  | .entryRelease e => entryOk e
  | .replayRelease e _ => entryOk e
  | .releaseWindowClose e => entryOk e
  | .budgetExpiry f => siteOk f
  | .stageWindowClose e _ => entryOk e
  | .referenceFigureRun f out _ => siteOk f && out.all fun p => decide (p.1 < 131072)
  | .selfTestSlotStart e => entryOk e
  | .selfTestSlotEnd e => entryOk e
  | .rotationCopyComplete f => siteOk f
  | .replayBoundExpiry e _ => entryOk e
  | .cmdNop h => handleOk h
  | .cmdFence h => handleOk h
  | .windowControlWrite w _ _ => winOk w
  | .handleRetire w _ _ => winOk w
  | .secCreate h => handleOk h
  | .secDestroy h => handleOk h
  | .secReset h => handleOk h
  | .secInval h => handleOk h
  | .secDirtyStart h => handleOk h
  | .secDirtyHarvest h => handleOk h
  | .secDirtyStop h => handleOk h
  | .imgLoad h => handleOk h
  | .imgUnload h => handleOk h
  | .kvPoolCreate h => handleOk h
  | .kvPoolDestroy h => handleOk h
  | .kvAlloc h => handleOk h
  | .kvMap h => handleOk h
  | .kvFree h => handleOk h
  | .kvSeqOpen h => handleOk h
  | .kvSeqClose h => handleOk h
  | .kvSeqCloseFree h => handleOk h
  | .kvSeqSetGlobals h => handleOk h
  | .vtAlloc h => handleOk h
  | .vtFree h => handleOk h
  | .vtFreeUnitApply h _ => handleOk h
  | .vtPost h => handleOk h
  | .vtSet h => handleOk h
  | .vtWatch h => handleOk h
  | .vtUnwatch h => handleOk h
  | .apxCreate h => handleOk h
  | .apxDestroy h => handleOk h
  | .apxArrive h => handleOk h
  | .schTrigger h => handleOk h
  | .schEnable h => handleOk h
  | .intProbe h => handleOk h
  | .strSet h => handleOk h
  | .strTx h => handleOk h
  | .peLift h => handleOk h
  | .peVoxel h => handleOk h
  | .asSolve h => handleOk h
  | .updVerify h => handleOk h
  | .updWrite h _ => handleOk h
  | .attReport h => handleOk h
  | .flitReceive _ _ flit => flitOk flit
  | .fwd h => handleOk h
  | .debugHalt f => siteOk f
  | .debugLocalStoreWrite f _ _ => siteOk f
  | .droopDetect f => siteOk f
  | .engineCommandComplete h _ => handleOk h
  | .windowControlRead w _ => winOk w
  | .droopRecovery f => siteOk f
  | _ => true

end Sys2Proof
end

