-- ==== Sys2Proof/Tests/Slice0.lean ====
section
/-! SUPPORT. Tests and witnesses. The smoke tests refuse an ill-formed term for each check of `WellFormed`. The tests of meaning take
their expected values from the worked examples of spec/, or from FIPS 202 and the GCM specification for one message each, and from nowhere else. The theorems
named `witness_<Obligation>_<clause>` show, for each clause with hypotheses of a statement in Certificates/Slice0/Obligations.lean, one
concrete state and operands that meet them all together; nothing here is a statement for the provers. -/

namespace Sys2Proof.Tests

open Sys2Proof Sys2Proof.Machine Sys2Proof.Safety

set_option Elab.async false

/-! ## Ill-formed commands are refused -/

/-- A site number past 71 is no site (R8, R9). -/
theorem test_wf_site : WellFormed (.lxMm 72 3 10 11) = false := by decide

/-- An identifier of ten bits names nothing (R8). -/
theorem test_wf_identifier : WellFormed (.vxAdd 512 1 2 3) = false := by decide

/-- All ones is no handle (R213). -/
theorem test_wf_handle : WellFormed (.cmdFence 0xFFFFFFFF) = false := by decide

/-- The schedule table has 1,024 entries (R231). -/
theorem test_wf_entry : WellFormed (.entryDue 1024) = false := by decide

/-- A hub has 256 core windows (R203). -/
theorem test_wf_core_window : WellFormed (.windowControlWrite (.core 0 256) 0 0) = false := by decide

/-- A hub has 64 host windows (R203). -/
theorem test_wf_host_window : WellFormed (.windowControlRead (.host 1 64) 0) = false := by decide

/-- A flit of 255 bytes is none (R324). -/
theorem test_wf_flit : WellFormed (.flitReceive 0 0 (List.replicate 255 0)) = false := by decide +kernel

/-- P2:F37, whose identifier is 293 (00_scope.md, the example of R9), is well formed, in row 4 and column 1. -/
theorem test_wf_good : WellFormed (.lxMm 293 3 10 11) = true ∧ 293 = 2 * 128 + 37 ∧ 293 % 128 / 9 = 4 ∧ 293 % 128 % 9 = 1 := by decide

/-! ## Worked examples of the spec -/

/-- Conversions to FP8 E4M3 (03_lattice_arithmetic.md, the example under R82): 300.0. -/
theorem test_fp8_nearest : encNum 6 (.fin false 300 0) = { code := 0x79, sat := false, nan := false } := by decide

/-- The same: 272.0, a tie that goes to even. -/
theorem test_fp8_tie : encNum 6 (.fin false 272 0) = { code := 0x78, sat := false, nan := false } := by decide

/-- The same: 470.0 saturates and counts. -/
theorem test_fp8_saturates : encNum 6 (.fin false 470 0) = { code := 0x7E, sat := true, nan := false } := by decide

/-- The same: 0.0029296875 = 3 · 2^-10, between two subnormals. -/
theorem test_fp8_subnormal : encNum 6 (.fin false 3 (-10)) = { code := 0x02, sat := false, nan := false } := by decide

/-- The same: 0.0009765625 = 2^-10 becomes +0 and does not count. -/
theorem test_fp8_to_zero : encNum 6 (.fin false 1 (-10)) = { code := 0x00, sat := false, nan := false } := by decide

/-- The same: E4M3 has no infinity. -/
theorem test_fp8_infinity : encNum 6 (.inf true) = { code := 0xFE, sat := true, nan := false } := by decide

/-- The BF16 column of the example under R87: 1 + 2^-24 + 2^-24 in row order, each addition rounded to FP32. -/
theorem test_row_order : toFp32 (rne32 ((rne32 (Num.one.add (.fin false 1 (-24)))).add (.fin false 1 (-24)))) = 0x3F800000 := by decide

/-- The average pool of the example under R117, with `div` 0 and 1. -/
theorem test_average : (windowAvg 1 9 [.ofInt 7, .ofInt 1, .ofInt (-2), .ofInt 4]).code = 1 ∧
    (windowAvg 1 4 [.ofInt 7, .ofInt 1, .ofInt (-2), .ofInt 4]).code = 2 := by decide

/-- The assignment of the example under R382. -/
theorem test_assignment : solveBytes (assign [[5, 5], [5, 5], [0xFFFF, 3]] [0, 1]) = [0, 0, 0xFF, 0xFF, 1, 0, 2, 0] := by decide

/-- The request header of the example under R458. -/
theorem test_axbel_request : (axUnit 0x0011 0x0123 0x2802 0 0 []).take 12 = [0x11, 0, 0x23, 1, 2, 0x28, 0, 0, 0, 0, 0, 0] := by
  decide +kernel

/-- Its response at tick 901. -/
theorem test_axbel_response : (axUnit 0x0111 0x0123 0x2802 0 0 (toBytes 8 901)).take 20 =
    [0x11, 1, 0x23, 1, 2, 0x28, 0, 0, 8, 0, 0, 0, 0x85, 3, 0, 0, 0, 0, 0, 0] := by decide +kernel

/-- The word of `lx.mm d3, x10, x11` (02_facet_core.md, the example under R74): opcode 0b000_1011, funct3 0b010, funct7 0. -/
theorem test_word_lx_mm : custom0 0b0000000_01011_01010_010_00011_0001011 = some (execLxMm · 3 10 11) ∧
    0b0000000_01011_01010_010_00011_0001011 = 0x00B5218B := ⟨rfl, rfl⟩

/-- The descriptor of the example under R54: a 64 by 96 by 24 INT8 map at 0x10_0000, whose footprint ends at 0x12_3FFF. -/
theorem test_footprint :
    let r := BitVec.ofNat 256 (pack [(0, 22, 0x100000), (32, 16, 64), (48, 16, 96), (64, 16, 24), (80, 16, 1), (96, 24, 1), (120, 24, 64),
      (144, 24, 6144), (192, 16, 0xFFFF), (208, 16, 0xFFFF), (224, 4, 1)])
    descOk r = true ∧ (tensorOf r).span = (0x100000, 0x123FFF) := by decide +kernel

/-- The DRAM offset of the example under R279. -/
theorem test_dram_decode :
    stackOf 0x98C3A5F40 = 2 ∧ dramRow 0x98C3A5F40 = 6339 ∧ dramPc 0x98C3A5F40 = 28 ∧ dramBank 0x98C3A5F40 = 18 := by decide +kernel

/-- SHAKE256 of the empty message (FIPS 202). -/
theorem test_shake256_empty : shake256 [] =
    [0x46, 0xb9, 0xdd, 0x2b, 0x0b, 0xa8, 0x8d, 0x13, 0x23, 0x3b, 0x3f, 0xeb, 0x74, 0x3e, 0xeb, 0x24,
     0x3f, 0xcd, 0x52, 0xea, 0x62, 0xb8, 0x1b, 0x82, 0xb5, 0x0c, 0x27, 0x64, 0x6e, 0xd5, 0x76, 0x2f] := by decide +kernel

/-- The sealed form of one zero block under a zero key and nonce (R457; test case 14 of the GCM specification). -/
theorem test_gcm_zero_block : gcmSeal (toBytes 32 0) (toBytes 12 0) [] (toBytes 16 0) =
    [0xce, 0xa7, 0x40, 0x3d, 0x4d, 0x60, 0x6b, 0x6e, 0x07, 0x4e, 0xc5, 0xd3, 0xba, 0xf3, 0x9d, 0x18,
     0xd0, 0xd1, 0xc8, 0xa7, 0x99, 0x99, 0x6b, 0xf0, 0x26, 0x5b, 0x98, 0xb5, 0xd4, 0x8a, 0xb9, 0x19] := by decide +kernel
/-! ## Witnesses of the statements -/

/-- A descriptor of `n` elements in a row. -/
def tDesc (fmt base n : Nat) : BitVec 256 :=
  BitVec.ofNat 256 (pack [(0, 22, base), (32, 16, n), (48, 16, 1), (64, 16, 1), (80, 16, 1), (96, 24, 1), (120, 24, 1), (192, 16, 0xFFFF),
    (208, 16, 0xFFFF), (224, 4, fmt)])

/-- The step of entry 0 in tick 1 on home 0. -/
def tStep : Step :=
  { entry := 0, tick := 1, home := 0, checker := false, paired := false, replay := false, trial := false, release := 0, budget := 1, view := none }

/-- A Facet that runs: INT8 tensors in d0-d3, FP32 ones in d4-d6, BF16 ones in d7-d9, and in x1-x3 the addresses 0x1000, 0x2000, 0x300. -/
def tFacet : Facet :=
  { Facet.empty with
    run := .running, placed := true, step := some tStep
    x := [0, 0x1000, 0x2000, 0x3000, 1, 0x7FFFFFFF, 0x80000000, 0xFFFFFFFF] ++ List.replicate 24 0
    d := [some (tDesc 1 0x1000 1), some (tDesc 1 0x1040 1), some (tDesc 1 0x1080 1), some (tDesc 4 0x10C0 1), some (tDesc 0xA 0x1100 1),
          some (tDesc 0xA 0x1140 1), some (tDesc 0xA 0x1180 1), some (tDesc 9 0x11C0 1), some (tDesc 9 0x1200 1)] ++ List.replicate 7 none }

/-- The device in a state, from reset. -/
def tDev (d : DevState) : State := { State.reset with dev := { State.reset.dev with st := d } }

/-- A device with every die out of reset and both hubs past their boot, in a state and a boot phase. -/
def tUp (d : DevState) (ph : Nat) : State :=
  ({ tDev d with dev := { (tDev d).dev with pwrgd := true, rstin := false, prst := List.replicate 4 false, mrst := List.replicate 4 false, grst := false } }.modHub 0
    fun x => { x with phase := ph, svn := 5 }).modHub 1 fun x => { x with phase := ph, svn := 5 }

/-- The same device with the four stacks trained and link 12 up. -/
def tTrained (d : DevState) (ph : Nat) : State :=
  [0, 1, 2, 3].foldl (fun a n => a.setNum 0x3400 n 1) ((tUp d ph).setLink 12 { up := true, due := false, window := 0, retries := 0 })

/-- An OPERATIONAL device whose site 0 holds a Facet. -/
def tSite (x : Facet) : State := (tDev .operational).setFacet 0 x

/-- The tensor of a descriptor register of `tFacet`. -/
def tTensor (r : Nat) : Tensor := tensorOf ((lget tFacet.d r none).getD 0)

/-- A sector record: handles 0-4095, granules 0-3, tables at 0x1000, every pool, windows, barriers, the homes of die 0, ten objects
and ten watches in every unit. -/
def tRecord : BitVec 1536 :=
  BitVec.ofNat 1536 (pack ([(32, 16, 0xFFFF), (76, 13, 4096), (104, 9, 256), (128, 9, 256), (144, 36, 0x1000), (256, 4, 0xF), (512, 72, 2 ^ 72 - 1),
    (992, 8, 10), (1024, 4, 8), (1028, 4, 8)] ++ (List.range 6).flatMap fun u => [(800 + 16 * u, 16, 10), (896 + 16 * u, 16, 10)]))

/-- Sector 0 ACTIVE under `tRecord`, with the first 1 GiB of its space mapped to DRAM offset 0, readable and writable. -/
def tMap (s : State) : State :=
  { s.setSec 0 { st := .active, gen := 0, record := tRecord, dirtyOn := false, drain := none, timedOut := false, resume := 0 } with
    mem := { s.mem with dram := [(0x1000, 1), (0x1001, 0x20), (0x2000, 0xF)] } }

/-- A descriptor of 32 INT8 elements with scales. -/
def tScaled : BitVec 256 := BitVec.ofNat 256 ((tDesc 1 0x1000 32).toNat - 0xFFFF * 2 ^ 192 + 0x100 * 2 ^ 192)

/-- A view of one row of one token, on page 0. -/
def tView : View :=
  { id := 7, home := 0, entry := 0, tick := 1, latch := 0, rows := [{ seq := 0, klen := 1, qlen := 1, win := 0, sel := [], pages := [(0, 0)] }],
    pins := [0], area := 0, bytes := [] }

/-- A pool of four pages of one head of 32 INT8 elements, that holds `tView`; page 0 is in it. -/
def tPool : Pool :=
  { since := 0, sector := 0, pages := 4, seqs := 2, heads := 1, dim := 32, fmt := 1, sfmt := 0, bases := [0], caddr := 0x8000, area := [],
    page := [(0, { st := .live, maps := 0, pins := 0 })], pushed := [], fresh := 1, seq := [], held := [], freeing := [], views := [tView] }

/-- A message that has arrived on the die of its destination. -/
def tMsg : Msg :=
  { id := 3, seat := 0, pc := 0, src := 1, dest := 0, cls := 0, len := 56, seq := 0, bytes := List.replicate 56 5, poison := false, away := false, sector := 0, gen := 0,
    origin := .barrier }

/-- A device with Facets on sites 0 and 1 of one sector and messages. -/
def tMail (ms : List Msg) : State := let s := (tMap (tSite (lsWrite tFacet 0x2005 [1]))).setFacet 1 { tFacet with home := 1 }
  { s with work := { s.work with tasks := [(0, { sector := 0, home := 0, decl := 0, slices := [], bind := none, initial := true })] },
           sync := { s.sync with msgs := ms } }

/-- A Vertex operation on its way from site 0. -/
def tVop (rsp : Option (Nat × Nat)) : Vop :=
  { tag := 9, pc := 0, op := 1, key := 0, unit := 1, ref := 0x20001000, value := 1, watch := 0, site := 0, rd := 5, home := 0, sector := 0, gen := 0, ix := 0, lix := 0,
    rsp := rsp }

/-- A device with that operation, which register x5 of site 0 awaits. -/
def tVops (rsp : Option (Nat × Nat)) : State :=
  let s := tSite { tFacet with waits := [(5, 9)] }
  { s with sync := { s.sync with vops := [tVop rsp] } }

/-- A Facet whose program region of 1 KiB at address 0 begins with a word. -/
def tCode (w : Nat) : Facet := lsPuts { tFacet with prog := 2 ^ 22 } 0 (toBytes 4 w)

/-- An entry of one task, home 0, released at the start of every tick, with a budget of 50 us, a release window of 100 us and a stage window of 500 us. -/
def tEntry : BitVec 256 :=
  BitVec.ofNat 256 (pack [(0, 1, 1), (96, 16, 50), (112, 16, 100), (144, 16, 500)])

/-- An OPERATIONAL device at the start of tick 1, with that entry, occurrences, and on sites 0 and 1 Facets that wait for work. -/
def tSched (os : List Occ) (ns : Nat) : State :=
  let s := (tMap (tSite { tFacet with run := .idle, step := none })).setFacet 1 { tFacet with run := .idle, step := none, home := 1 }
  { s with now := 1000000 + ns,
           sched := { s.sched with entries := [(0, { raw := tEntry, en := true, change := [], armed := none })], first := some 1, closed := 1, tick := 1, occs := os } }

/-- The occurrence of the entry in tick 1. -/
def tOcc : Occ := { newOcc (tSched [] 0) 0 1 .waiting none with paired := false }

/-- The same occurrence with its replay ordered. -/
def tReplay : Occ := { tOcc with st := .replayOrdered, tasks := tOcc.tasks.map fun t => { t with replay := true } }

/-- A slot of sector 0 that holds a started command. -/
def tSlot (code body : Nat) : Slot :=
  { Slot.never with st := .inflight, code := code, body := BitVec.ofNat 384 body, cmd := .started }

/-- A state with that slot as slot 5, which handle 5 names. -/
def tCmd (s : State) (code body : Nat) : State := s.setSlot 5 (tSlot code body)

/-- A self-test entry of a millisecond slot on die 0 with two sites. -/
def tTest : SchEntry := { raw := BitVec.ofNat 256 (pack [(96, 16, 900), (160, 4, 2), (196, 2, 2)]), en := true, change := [], armed := none }

/-- The device of `tSched` at a tick start with that entry. -/
def tTests : State := let s := tSched [] 0
  { s with sched := { s.sched with entries := [(0, tTest)] } }

/-- A device whose core window 255 of Hub E is open on context 4 of sector 0, with a response in it. -/
def tWin : State :=
  (tMap (tDev .operational)).setWin 767 { isOpen := true, ovf := true, sector := 0, ctx := 4, hub := 1, fifo := [(0, 9)], last := 9 }

/-- The record of a second sector beside the root record: pid 2, handles 64-79, granule 1. -/
def tSecond : BitVec 1536 := BitVec.ofNat 1536 (pack [(0, 20, 2), (64, 12, 64), (76, 13, 16), (144, 36, 2 ^ 28), (257, 1, 1)])

/-- A sector with a record, in a state. -/
def tSector (st : SecSt) (rec' : BitVec 1536) (drain : Option (Nat × Nat × Bool)) : Sector :=
  { st := st, gen := 0, record := rec', dirtyOn := true, drain := drain, timedOut := false, resume := 0 }

/-- The root sector and sector 1 with `tSecond`. -/
def tSectors (st : SecSt) (drain : Option (Nat × Nat × Bool)) : State :=
  ((tDev .operational).setSec 0 (tSector .active rootRecord none)).setSec 1 (tSector st tSecond drain)

/-- The body of an image: a directory of a task and a Prism section, the task of home 0, and the Prism's line. -/
def tImgBody : List Byte :=
  let task := toBytes 32 (pack [(32, 22, 0x1000), (64, 22, 0x1000), (86, 10, 1), (96, 22, 0x2000), (160, 22, 0x3000), (128, 22, 0x3100)])
  let line := toBytes 64 (pack [(0, 64, 0x100000), (64, 64, 4096)])
  let dir (kind arg off : Nat) (b : List Byte) : List Byte := toBytes 32 (pack [(0, 16, kind), (32, 32, arg), (64, 64, off), (128, 64, b.length), (224, 32, crc32c b)])
  dir 1 1 128 task ++ dir 7 0 192 line ++ task ++ List.replicate 32 0 ++ line

/-- An image of one task, with its header's check and its digest, the SHAKE256 of the body as FIPS 202 gives it. -/
def tImage : List Byte :=
  let h := toBytes 20 (pack [(0, 32, 0x4950584B), (32, 16, 0x3280), (48, 16, 1), (144, 16, 2)])
  let r := toBytes 8 256 ++ toBytes 32 0x47bfa13bd1bafd2dd8cf122d1e50510a79e00b65097befe2bef194e917cee809
  h ++ toBytes 4 (crc32c (h ++ toBytes 4 0 ++ r)) ++ r ++ tImgBody

/-- A sector with that image in DRAM, and a slot whose buffer is mapped to it. -/
def tImgState : State :=
  let s := (tMap (tDev .config)).setLink 4 { up := true, due := false, window := 0, retries := 0 }
  { s with mem := { s.mem with dram := s.mem.dram ++ (tImage.zipIdx.map fun p => (0x10000 + p.2, p.1)).filter fun c => c.2 != 0 } }

/-- The command that loads it. -/
def tImgSlot : Slot := { tSlot 0x50 (0x10000 * 2 ^ 320) with pages := [(0x10000, 0x10000)] }

/-- A device with a live object of Hub W's unit, which reference 0x80001000 names, at a value. -/
def tObj (v : Word) : State := (tMap (tDev .operational)).setVobj 16384 { st := .live, gen := 1, value := v, owner := 0, sector := 0 }

/-- A watch on that object for a value of at least 5. -/
def tWatch (h : Option Nat) : Watch :=
  { id := 2, unit := 4, ref := 0x80001000, cond := 0, cmp := 5, cookie := 0, dkind := 0, dest := 0, sector := 0, site := none, handle := h, wake := none }

/-- A device with that object and that watch. -/
def tWatched (v : Word) (h : Option Nat) : State := let s := tObj v
  { s with sync := { s.sync with watches := [tWatch h] } }

/-- A device with device barrier 0 of Hub W, generation 1, which one external arrival completes. -/
def tBar : State := (tMap (tDev .operational)).setBar 256 { Barrier.never with live := true, gen := 1, nx := 1 }

/-- A started `VT_FREE` of one object. -/
def tFree (cmd : CmdSt) : Slot := { tSlot 0x71 (2 ^ 24) with input := toBytes 4 0x80001000, cmd := cmd }

/-- A line request of site 0. -/
def tReq (write : Bool) : LineReq :=
  { tag := 8, write := write, site := 0, op := 7, ch := 0, off := 0x4C0, data := List.replicate 64 9, mask := BitVec.allOnes 64, poison := false, ls := [],
    master := 15, die := 0, carry := false, sector := 0, gen := 0, accepted := false }

/-- A device with line requests, and what a read of tag 8 has returned. -/
def tReqs (l : List LineReq) : State := let s := tMap (tSite tFacet)
  { s with dev := { s.dev with mrst := List.replicate 4 false }, mem := { s.mem with reqs := l, returned := [(8, List.replicate 64 3, false)] } }

/-- A device whose guest runs over link 13 and may read and write the first page through window 0. -/
def tGuest : State :=
  let s := ((tMap (tDev .operational)).setLink 13 { up := true, due := false, window := 0, retries := 0 }).setOcts 0x4810 0
    (toBytes 16 (pack [(24, 1, 1), (32, 25, 1), (64, 2, 3), (66, 2, 3)]))
  { s with dev := { s.dev with grst := false, mrst := List.replicate 4 false } }.modHub 1 fun x => { x with phase := 4 }

/-- A line request of the guest. -/
def tLine (line : Nat) : GuestLine := { sseat := 6, sector := 0, gen := 0, tag := 0, line := line, poison := false, data := List.replicate 64 1 }

/-- That device with guest event line 63 bound to a live object. -/
def tEvt : State := ((tGuest.setLink 12 { Link.fresh with up := true }).setVobj 16384 { st := .live, gen := 1, value := 0, owner := 0, sector := 0 }).setNum 0x4C30 63 0x80001000

/-- A queue of a read and a later write of one source to the same line, in pseudo-channel 0 of stack 0. -/
def tQueue : List QReq :=
  [{ no := 1, off := 0, write := false, master := 15, cls := 1, source := 0, time := 0 }, { no := 2, off := 0, write := true, master := 0, cls := 1, source := 0, time := 0 }]

/-- A device with that queue. -/
def tCtl : State := { (tDev .operational).setQueue 0 tQueue with dev := { (tDev .operational).dev with mrst := List.replicate 4 false } }

/-- A flit: kinds, sequence, acknowledgement of 4095, its first slot and its check. -/
def tFlit (kind q slot : Nat) : List Byte :=
  let b := toBytes 8 (kind + q * 2 ^ 36 + 4095 * 2 ^ 52) ++ toBytes 10 slot ++ List.replicate 230 0
  b ++ toBytes 8 (crc64 b)

/-- A device with link 11 up and both its directions started. -/
def tLink (d : LinkDir) : State :=
  (((tDev .operational).setLink 11 { up := true, due := false, window := 0, retries := 0 }).modDir 11 0 fun _ => d).modDir 11 1 fun _ => d

/-- A stream entry on port 15, channel 15: two slots of one line of 64 bytes, with a timeout of 100 us. -/
def tStr : Nat :=
  pack [(0, 1, 1), (58, 4, 15), (62, 4, 15), (66, 6, 0x2A), (92, 4, 1), (96, 16, 64), (112, 16, 1), (128, 16, 1), (144, 16, 100), (192, 64, 0x100000)]

/-- A device whose port 15 is on and trained, with that entry as entry 127. -/
def tStream : State := (((tMap (tTrained .operational 4)).setNum 0x2000 15 1).setNum 0x2010 15 1).setOcts 0x2100 127 (toBytes 32 tStr)

/-- An open frame of that entry. -/
def tFrame : Frame :=
  { raw := tStr, pages := [0x100000], tfs := 0, fseq := 0, fnum := 0, line := 0, wrote := 0, ncrc := 0, fbad := 0, flags := 0, tfe := 0, old := false }

/-- The device with that frame open. -/
def tFrames : State := { tStream with sense := { tStream.sense with frames := [(127, tFrame)] } }

/-- A long packet of the entry's channel and type. -/
def tPacket (ok : Bool) : LongPacket := { vc := 15, dt := 0x2A, bytes := List.replicate 64 1, hdrOk := ok, crcOk := true }

/-- A binding record of sector 0, its five areas in mapped space, an inverse scale of one. -/
def tBind : List Byte :=
  toBytes 128 (pack ([(0, 1, 1), (432, 32, 0x3F800000), (464, 32, 0x3F800000), (496, 32, 0x3F800000)] ++
    (List.range 5).map fun i => (528 + 48 * i, 48, 0x100000 + 0x10000 * i)))

/-- A gate list of one entry, all gates open for a cycle of 1,000 ns. -/
def tGates : List Byte := toBytes 8 0 ++ toBytes 4 1000 ++ toBytes 4 1 ++ toBytes 4 0xFF ++ toBytes 4 1000

/-- A device whose transmit queue 7 of Hub W is enabled with one owned slot at 0x1000. -/
def tQueues : State :=
  let s := (tDev .operational).setOcts 0x4C17 7 (toBytes 16 (2 ^ 8 + 0x1000 * 2 ^ 32))
  { s with mem := { s.mem with sram := [(0x1000, 1)] } }

/-- A device whose CAN controller 11 is enabled with one owned transmit slot. -/
def tCan : State :=
  let s := (tDev .operational).setOcts 0x4C20 11 (toBytes 32 (2 ^ 8))
  { s with mem := { s.mem with sram := [(0x2000000 + 0x100000 + 0x60000 * 5, 1)] } }

/-- The configuration of bridge 31: a stream, open for 10 us. -/
def tBridge : State := { (tDev .operational).setOcts 0x4C21 31 (toBytes 8 77 ++ toBytes 9 0 ++ [1] ++ toBytes 2 10) with now := 10000 }

/-- A frame of stream 77 without a payload, in NTSCF, past its addresses. -/
def tStreamFrame : List Byte := [0x22, 0xF0, 0x82, 0, 0, 0] ++ toBytesBE 8 77

/-- A device whose filter 127 takes stream 77 and frames of one byte at most. -/
def tFilter : State := (tDev .operational).setOcts 0x4C12 127 (toBytes 8 77 ++ [0, 0, 0, 1] ++ toBytes 2 1 ++ [0, 0])

/-- A device whose transmit port 3 has taken a configuration that is on. -/
def tPort : State := { tDev .operational with sense := { State.reset.sense with txPorts := [(3, 1)] } }

/-- A device whose Hub E reaches stack 0 and whose entry 127 has a closed frame. -/
def tClosed (raw : Nat) : State := let s := tStream.setLink 8 { Link.fresh with up := true }
  { s with sense := { s.sense with closing := [(127, { tFrame with raw := raw })] } }

/-- A device that has verified an image of 3,309 zero bytes: the SHAKE256 of the first 128, as Python's hashlib gives it. -/
def tStaged : State := (tDev .operational).setOcts 0x4803 0 (toBytes 32 0xBACBF3D203748741C896AAF12D12C1F9D248E574457EAAE1567C48D3964B8622)

/-- A device whose scopes read as a function of the index says. -/
def tScopes (s : State) (l : List Nat) : State :=
  { s with dev := { s.dev with scopes := l.map fun k => { st := k, since := 0, ready := false } } }

/-- A rail that has read badly, a trip and its two hot sensors, on a device at a time. -/
def tHot (now : Nat) : State :=
  let x := (State.reset.spot 0)
  { (tDev .operational).setSpot 0 { x with a := 2000, b := 2000 } with
    now := now, plant := { ((tDev .operational).setSpot 0 { x with a := 2000, b := 2000 }).plant with railBad := [(7, 0)], trips := [(0, 0)] } }

/-- A coolant loop in a device at a time. -/
def tLoop (c : Coolant) (now : Nat) : State := { tDev .operational with now := now, dev := { (tDev .operational).dev with rstin := false }, plant := { State.reset.plant with coolant := c } }

/-- A loop whose thermal flow and pulses have differed since time 0. -/
def tDiffers : State := let s := tLoop { Coolant.fresh with disagree := some 0, history := [(10000000000, 0, 16)] } 10000000000
  setPower s 6 { diePower s 6 with recent := [1000000] }

/-- A write of two keys on its way. -/
def tTwoK : TwoK :=
  { id := 3, hub := 0, index := 0x4000, sub := 0, value := 1, stamp := 0, session := none, seq := 0, signW := none, signE := some true, pending := none, status := 0 }

/-- A device with that write. -/
def tKeys (d : DevState) : State := { tTrained d 4 with host := { State.reset.host with twoK := [tTwoK] } }

/-- A session of Hub W over I3C with an unread unit. -/
def tSession : Session := { hub := 0, number := 0, udp := none, kept := [], busy := [], used := 0, unread := [[1, 2, 3]] }

/-- A device whose Hub W has a dynamic address on the I3C bus. -/
def tI3c : State := (tTrained .operational 4).modTarget 0 fun x => { x with addr := 9 }

/-- A device with a key in slot 14. -/
def tKeyed : State := (tTrained .operational 4).setKeySlot 14 { KeySlot.empty with installed := true, mask := 7, key := List.replicate 32 1, tx := 1 }

/-- A request to read entry 0x1000. -/
def tUnit : List Byte := axUnit 0x11 1 0x1000 0 0 []

/-- That request sealed under that key. -/
def tDatagram : List Byte := datagram 14 (tKeyed.keySlot 14) tUnit

theorem witness_LatticeInstructions_1 : ∃ (s : State) (f : Nat) (rd : BitVec 5) (rs1 : BitVec 5),
    let x := s.facet f
    let a := (getX x rs1.toNat).toNat
    let r := BitVec.ofNat 256 (ofBytes (lsRead x a 32))
    dReg rd = true ∧ issues s f [rs1.toNat] [(a, 32)] ∧ lsAligned a 32 = true ∧ lsBadIn x a 32 = false ∧ descOk r = true :=
  ⟨tSite (lsWrite tFacet 0x2000 (toBytes 32 (tDesc 1 0x1000 1).toNat)), 0, 15, 2, by decide⟩

theorem witness_LatticeInstructions_2 : ∃ (s : State) (f : Nat) (rs1 : BitVec 5) (rs2 : BitVec 5) (r : BitVec 256),
    let x := s.facet f
    let a := (getX x rs1.toNat).toNat
    dReg rs2 = true ∧ issues s f [rs1.toNat] [(a, 32)] ∧ lget x.d rs2.toNat none = some r ∧ lsAligned a 32 = true ∧ inProtected x a 32 = false :=
  ⟨tSite tFacet, 0, 2, 0, tDesc 1 0x1000 1, by decide⟩

theorem witness_LatticeInstructions_3 : ∃ (s : State) (f : Nat) (rd : BitVec 5) (rs1 : BitVec 5) (r : BitVec 256) (r' : BitVec 256) (b : Nat),
    let x := s.facet f
    dReg rd = true ∧ issues s f [rs1.toNat] [] ∧ lget x.d rd.toNat none = some r ∧ (b : Int) = (fld r 0 22 : Nat) + (getX x rs1.toNat).toInt ∧
    b < 2 ^ 22 ∧ r' = BitVec.ofNat 256 (r.toNat - fld r 0 22 + b) ∧ descOk r' = true :=
  ⟨tSite { tFacet with x := lset tFacet.x 9 0x1000 }, 0, 0, 9, tDesc 1 0x1000 1, tDesc 1 0x2000 1, 0x2000, by decide⟩

theorem witness_LatticeInstructions_4 : ∃ (s : State) (f : Nat) (rs1 : BitVec 5) (t : Tensor) (ch : List Nat) (p : Nat) (w : Nat),
    let x := s.facet f
    dReg rs1 = true ∧ issues s f [] (wldFeet x rs1.toNat) ∧ descAt x rs1.toNat = some t ∧ wldFits t = true ∧ wldMap x t = some (ch, p, w) ∧
    wldBad x t ch w = false :=
  ⟨tSite tFacet, 0, 0, tTensor 0, [], 0, 0, by decide⟩

theorem witness_LatticeInstructions_5 : ∃ (s : State) (f : Nat) (rs1 : BitVec 5) (rs2 : BitVec 5),
    let x := s.facet f
    let r := (getX x rs1.toNat).toNat
    let n := (getX x rs2.toNat).toNat
    issues s f [rs1.toNat, rs2.toNat] [] ∧ (n = 0 ∨ r + n ≤ 2048) :=
  ⟨tSite { tFacet with x := lset tFacet.x 9 2047 }, 0, 9, 4, by decide⟩

theorem witness_LatticeInstructions_6 : ∃ (s : State) (f : Nat) (rd : BitVec 5) (rs1 : BitVec 5) (rs2 : BitVec 5) (t : Tensor),
    let x := s.facet f
    let tap := getX x rs1.toNat
    let c := ctlOf (getX x rs2.toNat)
    dReg rd = true ∧ issues s f [rs1.toNat, rs2.toNat] (mmFeet x rd.toNat) ∧ descAt x rd.toNat = some t ∧ fld tap 24 8 = 0 ∧
    mmFits x t x.tile = true ∧ c.row + c.m ≤ 2048 ∧ mmBad x t x.tile tap c = false :=
  ⟨tSite { tFacet with tile := loadedTile tFacet (tTensor 1) [] 0 }, 0, 0, 10, 11, tTensor 0, by decide⟩

theorem witness_LatticeInstructions_7 : ∃ (s : State) (f : Nat) (rd : BitVec 5) (rs1 : BitVec 5) (rs2 : BitVec 5) (t : Tensor) (w : Tensor),
    let x := s.facet f
    let c := ctlOf (getX x rs2.toNat)
    let g := getX x (rs2.toNat + 1)
    dReg rd = true ∧ dReg rs1 = true ∧ rs2.getLsbD 0 = false ∧ issues s f [rs2.toNat, rs2.toNat + 1] (feet x [rd.toNat, rs1.toNat]) ∧
    descAt x rd.toNat = some t ∧ descAt x rs1.toNat = some w ∧ dgFits t w c = true ∧ c.row + c.m ≤ 2048 ∧ dgBad x t w g c = false :=
  ⟨tSite tFacet, 0, 0, 1, 10, tTensor 0, tTensor 1, by decide⟩

theorem witness_LatticeInstructions_8 : ∃ (s : State) (f : Nat) (rd : BitVec 5) (rs1 : BitVec 5) (rs2 : BitVec 5) (t : Tensor),
    let x := s.facet f
    let c := ctlOf (getX x rs1.toNat)
    let a := (getX x rs2.toNat).toNat
    let r := BitVec.ofNat 256 (ofBytes (lsRead x a 32))
    dReg rd = true ∧ issues s f [rs1.toNat, rs2.toNat] (cvtFeet x rd.toNat rs2.toNat) ∧ descAt x rd.toNat = some t ∧ c.acc = false ∧
    lsAligned a 32 = true ∧ stageParams r t.fmt = true ∧ stageFits t c = true ∧ c.row + c.m ≤ 2048 ∧ inProtected x t.foot.1 t.foot.2 = false ∧
    stageBad x t c a r = false :=
  ⟨tSite (lsWrite tFacet 0x2000 (toBytes 32 (0xFFFFFFFF * 2 ^ 224))), 0, 0, 10, 2, tTensor 0, by decide⟩

theorem witness_LatticeInstructions_9 : ∃ (s : State) (f : Nat) (rd : BitVec 5) (rs1 : BitVec 5) (rs2 : BitVec 5) (o : Tensor) (t : Tensor) (avg : Bool),
    let x := s.facet f
    let w := getX x rs2.toNat
    dReg rd = true ∧ dReg rs1 = true ∧ issues s f [rs2.toNat] (feet x [rd.toNat, rs1.toNat]) ∧ descAt x rd.toNat = some o ∧
    descAt x rs1.toNat = some t ∧ poolWord avg w o t = true ∧ poolFits o t = true ∧ inProtected x o.foot.1 o.foot.2 = false ∧ poolBad x w o t = false :=
  ⟨tSite tFacet, 0, 0, 1, 10, tTensor 0, tTensor 1, false, by decide⟩

theorem witness_StepRunsFrontCommand_2 : ∃ (s : State),
    s.pending = [] ∧ s.dev.st ≠ .off :=
  ⟨tDev .boot, by decide⟩

theorem witness_StepRunsFrontCommand_3 : ∃ (s : State),
    s.pending = [] ∧ s.dev.st = .off :=
  ⟨State.reset, by decide⟩

theorem witness_StepTakesOnlyTheFrontCommand_1 : ∃ (c : Instr) (q : List Instr) (s : State) (t : State),
    step (s.withPending (c :: q)) = .next t :=
  ⟨.rstinNDeassert, [.tachPulse], State.reset, { (State.reset.withPending [.tachPulse]) with dev := { State.reset.dev with rstin := false } }, rfl⟩

theorem witness_StepKeepsStoresCanonical_1 : ∃ (s : State) (t : State),
    storesCanonical s = true ∧ step s = .next t :=
  ⟨{ State.reset with pending := [.rstinNDeassert], mem := { State.reset.mem with dram := [(5, 7)] } }, { State.reset with dev := { State.reset.dev with rstin := false }, mem := { State.reset.mem with dram := [(5, 7)] } }, rfl, rfl⟩

theorem witness_OperationBeginsAtATickBoundary_1 : ∃ (c : Instr) (s : State) (t : State),
    c ≠ .tickBoundary ∧ settled s = s ∧ s.operating = false ∧ exec c s = .next t :=
  ⟨.rstinNDeassert, State.reset, { State.reset with dev := { State.reset.dev with rstin := false } }, by decide, rfl, rfl, rfl⟩

theorem witness_OperationBeginsAtATickBoundary_2 : ∃ (c : Instr) (s : State) (t : State),
    s.atBoundary = false ∧ s.operating = false ∧ exec c s = .next t :=
  ⟨.rstinNDeassert, { State.reset with now := 1 }, { { State.reset with now := 1 } with dev := { State.reset.dev with rstin := false } }, by decide, rfl, rfl⟩

theorem witness_OnlyPowerMovesTimeBack_1 : ∃ (c : Instr) (s : State) (t : State),
    exec c s = .next t :=
  ⟨.rstinNDeassert, State.reset, { State.reset with dev := { State.reset.dev with rstin := false } }, rfl⟩

theorem witness_IntegerProductWords_1 : ∃ (t : Tensor) (tl : Tile),
    mmInt t tl = true :=
  ⟨tTensor 0, loadedTile tFacet (tTensor 1) [] 0, by decide⟩

theorem witness_VectorInstructions_1 : ∃ (s : State) (f : Nat) (rd : BitVec 5) (rs1 : BitVec 5) (rs2 : BitVec 5) (d : Tensor) (a : Tensor) (b : Tensor) (c : Instr × VOp),
    let x := s.facet f
    c ∈ [(.vxAdd f rd rs1 rs2, .add), (.vxSub f rd rs1 rs2, .sub), (.vxMul f rd rs1 rs2, .mul), (.vxMax f rd rs1 rs2, .max), (.vxMin f rd rs1 rs2, .min)] ∧
    dReg rd = true ∧ dReg rs1 = true ∧ dReg rs2 = true ∧ issues s f [] (feet x [rd.toNat, rs1.toNat, rs2.toNat]) ∧ descAt x rd.toNat = some d ∧
    descAt x rs1.toNat = some a ∧ descAt x rs2.toNat = some b ∧ vec2Fits d a b = true ∧ inProtected x d.foot.1 d.foot.2 = false ∧
    tensorBad x a = false ∧ tensorBad x b = false :=
  ⟨tSite tFacet, 0, 0, 1, 2, tTensor 0, tTensor 1, tTensor 2, (.vxMin 0 0 1 2, .min), by decide⟩

theorem witness_VectorInstructions_2 : ∃ (s : State) (f : Nat) (rd : BitVec 5) (rs1 : BitVec 5) (rs2 : BitVec 5) (d : Tensor) (a : Tensor) (c : Instr × VOp),
    let x := s.facet f
    c ∈ [(.vxAdds f rd rs1 rs2, .add), (.vxMuls f rd rs1 rs2, .mul)] ∧ dReg rd = true ∧ dReg rs1 = true ∧
    issues s f [rs2.toNat] (feet x [rd.toNat, rs1.toNat]) ∧ descAt x rd.toNat = some d ∧ descAt x rs1.toNat = some a ∧ vec1Fits d a = true ∧
    inProtected x d.foot.1 d.foot.2 = false ∧ tensorBad x a = false :=
  ⟨tSite tFacet, 0, 0, 1, 7, tTensor 0, tTensor 1, (.vxMuls 0 0 1 7, .mul), by decide⟩

theorem witness_VectorInstructions_3a : ∃ (s : State) (f : Nat) (rd : BitVec 5) (rs1 : BitVec 5) (d : Tensor) (a : Tensor) (c : Instr × VOp),
    let x := s.facet f
    c ∈ [(.vxRelu f rd rs1, .relu), (.vxExp2 f rd rs1, .exp2), (.vxRcp f rd rs1, .rcp), (.vxRsq f rd rs1, .rsq)] ∧ dReg rd = true ∧ dReg rs1 = true ∧
    issues s f [] (feet x [rd.toNat, rs1.toNat]) ∧ descAt x rd.toNat = some d ∧ descAt x rs1.toNat = some a ∧ vec1Fits d a = true ∧
    (c.2 = .relu ∨ isInt d.fmt = false) ∧ inProtected x d.foot.1 d.foot.2 = false ∧ tensorBad x a = false :=
  ⟨tSite tFacet, 0, 4, 5, tTensor 4, tTensor 5, (.vxRsq 0 4 5, .rsq), by decide⟩

theorem witness_VectorInstructions_3b : ∃ (s : State) (f : Nat) (rd : BitVec 5) (rs1 : BitVec 5) (d : Tensor) (a : Tensor) (c : Instr × VOp),
    let x := s.facet f
    c ∈ [(.vxRelu f rd rs1, .relu), (.vxExp2 f rd rs1, .exp2), (.vxRcp f rd rs1, .rcp), (.vxRsq f rd rs1, .rsq)] ∧ dReg rd = true ∧ dReg rs1 = true ∧
    issues s f [] (feet x [rd.toNat, rs1.toNat]) ∧ descAt x rd.toNat = some d ∧ descAt x rs1.toNat = some a ∧ vec1Fits d a = true ∧
    (c.2 = .relu ∨ isInt d.fmt = false) ∧ inProtected x d.foot.1 d.foot.2 = false ∧ tensorBad x a = false :=
  ⟨tSite tFacet, 0, 0, 1, tTensor 0, tTensor 1, (.vxRelu 0 0 1, .relu), by decide⟩

theorem witness_VectorInstructions_4 : ∃ (s : State) (f : Nat) (rd : BitVec 5) (rs1 : BitVec 5) (d : Tensor) (a : Tensor),
    let x := s.facet f
    dReg rd = true ∧ dReg rs1 = true ∧ issues s f [] (feet x [rd.toNat, rs1.toNat]) ∧ descAt x rd.toNat = some d ∧ descAt x rs1.toNat = some a ∧
    cvtVecFits d a = true ∧ inProtected x d.foot.1 d.foot.2 = false ∧ (d.scaled = true → inProtected x (64 * d.sref) d.scaleBytes = false) ∧
    tensorBad x a = false :=
  ⟨tSite tFacet, 0, 0, 4, tTensor 0, tTensor 4, by decide⟩

theorem witness_VectorInstructions_5 : ∃ (s : State) (f : Nat) (rd : BitVec 5) (rs1 : BitVec 5) (d : Tensor) (a : Tensor),
    let x := s.facet f
    dReg rd = true ∧ dReg rs1 = true ∧ issues s f [] (feet x [rd.toNat, rs1.toNat]) ∧ descAt x rd.toNat = some d ∧ descAt x rs1.toNat = some a ∧
    reduceFits d a = true ∧ inProtected x d.foot.1 d.foot.2 = false ∧ tensorBad x a = false :=
  ⟨tSite tFacet, 0, 4, 5, tTensor 4, tTensor 5, by decide⟩

theorem witness_VectorInstructions_6 : ∃ (s : State) (f : Nat) (rd : BitVec 5) (rs1 : BitVec 5) (t : Tensor),
    let x := s.facet f
    let c := ctlOf (getX x rs1.toNat)
    dReg rd = true ∧ issues s f [rs1.toNat] (feet x [rd.toNat]) ∧ descAt x rd.toNat = some t ∧ c.acc = false ∧ accShape t c = true ∧
    c.row + c.m ≤ 2048 ∧ inProtected x t.foot.1 t.foot.2 = false ∧ accBad x c = false :=
  ⟨tSite tFacet, 0, 3, 10, tTensor 3, by decide⟩

theorem witness_VectorInstructions_7 : ∃ (s : State) (f : Nat) (rd : BitVec 5) (rs1 : BitVec 5) (t : Tensor),
    let x := s.facet f
    let c := ctlOf (getX x rs1.toNat)
    dReg rd = true ∧ issues s f [rs1.toNat] (feet x [rd.toNat]) ∧ descAt x rd.toNat = some t ∧ accShape t c = true ∧ c.row + c.m ≤ 2048 ∧
    tensorBad x t = false ∧ accBad x c = false :=
  ⟨tSite tFacet, 0, 3, 10, tTensor 3, by decide⟩

theorem witness_MoverInstructions_1a : ∃ (s : State) (f : Nat) (rd : BitVec 5) (rs1 : BitVec 5) (t : Tensor) (put : Bool),
    let x := s.facet f
    let a := (getX x rs1.toNat).toNat
    let r := BitVec.ofNat 256 (ofBytes (lsRead x a 32))
    dReg rd = true ∧ issues s f [rs1.toNat] ((a, 32) :: feet x [rd.toNat]) ∧ x.ops.length < 32 ∧ descAt x rd.toNat = some t ∧ refsOk t = true ∧
    t.scaleFits = true ∧ farOk t a r = true ∧
    (put = false → inProtected x t.foot.1 t.foot.2 = false ∧ (t.scaled = true → inProtected x (64 * t.sref) t.scaleBytes = false)) ∧
    moverFault s f (moverLines s x put (farPairs t r)) = none :=
  ⟨tMap (tSite tFacet), 0, 0, 2, tTensor 0, false, by decide +kernel⟩

theorem witness_MoverInstructions_1b : ∃ (s : State) (f : Nat) (rd : BitVec 5) (rs1 : BitVec 5) (t : Tensor) (put : Bool),
    let x := s.facet f
    let a := (getX x rs1.toNat).toNat
    let r := BitVec.ofNat 256 (ofBytes (lsRead x a 32))
    dReg rd = true ∧ issues s f [rs1.toNat] ((a, 32) :: feet x [rd.toNat]) ∧ x.ops.length < 32 ∧ descAt x rd.toNat = some t ∧ refsOk t = true ∧
    t.scaleFits = true ∧ farOk t a r = true ∧
    (put = false → inProtected x t.foot.1 t.foot.2 = false ∧ (t.scaled = true → inProtected x (64 * t.sref) t.scaleBytes = false)) ∧
    moverFault s f (moverLines s x put (farPairs t r)) = none :=
  ⟨tMap (tSite tFacet), 0, 0, 2, tTensor 0, true, by decide +kernel⟩

theorem witness_MoverInstructions_2 : ∃ (s : State) (f : Nat) (rd : BitVec 5) (rs1 : BitVec 5) (t : Tensor) (p : Pool) (v : View),
    let x := s.facet f
    let a := (getX x rs1.toNat).toNat
    let r := BitVec.ofNat 256 (ofBytes (lsRead x a 32))
    let put := r.getLsbD 1
    dReg rd = true ∧ issues s f [rs1.toNat] ((a, 32) :: feet x [rd.toNat]) ∧ x.ops.length < 32 ∧ descAt x rd.toNat = some t ∧
    kvView s x = some (p, v) ∧ kvTensorOk p t = true ∧ kvRecOk p v t a r = true ∧
    (put = false → inProtected x t.foot.1 t.foot.2 = false ∧ inProtected x (64 * t.sref) t.scaleBytes = false) ∧
    (∀ i < t.ext 1, (kvPage v r i).isSome = true) ∧ moverFault s f (moverLines s x put (kvAll p v t r)) = none :=
  ⟨{ tMap (tSite { tFacet with d := lset tFacet.d 0 (some tScaled), step := some { tStep with view := some 7 } }) with kv := [(3, tPool)] }, 0, 0, 2, tensorOf tScaled, tPool, tView, by decide +kernel⟩

theorem witness_MoverInstructions_3 : ∃ (s : State) (f : Nat) (rs1 : BitVec 5),
    let m := getX (s.facet f) rs1.toNat
    issues s f [rs1.toNat] [] ∧ fld m 16 16 = 0 ∧ (∀ o ∈ (s.facet f).ops, o.write = true → m.getLsbD o.ch = false) :=
  ⟨tSite { tFacet with ops := [{ id := 1, ch := 2, write := true, lo := 0, hi := 1, tags := [4], pc := 0 }] }, 0, 4, by decide⟩

theorem witness_MessageInstructions_1a : ∃ (s : State) (f : Nat) (rs1 : BitVec 5) (st : Step),
    let x := s.facet f
    let a := (getX x rs1.toNat).toNat
    x.step = some st ∧ issues s f [rs1.toNat] [(a, 64)] ∧ lsAligned a 64 = true ∧ sendOk s x a = true ∧ st.checker = true :=
  ⟨(tMail []).setFacet 0 { lsWrite tFacet 0x2005 [1] with step := some { tStep with checker := true } }, 0, 2, { tStep with checker := true }, by decide⟩

theorem witness_MessageInstructions_1b : ∃ (s : State) (f : Nat) (rs1 : BitVec 5) (st : Step),
    let x := s.facet f
    let a := (getX x rs1.toNat).toNat
    x.step = some st ∧ issues s f [rs1.toNat] [(a, 64)] ∧ lsAligned a 64 = true ∧ sendOk s x a = true ∧ st.checker = false ∧ sendHeld s f = false ∧
    routeUp s (dieOf f) (dieOf (s.siteOf (sendMsg s f a).dest)) = true :=
  ⟨tMail [], 0, 2, tStep, by decide⟩

theorem witness_MessageInstructions_2a : ∃ (s : State) (f : Nat),
    issues s f [] [] ∧ (s.facet f).got ≠ (s.facet f).put :=
  ⟨tSite { tFacet with put := 1 }, 0, by decide⟩

theorem witness_MessageInstructions_2b : ∃ (s : State) (f : Nat),
    issues s f [] [] ∧ (s.facet f).got = (s.facet f).put :=
  ⟨tSite tFacet, 0, by decide⟩

theorem witness_MessageInstructions_3 : ∃ (s : State) (f : Nat),
    issues s f [] [] :=
  ⟨tSite tFacet, 0, by decide⟩

theorem witness_MessageInstructions_4 : ∃ (s : State) (id : Nat) (m : Msg),
    s.sync.msgs.find? (fun m => m.id == id) = some m ∧ m.gen = (s.sec m.sector).gen ∧ devReach s m.seat m.dest = true :=
  ⟨tMail [tMsg], 3, tMsg, by decide⟩

theorem witness_MessageInstructions_5 : ∃ (s : State) (id : Nat) (m : Msg),
    s.sync.msgs.find? (fun m => m.id == id) = some m ∧ m.gen = (s.sec m.sector).gen ∧ depositOk s m = true ∧ heldBack s m = false :=
  ⟨tMail [tMsg], 3, tMsg, by decide⟩

theorem witness_MessageInstructions_6 : ∃ (s : State) (id : Nat) (m : Msg),
    s.sync.msgs.find? (fun m => m.id == id) = some m ∧ m.gen ≠ (s.sec m.sector).gen :=
  ⟨tMail [{ tMsg with gen := 1 }], 3, { tMsg with gen := 1 }, by decide⟩

theorem witness_VertexInstructions_1near1 : ∃ (s : State) (f : Nat) (rd : BitVec 5) (rs1 : BitVec 5) (rs2 : BitVec 5) (st : Step) (c : Instr × Nat),
    let x := s.facet f
    let a := (getX x rs1.toNat).toNat
    let ref := if c.2 = 4 then 0 else a
    let w := if c.2 = 4 then BitVec.ofNat 128 (ofBytes (lsRead x a 16)) else 0
    c ∈ [(.vtPostInsn f rd rs1 rs2, 1), (.vtSetInsn f rd rs1 rs2, 2), (.vtBar f rd rs1, 3), (.vtWatchInsn f rd rs1, 4), (.vtRead f rd rs1, 5)] ∧
    x.step = some st ∧ st.checker = false ∧ st.replay = false ∧ x.log.length < 256 ∧
    (issues s f [rs1.toNat, if c.2 ≤ 2 then rs2.toNat else 0] (if c.2 = 4 then [(a, 16)] else [])) ∧
    (c.2 ≤ 3 → (∀ o ∈ x.ops, o.write = false) ∧ ∀ m ∈ s.sync.msgs, (m.origin == .send f) = false) ∧ (c.2 = 4 → lsAligned a 16 = true) ∧
    vtNear f c.2 ref w = true ∧ (c.2 = 5 → refStatus s x.sector ref = 0) :=
  ⟨{ (tMap (tSite tFacet)).setVobj 0 { st := .live, gen := 1, value := 0, owner := 0, sector := 0 } with now := 0 }, 0, 5, 1, 2, tStep, (.vtPostInsn 0 5 1 2, 1), by decide⟩

theorem witness_VertexInstructions_1near2 : ∃ (s : State) (f : Nat) (rd : BitVec 5) (rs1 : BitVec 5) (rs2 : BitVec 5) (st : Step) (c : Instr × Nat),
    let x := s.facet f
    let a := (getX x rs1.toNat).toNat
    let ref := if c.2 = 4 then 0 else a
    let w := if c.2 = 4 then BitVec.ofNat 128 (ofBytes (lsRead x a 16)) else 0
    c ∈ [(.vtPostInsn f rd rs1 rs2, 1), (.vtSetInsn f rd rs1 rs2, 2), (.vtBar f rd rs1, 3), (.vtWatchInsn f rd rs1, 4), (.vtRead f rd rs1, 5)] ∧
    x.step = some st ∧ st.checker = false ∧ st.replay = false ∧ x.log.length < 256 ∧
    (issues s f [rs1.toNat, if c.2 ≤ 2 then rs2.toNat else 0] (if c.2 = 4 then [(a, 16)] else [])) ∧
    (c.2 ≤ 3 → (∀ o ∈ x.ops, o.write = false) ∧ ∀ m ∈ s.sync.msgs, (m.origin == .send f) = false) ∧ (c.2 = 4 → lsAligned a 16 = true) ∧
    vtNear f c.2 ref w = true ∧ (c.2 = 5 → refStatus s x.sector ref = 0) :=
  ⟨{ (tMap (tSite tFacet)).setVobj 0 { st := .live, gen := 1, value := 0, owner := 0, sector := 0 } with now := 0 }, 0, 5, 1, 2, tStep, (.vtSetInsn 0 5 1 2, 2), by decide⟩

theorem witness_VertexInstructions_1near3 : ∃ (s : State) (f : Nat) (rd : BitVec 5) (rs1 : BitVec 5) (rs2 : BitVec 5) (st : Step) (c : Instr × Nat),
    let x := s.facet f
    let a := (getX x rs1.toNat).toNat
    let ref := if c.2 = 4 then 0 else a
    let w := if c.2 = 4 then BitVec.ofNat 128 (ofBytes (lsRead x a 16)) else 0
    c ∈ [(.vtPostInsn f rd rs1 rs2, 1), (.vtSetInsn f rd rs1 rs2, 2), (.vtBar f rd rs1, 3), (.vtWatchInsn f rd rs1, 4), (.vtRead f rd rs1, 5)] ∧
    x.step = some st ∧ st.checker = false ∧ st.replay = false ∧ x.log.length < 256 ∧
    (issues s f [rs1.toNat, if c.2 ≤ 2 then rs2.toNat else 0] (if c.2 = 4 then [(a, 16)] else [])) ∧
    (c.2 ≤ 3 → (∀ o ∈ x.ops, o.write = false) ∧ ∀ m ∈ s.sync.msgs, (m.origin == .send f) = false) ∧ (c.2 = 4 → lsAligned a 16 = true) ∧
    vtNear f c.2 ref w = true ∧ (c.2 = 5 → refStatus s x.sector ref = 0) :=
  ⟨{ (tMap (tSite tFacet)).setVobj 0 { st := .live, gen := 1, value := 0, owner := 0, sector := 0 } with now := 0 }, 0, 5, 1, 2, tStep, (.vtBar 0 5 1, 3), by decide⟩

theorem witness_VertexInstructions_1near4 : ∃ (s : State) (f : Nat) (rd : BitVec 5) (rs1 : BitVec 5) (rs2 : BitVec 5) (st : Step) (c : Instr × Nat),
    let x := s.facet f
    let a := (getX x rs1.toNat).toNat
    let ref := if c.2 = 4 then 0 else a
    let w := if c.2 = 4 then BitVec.ofNat 128 (ofBytes (lsRead x a 16)) else 0
    c ∈ [(.vtPostInsn f rd rs1 rs2, 1), (.vtSetInsn f rd rs1 rs2, 2), (.vtBar f rd rs1, 3), (.vtWatchInsn f rd rs1, 4), (.vtRead f rd rs1, 5)] ∧
    x.step = some st ∧ st.checker = false ∧ st.replay = false ∧ x.log.length < 256 ∧
    (issues s f [rs1.toNat, if c.2 ≤ 2 then rs2.toNat else 0] (if c.2 = 4 then [(a, 16)] else [])) ∧
    (c.2 ≤ 3 → (∀ o ∈ x.ops, o.write = false) ∧ ∀ m ∈ s.sync.msgs, (m.origin == .send f) = false) ∧ (c.2 = 4 → lsAligned a 16 = true) ∧
    vtNear f c.2 ref w = true ∧ (c.2 = 5 → refStatus s x.sector ref = 0) :=
  ⟨{ (tMap (tSite tFacet)).setVobj 0 { st := .live, gen := 1, value := 0, owner := 0, sector := 0 } with now := 0 }, 0, 5, 1, 2, tStep, (.vtWatchInsn 0 5 1, 4), by decide⟩

theorem witness_VertexInstructions_1near5 : ∃ (s : State) (f : Nat) (rd : BitVec 5) (rs1 : BitVec 5) (rs2 : BitVec 5) (st : Step) (c : Instr × Nat),
    let x := s.facet f
    let a := (getX x rs1.toNat).toNat
    let ref := if c.2 = 4 then 0 else a
    let w := if c.2 = 4 then BitVec.ofNat 128 (ofBytes (lsRead x a 16)) else 0
    c ∈ [(.vtPostInsn f rd rs1 rs2, 1), (.vtSetInsn f rd rs1 rs2, 2), (.vtBar f rd rs1, 3), (.vtWatchInsn f rd rs1, 4), (.vtRead f rd rs1, 5)] ∧
    x.step = some st ∧ st.checker = false ∧ st.replay = false ∧ x.log.length < 256 ∧
    (issues s f [rs1.toNat, if c.2 ≤ 2 then rs2.toNat else 0] (if c.2 = 4 then [(a, 16)] else [])) ∧
    (c.2 ≤ 3 → (∀ o ∈ x.ops, o.write = false) ∧ ∀ m ∈ s.sync.msgs, (m.origin == .send f) = false) ∧ (c.2 = 4 → lsAligned a 16 = true) ∧
    vtNear f c.2 ref w = true ∧ (c.2 = 5 → refStatus s x.sector ref = 0) :=
  ⟨{ (tMap (tSite tFacet)).setVobj 0 { st := .live, gen := 1, value := 0, owner := 0, sector := 0 } with now := 0 }, 0, 5, 1, 2, tStep, (.vtRead 0 5 1, 5), by decide⟩

theorem witness_VertexInstructions_1away : ∃ (s : State) (f : Nat) (rd : BitVec 5) (rs1 : BitVec 5) (rs2 : BitVec 5) (st : Step) (c : Instr × Nat),
    let x := s.facet f
    let a := (getX x rs1.toNat).toNat
    let ref := if c.2 = 4 then 0 else a
    let w := if c.2 = 4 then BitVec.ofNat 128 (ofBytes (lsRead x a 16)) else 0
    c ∈ [(.vtPostInsn f rd rs1 rs2, 1), (.vtSetInsn f rd rs1 rs2, 2), (.vtBar f rd rs1, 3), (.vtWatchInsn f rd rs1, 4), (.vtRead f rd rs1, 5)] ∧
    x.step = some st ∧ st.checker = false ∧ st.replay = false ∧ x.log.length < 256 ∧
    (issues s f [rs1.toNat, if c.2 ≤ 2 then rs2.toNat else 0] (if c.2 = 4 then [(a, 16)] else [])) ∧
    (c.2 ≤ 3 → (∀ o ∈ x.ops, o.write = false) ∧ ∀ m ∈ s.sync.msgs, (m.origin == .send f) = false) ∧ (c.2 = 4 → lsAligned a 16 = true) ∧
    vtNear f c.2 ref w = false ∧ roundTrip s (dieOf f) (vtSeat c.2 ref w) = true :=
  ⟨(tSite { tFacet with x := lset tFacet.x 1 0xA0001000 }).setLink 8 { up := true, due := false, window := 0, retries := 0 }, 0, 5, 1, 2, tStep, (.vtPostInsn 0 5 1 2, 1), by decide⟩

theorem witness_VertexInstructions_2 : ∃ (s : State) (tag : Nat) (v : Vop),
    s.sync.vops.find? (fun v => v.tag == tag && v.rsp == none) = some v ∧ v.gen = (s.sec v.sector).gen ∧ vopBehind s v = false ∧
    unitTakes s v.unit v.home = true ∧ (∃ p ∈ (s.facet v.site).waits, p.2 = tag) :=
  ⟨tVops none, 9, tVop none, by decide⟩

theorem witness_VertexInstructions_3 : ∃ (s : State) (tag : Nat) (st : Nat) (val : Nat) (rd : Nat) (v : Vop),
    s.sync.vops.find? (fun v => v.tag == tag && v.rsp != none) = some v ∧ v.rsp = some (st, val) ∧
    (s.facet v.site).waits.find? (fun p => p.2 == tag) = some (rd, tag) ∧ (v.op = 5 → st = 0) :=
  ⟨tVops (some (0, 3)), 9, 0, 3, 5, tVop (some (0, 3)), by decide⟩

theorem witness_SequencerInstructions_3 : ∃ (s : State) (f : Nat) (w : Nat) (len : Nat),
    issues s f [17] [] ∧ fetch (s.facet f) = .bits w len ∧ ((if len = 2 then expand16 w else some w) = some 0x73) ∧ getX (s.facet f) 17 = 0 :=
  ⟨tSite (tCode 0x73), 0, 0x73, 4, by decide⟩

theorem witness_SequencerInstructions_4 : ∃ (s : State) (f : Nat),
    issues s f [17] [] ∧ getX (s.facet f) 17 = 0 :=
  ⟨tSite tFacet, 0, by decide⟩

theorem witness_SequencerInstructions_5 : ∃ (s : State) (f : Nat),
    issues s f [] [] :=
  ⟨tSite tFacet, 0, by decide⟩

theorem witness_CauseStopsItsStep_1 : ∃ (s : State) (f : Nat) (st : Step),
    (s.facet f).step = some st :=
  ⟨tSite tFacet, 0, tStep, by decide⟩

theorem witness_StepReports_1 : ∃ (s : State) (f : Nat),
    quiet (afterClose s) f = true :=
  ⟨tSite { tFacet with run := .ended }, 0, by decide⟩

theorem witness_StepReports_2 : ∃ (s : State) (f : Nat) (st : Step),
    let b := afterClose s
    let x := b.facet f
    x.step = some st ∧ x.run = .completed ∧ x.cause = none ∧ x.carryTags = [] :=
  ⟨tSite { tFacet with run := .completed }, 0, tStep, by decide⟩

theorem witness_StepReports_3a : ∃ (s : State) (u : Fin 4) (r : BitVec 512),
    let b := if fld r 384 64 < s.now then s else afterClose s
    linkUp s (2 + u.val % 2) = true ∧ (∀ p ∈ b.safety.records, p.1 = u.val → sameCheckpoint p.2 r = false ∧ recPair b p.2 r = false) :=
  ⟨(tSite tFacet).setLink 3 { Link.fresh with up := true }, 3, 0, by decide +kernel⟩

theorem witness_StepReports_3b : ∃ (s : State) (u : Fin 4) (r : BitVec 512) (m : BitVec 512),
    let b := if fld r 384 64 < s.now then s else afterClose s
    linkUp s (2 + u.val % 2) = true ∧ b.safety.records.filter (fun p => p.1 == u.val && (sameCheckpoint p.2 r || recPair b p.2 r)) = [(u.val, m)] ∧
    recChecker m ≠ recChecker r :=
  ⟨{ (tSite tFacet).setLink 3 { Link.fresh with up := true } with safety := { State.reset.safety with records := [(3, 0)] } }, 3, BitVec.ofNat 512 (2 ^ 300), 0, by decide +kernel⟩

theorem witness_StepCompletionKeepsRegisters_1 : ∃ (s : State) (f : Nat) (st : Step),
    (s.facet f).step = some st :=
  ⟨tSite tFacet, 0, tStep, by decide⟩

theorem witness_ScheduleCommands_1 : ∃ (s : State) (e : Nat) (x : SchEntry),
    s.ent e = some x ∧ entKind x.raw = 0 ∧ s.tickNow % s.num 0x2801 0 = entSlot x.raw ∧ s.now = tickStart s s.tickNow + fld x.raw 80 16 * 1000 ∧
    findOcc s e s.tickNow = none ∧ entSpor x.raw = false ∧ armedFor x s.tickNow = none ∧ tickOpened s = true ∧
    (∀ p ∈ s.sched.orphans, p.1 = e → s.now < p.2.2.1) ∧ s.operating = true ∧ entHeld s x.raw = false ∧ x.en = true ∧
    ticks s (entSector x.raw) s.tickNow = true :=
  ⟨tSched [] 0, 0, { raw := tEntry, en := true, change := [], armed := none }, by decide +kernel⟩

theorem witness_ScheduleCommands_2 : ∃ (s : State) (e : Nat) (o : Occ),
    s.sched.occs.find? (fun o => o.entry == e && o.st == .waiting) = some o ∧ canRun s o = true ∧ firstInLine s o = true :=
  ⟨tSched [tOcc] 0, 0, tOcc, by decide +kernel⟩

theorem witness_ScheduleCommands_3 : ∃ (s : State) (e : Nat) (o : Occ),
    s.sched.occs.find? (fun o => o.entry == e && o.st == .waiting && decide (tickStart s o.tick + fld (s.entRaw e) 112 16 * 1000 ≤ s.now)) = some o ∧
    entHeld s (s.entRaw e) = false :=
  ⟨tSched [tOcc] 100000, 0, tOcc, by decide +kernel⟩

theorem witness_ScheduleCommands_4 : ∃ (s : State) (e : Nat) (n : Nat) (o : Occ),
    findOcc s e n = some o ∧ o.st = .replayOrdered ∧ canRun s o = true ∧ firstInLine s o = true :=
  ⟨tSched [tReplay] 0, 0, 1, tReplay, by decide +kernel⟩

theorem witness_ScheduleCommands_5 : ∃ (s : State) (f : Nat) (st : Step),
    let b := afterClose s
    (b.facet f).step = some st ∧ budgetOver b f = true :=
  ⟨{ tSite tFacet with now := 1 }, 0, tStep, by decide⟩

theorem witness_ScheduleCommands_6 : ∃ (s : State) (e : Nat) (n : Nat) (o : Occ),
    findOcc s e n = some o ∧ windowMissed s o = true :=
  ⟨tSched [tOcc] 500000, 0, 1, tOcc, by decide +kernel⟩

theorem witness_ScheduleCommands_7 : ∃ (s : State) (e : Nat) (n : Nat) (o : Occ),
    findOcc s e n = some o ∧ o.st ∈ [OccSt.withheld, .replayOrdered, .replaying] ∧ o.heldAt + 2 * s.tickNs ≤ s.now :=
  ⟨tSched [tReplay] 1000000, 0, 1, tReplay, by decide +kernel⟩

theorem witness_ScheduleCommands_8 : ∃ (s : State) (h : Nat) (i : Nat) (x : Slot),
    started s h 0xC0 i x :=
  ⟨tCmd (tDev .operational) 0xC0 0, 5, 5, tSlot 0xC0 0, by decide +kernel⟩

theorem witness_ScheduleCommands_9a : ∃ (s : State) (h : Nat) (i : Nat) (x : Slot) (y : SchEntry),
    let e := fld x.body 0 10
    started s h 0xC1 i x ∧ s.ent e = some y ∧ entSector y.raw = x.sector ∧ entKind y.raw = 0 ∧ s.dev.st = .config :=
  ⟨tCmd { tSched [] 0 with dev := (tDev .config).dev } 0xC1 0, 5, 5, tSlot 0xC1 0, { raw := tEntry, en := true, change := [], armed := none }, by decide +kernel⟩

theorem witness_ScheduleCommands_9b : ∃ (s : State) (h : Nat) (i : Nat) (x : Slot) (y : SchEntry),
    let e := fld x.body 0 10
    started s h 0xC1 i x ∧ s.ent e = some y ∧ entSector y.raw = x.sector ∧ entKind y.raw = 0 ∧ s.dev.st ≠ .config :=
  ⟨tCmd (tSched [] 0) 0xC1 0, 5, 5, tSlot 0xC1 0, { raw := tEntry, en := true, change := [], armed := none }, by decide +kernel⟩

theorem witness_SelfTestsAndCopies_1 : ∃ (s : State) (e : Nat) (x : SchEntry),
    s.ent e = some x ∧ entKind x.raw = 2 ∧ x.en = true ∧ s.now = tickStart s s.tickNow + fld x.raw 80 16 * 1000 ∧
    tfind s.work.switching (entDie x.raw) = none ∧ s.tickNow % s.num 0x2801 0 = entSlot x.raw ∧ tickOpened s = true ∧
    ticks s (entSector x.raw) s.tickNow = true ∧ s.dieUp (entDie x.raw) = true ∧ overfull s (entDie x.raw) = false ∧
    (∀ p ∈ s.work.facets, p.2.testing.map Prod.fst ≠ some e) :=
  ⟨tTests, 0, tTest, by decide +kernel⟩

theorem witness_SelfTestsAndCopies_3 : ∃ (s : State) (f : Nat) (e : Nat),
    let x := s.facet f
    reservedUntil s f = some e ∧ s.operating = true ∧ x.run ≠ .running ∧ x.run ≠ .ended ∧ s.dieUp (dieOf f) = true ∧ switchDelays s f = false ∧
    x.reload ≤ s.now ∧ s.now + figureNs s f ≤ e :=
  ⟨tSite { tFacet with run := .idle, reserve := some (0, 5000) }, 0, 5000, by decide⟩

theorem witness_SelfTestsAndCopies_4 : ∃ (s : State) (d : Fin 4) (t : Nat),
    tfind s.safety.lapStart d.val = some t ∧ lapEnd s t ≤ s.now ∧ overfull s d.val = false :=
  ⟨{ tSite tFacet with now := 100000000, safety := { State.reset.safety with lapStart := [(3, 0)] } }, 3, 0, by decide⟩

theorem witness_SelfTestsAndCopies_6 : ∃ (s : State) (d : Fin 4) (j : Nat),
    tfind s.work.switching d.val = some j :=
  ⟨{ tSite tFacet with work := { (tSite tFacet).work with switching := [(3, 1)] } }, 3, 1, by decide⟩

theorem witness_SelfTestsAndCopies_7 : ∃ (s : State) (t : Nat),
    s.safety.join = .copying t :=
  ⟨{ tDev .operational with safety := { State.reset.safety with join := .copying 7 } }, 7, by decide⟩

theorem witness_SelfTestsAndCopies_9 : ∃ (a : Nat) (data : List Byte),
    data ≠ [] ∧ data.length ≤ 64 ∧ a + data.length ≤ 0x300000 :=
  ⟨0x2FFFFF, [1], by decide⟩

theorem witness_EngineCommands_1 : ∃ (s : State) (hub : Fin 2) (eng : Engine) (i : Nat) (x : Slot),
    hubUp s hub.val = true ∧ engineBusy s hub.val eng = false ∧
    (sortBy (fun p : Nat × Slot => queuePlace p.2) ((queued s hub.val eng).filter fun p => eligible s p.2)).head? = some (i, x) ∧
    (configOnly x.code = true → s.dev.st = .config) :=
  ⟨(tDev .operational).setSlot 5 { tSlot 1 0 with cmd := .queued }, 0, .control, 5, { tSlot 1 0 with cmd := .queued }, by decide +kernel⟩

theorem witness_EngineCommands_2a : ∃ (s : State) (h : Nat) (st : Nat) (r : Word),
    let x := s.slot (slotOf h)
    s.holds h = true ∧ x.st = .inflight ∧ x.cmd = .done st r :=
  ⟨(tDev .operational).setSlot 5 { tSlot 1 0 with cmd := .done 0x0101 3 }, 5, 0x0101, 3, by decide +kernel⟩

theorem witness_EngineCommands_2b : ∃ (s : State) (h : Nat),
    let x := s.slot (slotOf h)
    s.holds h = true ∧ x.st = .inflight ∧ x.cmd = .started ∧ (∀ b ∈ s.plant.hubs, b.writing ≠ some h) :=
  ⟨(tDev .operational).setSlot 5 (tSlot 1 0), 5, by decide +kernel⟩

theorem witness_EngineCommands_3 : ∃ (s : State) (h : Nat) (i : Nat) (x : Slot),
    started s h 0x01 i x :=
  ⟨tCmd (tDev .operational) 1 0, 5, 5, tSlot 1 0, by decide +kernel⟩

theorem witness_EngineCommands_4a : ∃ (s : State) (h : Nat),
    let x := s.slot (slotOf h)
    s.holds h = true ∧ x.st = .inflight ∧ x.sgen = (s.sec x.sector).gen ∧ x.cmd ∈ [CmdSt.started, .waiting] ∧ cmdCut s x = false :=
  ⟨tCmd (tDev .operational) 2 0, 5, by decide +kernel⟩

theorem witness_EngineCommands_4b : ∃ (s : State) (h : Nat),
    let x := s.slot (slotOf h)
    s.holds h = true ∧ x.st = .inflight ∧ x.sgen = (s.sec x.sector).gen ∧ x.cmd ∈ [CmdSt.started, .waiting] ∧ x.code = 0x02 :=
  ⟨tCmd (tDev .operational) 2 0, 5, by decide +kernel⟩

theorem witness_WindowAccesses_1a : ∃ (s : State) (hub : Fin 2) (c : Fin 8) (n : Nat) (v : Word),
    let pid := corePid s (coreOf hub c)
    hubUp s hub.val = true ∧ ctlAllowed s hub.val n pid (nbits v.toNat 0 6) = true :=
  ⟨tWin, 1, 0, 255, 0x80000000, by decide +kernel⟩

theorem witness_WindowAccesses_1b : ∃ (s : State) (hub : Fin 2) (c : Fin 8) (n : Nat),
    let pid := corePid s (coreOf hub c)
    let allowed (checked : Bool) : Bool := accessAllowed s hub.val n pid checked
    hubUp s hub.val = true ∧ allowed false = true :=
  ⟨tWin, 1, 0, 255, by decide +kernel⟩

theorem witness_WindowAccesses_1c : ∃ (s : State) (hub : Fin 2) (c : Fin 8) (n : Nat),
    let k := winKey (.core hub n)
    let pid := corePid s (coreOf hub c)
    let allowed (checked : Bool) : Bool := accessAllowed s hub.val n pid checked
    hubUp s hub.val = true ∧ allowed true = true ∧ (s.win k).fifo = [] :=
  ⟨tWin.setWin 767 { tWin.win 767 with fifo := [] }, 1, 0, 255, by decide +kernel⟩

theorem witness_WindowAccesses_1d : ∃ (s : State) (hub : Fin 2) (c : Fin 8) (n : Nat) (r : Nat × Word) (rest : List (Nat × Word)),
    let k := winKey (.core hub n)
    let pid := corePid s (coreOf hub c)
    let allowed (checked : Bool) : Bool := accessAllowed s hub.val n pid checked
    hubUp s hub.val = true ∧ allowed true = true ∧ (s.win k).fifo = r :: rest :=
  ⟨tWin, 1, 0, 255, (0, 9), [], by decide +kernel⟩

theorem witness_WindowAccesses_1e : ∃ (s : State) (hub : Fin 2) (c : Fin 8) (n : Nat) (v : Word),
    let k := winKey (.core hub n)
    let pid := corePid s (coreOf hub c)
    let allowed (checked : Bool) : Bool := accessAllowed s hub.val n pid checked
    let x := s.slot (slotOf v.toNat)
    hubUp s hub.val = true ∧ allowed true = true ∧ (s.win k).isOpen = true ∧ s.holdsGen v.toNat = true ∧ x.st = .complete ∧ x.ctx = (s.win k).ctx ∧
    x.kind ≠ 2 ∧ x.rep = 0 :=
  ⟨tWin.setSlot 5 { tSlot 1 0 with st := .complete, ctx := 4 }, 1, 0, 255, 5, by decide +kernel⟩

theorem witness_SectorCommands_1 : ∃ (s : State) (h : Nat) (i : Nat) (x : Slot),
    let n := fld x.body 0 6
    let r := BitVec.ofNat 1536 (ofBytes (x.input.take 192))
    started s h 0x40 i x ∧ n ≠ 0 ∧ n ≤ maxSector s ∧ (s.sec n).st = .free ∧ recordStatus s n r = 0 :=
  ⟨((tDev .config).setSec 0 (tSector .active rootRecord none)).setSlot 5 { tSlot 0x40 1 with input := toBytes 192 tSecond.toNat }, 5, 5, { tSlot 0x40 1 with input := toBytes 192 tSecond.toNat }, by decide +kernel⟩

theorem witness_SectorCommands_2 : ∃ (s : State) (h : Nat) (i : Nat) (x : Slot),
    let n := fld x.body 0 6
    started s h 0x41 i x ∧ (s.sec n).st = .active ∧ tfind s.work.images n = none ∧ (∀ p ∈ s.kv, p.2.sector ≠ n) ∧
    genInUse s n (((s.sec n).gen + 1) % 65536) = false :=
  ⟨tCmd (tSectors .active none) 0x41 1, 5, 5, tSlot 0x41 1, by decide +kernel⟩

theorem witness_SectorCommands_3 : ∃ (s : State) (h : Nat) (i : Nat) (x : Slot),
    let n := fld x.body 0 6
    let b := afterClose s
    started b h 0x42 i x ∧ (b.sec n).st = .active ∧ genInUse b n (((b.sec n).gen + 1) % 65536) = false :=
  ⟨tCmd (tSectors .active none) 0x42 1, 5, 5, tSlot 0x42 1, by decide +kernel⟩

theorem witness_SectorCommands_4 : ∃ (s : State) (h : Nat) (i : Nat) (x : Slot),
    started s h 0x43 i x ∧ (s.sec (fld x.body 0 6)).st = .active :=
  ⟨tCmd (tSectors .active none) 0x43 1, 5, 5, tSlot 0x43 1, by decide +kernel⟩

theorem witness_SectorCommands_5op0 : ∃ (s : State) (h : Nat) (i : Nat) (x : Slot),
    let n := fld x.body 0 6
    let y := s.sec n
    started s h 0x44 i x ∧ y.st = .active ∧ fld x.body 6 2 = 0 :=
  ⟨tCmd (tSectors .active none) 0x44 1, 5, 5, tSlot 0x44 1, by decide +kernel⟩

theorem witness_SectorCommands_5op1 : ∃ (s : State) (h : Nat) (i : Nat) (x : Slot),
    let n := fld x.body 0 6
    let y := s.sec n
    started s h 0x44 i x ∧ y.st = .active ∧ fld x.body 6 2 = 1 ∧ y.dirtyOn = true :=
  ⟨tCmd (tSectors .active none) 0x44 65, 5, 5, tSlot 0x44 65, by decide +kernel⟩

theorem witness_SectorCommands_5op2 : ∃ (s : State) (h : Nat) (i : Nat) (x : Slot),
    let n := fld x.body 0 6
    let y := s.sec n
    started s h 0x44 i x ∧ y.st = .active ∧ fld x.body 6 2 = 2 :=
  ⟨tCmd (tSectors .active none) 0x44 129, 5, 5, tSlot 0x44 129, by decide +kernel⟩

theorem witness_SectorCommands_6 : ∃ (s : State) (n : Nat) (t : Nat) (h : Nat),
    (s.sec n).drain = some (t, h, true) ∧ (∀ r ∈ s.mem.reqs, oldPast s n r = false) :=
  ⟨tSectors .resetting (some (0, 5, true)), 1, 0, 5, by decide +kernel⟩

theorem witness_SectorCommands_7 : ∃ (s : State) (n : Nat) (t : Nat) (h : Nat),
    (s.sec n).drain = some (t, h, false) ∧ (∀ r ∈ s.mem.reqs, oldPast s n r = false) :=
  ⟨tSectors .resetting (some (0, 5, false)), 1, 0, 5, by decide +kernel⟩

theorem witness_SectorCommands_8 : ∃ (s : State) (n : Nat) (t : Nat) (h : Nat) (d : Bool),
    (s.sec n).drain = some (t, h, d) ∧ (s.sec n).timedOut = false ∧ t + 50000 ≤ s.now :=
  ⟨{ tSectors .resetting (some (0, 5, false)) with now := 50000 }, 1, 0, 5, false, by decide +kernel⟩

theorem witness_ImageCommands_1 : ∃ (s : State) (h : Nat) (i : Nat) (x : Slot),
    let va := fld x.body 320 64
    let n := imgSpan (ofBytes (pagedRead s x.pages va 64))
    let img := pagedRead s x.pages va n
    let placed := (imgEntries img).zip (freeIndices s (imgEntries img).length)
    let t := placed.foldl (fun a p => placeEntry a x.sector p.2 p.1.2) (imgApply (countPaged s x.pages va n 8 false) x.sector img)
    started s h 0x50 i x ∧ tfind s.work.images x.sector = none ∧ pagedBad s x.pages va n = false ∧ imgCheck s x.hub x.sector img = 0 ∧
    firstBad t x.sector placed = none :=
  ⟨tImgState.setSlot 5 tImgSlot, 5, 5, tImgSlot, by decide +kernel⟩

theorem witness_ImageCommands_2 : ∃ (s : State) (h : Nat) (i : Nat) (x : Slot) (im : Image),
    started s h 0x51 i x ∧ tfind s.work.images x.sector = some im :=
  ⟨(let s := tCmd (tDev .operational) 0x51 0; { s with work := { s.work with images := [(0, { digest := [], homes := [0], prisms := [] })] } }), 5, 5, tSlot 0x51 0, { digest := [], homes := [0], prisms := [] }, by decide +kernel⟩

theorem witness_KvCommands_1 : ∃ (s : State) (h : Nat) (i : Nat) (x : Slot),
    started s h 0x60 i x ∧ poolWaits s x = false ∧ s.pool (fld x.body 0 4) = none ∧ (s.sec x.sector).record.getLsbD (32 + fld x.body 0 4) = true ∧
    (∀ b ∈ (newPool s.now x).bases, b % 64 = 0) ∧
    planesApart (newPool s.now x).bases ((newPool s.now x).pages * (2 * pageHalf (newPool s.now x))) (newPool s.now x).caddr (controlBytes (newPool s.now x).pages (newPool s.now x).seqs) = true :=
  ⟨(tMap (tDev .operational)).setSlot 5 { tSlot 0x60 (3 + 2 ^ 71 + 2 ^ 335) with input := toBytes 8 0x100000 }, 5, 5, { tSlot 0x60 (3 + 2 ^ 71 + 2 ^ 335) with input := toBytes 8 0x100000 }, by decide +kernel⟩

theorem witness_KvCommands_2 : ∃ (s : State) (h : Nat) (i : Nat) (n : Nat) (x : Slot) (p : Pool),
    startedKv s h 0x61 i n x p ∧ (∀ t ∈ s.work.tasks, ∀ b, t.2.bind = some b → b.pool ≠ n) ∧ (∀ e ∈ p.page, e.2.pins = 0) ∧ p.held = [] ∧
    p.freeing = [] :=
  ⟨tCmd { tMap (tDev .operational) with kv := [(3, { tPool with views := [], page := [] })] } 0x61 3, 5, 5, 3, tSlot 0x61 3, { tPool with views := [], page := [] }, by decide +kernel, fun _ h => absurd h List.not_mem_nil, by decide +kernel, rfl, rfl⟩

theorem witness_KvCommands_3 : ∃ (s : State) (h : Nat) (i : Nat) (n : Nat) (x : Slot) (p : Pool),
    startedKv s h 0x62 i n x p ∧ fld x.body 53 11 ≤ freeCount p :=
  ⟨tCmd { tMap (tDev .operational) with kv := [(3, tPool)] } 0x62 (3 + 3 * 2 ^ 53), 5, 5, 3, tSlot 0x62 (3 + 3 * 2 ^ 53), tPool, by decide +kernel⟩

theorem witness_KvCommands_4 : ∃ (s : State) (h : Nat) (i : Nat) (n : Nat) (x : Slot) (p : Pool),
    startedKv s h 0x63 i n x p :=
  ⟨tCmd { tMap (tDev .operational) with kv := [(3, tPool)] } 0x63 (3 + 2 ^ 53), 5, 5, 3, tSlot 0x63 (3 + 2 ^ 53), tPool, by decide +kernel⟩

theorem witness_KvCommands_5 : ∃ (s : State) (h : Nat) (i : Nat) (n : Nat) (x : Slot) (p : Pool),
    let ps := inWords x (fld x.body 53 11)
    startedKv s h 0x64 i n x p ∧ (∀ w ∈ ps, w < p.pages ∧ (pageAt p w).maps = 0 ∧ (pageAt p w).st = .live) ∧ ps.eraseDups.length = ps.length :=
  ⟨tCmd { tMap (tDev .operational) with kv := [(3, tPool)] } 0x64 (3 + 2 ^ 53), 5, 5, 3, tSlot 0x64 (3 + 2 ^ 53), tPool, by decide +kernel⟩

theorem witness_KvCommands_6op0 : ∃ (s : State) (h : Nat) (i : Nat) (n : Nat) (x : Slot) (p : Pool) (c : Instr × Nat),
    c ∈ [(.kvSeqOpen h, 0), (.kvSeqClose h, 1), (.kvSeqCloseFree h, 2), (.kvSeqSetGlobals h, 3)] ∧ startedKv s h 0x65 i n x p ∧ fld x.body 4 2 = c.2 :=
  ⟨tCmd { tMap (tDev .operational) with kv := [(3, tPool)] } 0x65 (3 + 0), 5, 5, 3, tSlot 0x65 (3 + 0), tPool, (.kvSeqOpen 5, 0), by decide +kernel⟩

theorem witness_KvCommands_6op1 : ∃ (s : State) (h : Nat) (i : Nat) (n : Nat) (x : Slot) (p : Pool) (c : Instr × Nat),
    c ∈ [(.kvSeqOpen h, 0), (.kvSeqClose h, 1), (.kvSeqCloseFree h, 2), (.kvSeqSetGlobals h, 3)] ∧ startedKv s h 0x65 i n x p ∧ fld x.body 4 2 = c.2 :=
  ⟨tCmd { tMap (tDev .operational) with kv := [(3, tPool)] } 0x65 (3 + 16), 5, 5, 3, tSlot 0x65 (3 + 16), tPool, (.kvSeqClose 5, 1), by decide +kernel⟩

theorem witness_KvCommands_6op2 : ∃ (s : State) (h : Nat) (i : Nat) (n : Nat) (x : Slot) (p : Pool) (c : Instr × Nat),
    c ∈ [(.kvSeqOpen h, 0), (.kvSeqClose h, 1), (.kvSeqCloseFree h, 2), (.kvSeqSetGlobals h, 3)] ∧ startedKv s h 0x65 i n x p ∧ fld x.body 4 2 = c.2 :=
  ⟨tCmd { tMap (tDev .operational) with kv := [(3, tPool)] } 0x65 (3 + 32), 5, 5, 3, tSlot 0x65 (3 + 32), tPool, (.kvSeqCloseFree 5, 2), by decide +kernel⟩

theorem witness_KvCommands_6op3 : ∃ (s : State) (h : Nat) (i : Nat) (n : Nat) (x : Slot) (p : Pool) (c : Instr × Nat),
    c ∈ [(.kvSeqOpen h, 0), (.kvSeqClose h, 1), (.kvSeqCloseFree h, 2), (.kvSeqSetGlobals h, 3)] ∧ startedKv s h 0x65 i n x p ∧ fld x.body 4 2 = c.2 :=
  ⟨tCmd { tMap (tDev .operational) with kv := [(3, tPool)] } 0x65 (3 + 48), 5, 5, 3, tSlot 0x65 (3 + 48), tPool, (.kvSeqSetGlobals 5, 3), by decide +kernel⟩

theorem witness_KvCommands_7 : ∃ (s : State) (n : Nat) (p : Pool),
    s.pool n = some p :=
  ⟨{ tDev .operational with kv := [(3, tPool)] }, 3, tPool, by decide +kernel⟩

theorem witness_KvCommands_8 : ∃ (s : State) (n : Nat) (g : Nat) (p : Pool),
    s.pool n = some p ∧ (pageAt p g).st = .freeing ∧ (pageAt p g).pins = 0 :=
  ⟨{ tDev .operational with kv := [(3, { tPool with page := [(3, { st := .freeing, maps := 0, pins := 0 })], freeing := [(9, [3])] })] }, 3, 3, { tPool with page := [(3, { st := .freeing, maps := 0, pins := 0 })], freeing := [(9, [3])] }, by decide +kernel⟩

theorem witness_VertexCommands_1 : ∃ (s : State) (h : Nat) (i : Nat) (x : Slot),
    let u := fld x.body 16 3
    let n := fld x.body 24 8
    let ks := takeObjs s u n
    started s h 0x70 i x ∧ awaitsFwd x u = false ∧ unitBusy s x u = false ∧ liveOn s x.sector u + n ≤ fld (s.sec x.sector).record (800 + 16 * u) 16 ∧
    n ≤ ks.length :=
  ⟨tCmd (tObj 0) 0x70 (4 * 2 ^ 16 + 9 * 2 ^ 24), 5, 5, tSlot 0x70 (4 * 2 ^ 16 + 9 * 2 ^ 24), by decide +kernel⟩

theorem witness_VertexCommands_2 : ∃ (s : State) (h : Nat) (i : Nat) (x : Slot),
    started s h 0x71 i x ∧ (∀ r ∈ inWords x (fld x.body 24 8), freeStatus s x r = 0) :=
  ⟨(tObj 0).setSlot 5 (tFree .started), 5, 5, tFree .started, by decide +kernel⟩

theorem witness_VertexCommands_3 : ∃ (s : State) (h : Nat) (j : Nat),
    let x := s.slot (slotOf h)
    let r := inWord x j
    s.holds h = true ∧ x.st = .inflight ∧ x.cmd = .waiting ∧ x.code = 0x71 ∧ x.sgen = (s.sec x.sector).gen ∧ j < fld x.body 24 8 ∧ r ≠ 0xFFFFFFFF ∧
    freeStatus s x r = 0 ∧ unitBusy s x (refUnit r) = false ∧ cmdCut s x = false ∧ tornCmd s h 0x71 = none :=
  ⟨(tObj 0).setSlot 5 (tFree .waiting), 5, 0, by decide +kernel⟩

theorem witness_VertexCommands_4a : ∃ (s : State) (h : Nat) (i : Nat) (x : Slot),
    let r := fld x.body 224 32
    ((awaitsFwd x (refUnit r) = false ∧ unitBusy s x (refUnit r) = false) ∨ 6 ≤ refUnit r) ∧ started s h 0x72 i x :=
  ⟨tCmd (tObj 0) 0x72 (0x80001000 * 2 ^ 224 + 0xFFFFFFFF * 2 ^ 288), 5, 5, tSlot 0x72 (0x80001000 * 2 ^ 224 + 0xFFFFFFFF * 2 ^ 288), by decide +kernel⟩

theorem witness_VertexCommands_4b : ∃ (s : State) (h : Nat) (i : Nat) (x : Slot),
    let r := fld x.body 224 32
    ((awaitsFwd x (refUnit r) = false ∧ unitBusy s x (refUnit r) = false) ∨ 6 ≤ refUnit r) ∧ started s h 0x73 i x :=
  ⟨tCmd (tObj 0) 0x73 (0x80001000 * 2 ^ 224 + 0xFFFFFFFF * 2 ^ 288), 5, 5, tSlot 0x73 (0x80001000 * 2 ^ 224 + 0xFFFFFFFF * 2 ^ 288), by decide +kernel⟩

theorem witness_VertexCommands_5 : ∃ (s : State) (h : Nat) (i : Nat) (x : Slot),
    let b := x.body
    let r := fld b 224 32
    let w : Watch := { id := 0, unit := 0, ref := r, cond := fld b 14 2, cmp := fld b 256 32, cookie := fld b 192 32, dkind := fld b 12 2, dest := fld b 0 9, sector := x.sector, site := none, handle := some h, wake := none }
    let a := vtRegister (waitOn (unitTook s (refUnit r) x.key) i) w
    started s h 0x74 i x ∧ ((awaitsFwd x (refUnit r) = false ∧ unitBusy s x (refUnit r) = false) ∨ 6 ≤ refUnit r) ∧ a.1 = 0 :=
  ⟨tCmd (tObj 0) 0x74 (0x80001000 * 2 ^ 224 + 5 * 2 ^ 256), 5, 5, tSlot 0x74 (0x80001000 * 2 ^ 224 + 5 * 2 ^ 256), by decide +kernel⟩

theorem witness_VertexCommands_6 : ∃ (s : State) (h : Nat) (i : Nat) (x : Slot) (w : Watch),
    let v := fld x.body 288 32
    started s h 0x75 i x ∧ pendingWatch s x.ctx v = some w ∧ awaitsFwd x w.unit = false ∧ unitBusy s x w.unit = false :=
  ⟨(tCmd (tWatched 0 (some 6)) 0x75 (6 * 2 ^ 288)).setSlot 6 { tSlot 0x74 0 with cmd := .waiting }, 5, 5, tSlot 0x75 (6 * 2 ^ 288), tWatch (some 6), by decide +kernel⟩

theorem witness_VertexCommands_7a : ∃ (s : State) (h : Nat) (i : Nat) (k : Nat) (x : Slot),
    let dev := x.body.getLsbD 19
    let u := fld x.body 16 3
    let nx := fld x.body 40 8
    let parts := bitmapHomes (leAt x.input 0 64)
    started s h 0x78 i x ∧ awaitsFwd x u = false ∧ unitBusy s x u = false ∧
    (∀ p ∈ parts, homeGranted s x.sector p = true ∧ (dev = false → dieOf p = u)) ∧ (parts ≠ [] ∨ nx ≠ 0) ∧
    (dev = true → s.num 0x4000 0 ≠ 1 ∨ spans parts nx u = false) ∧ (barKeys dev u).find? (fun k => !(s.bar k).live) = some k ∧
    ((barKeys dev u).filter fun k => (s.bar k).live && (s.bar k).sector == x.sector).length < barQuota s x.sector dev u :=
  ⟨((tObj 0).setLink 4 { Link.fresh with up := true }).setSlot 5 { tSlot 0x78 0 with input := toBytes 64 3, fwd := true }, 5, 5, 0, { tSlot 0x78 0 with input := toBytes 64 3, fwd := true }, by decide +kernel⟩

theorem witness_VertexCommands_7b : ∃ (s : State) (h : Nat) (i : Nat) (k : Nat) (x : Slot),
    let dev := x.body.getLsbD 19
    let u := fld x.body 16 3
    let nx := fld x.body 40 8
    let parts := bitmapHomes (leAt x.input 0 64)
    started s h 0x78 i x ∧ awaitsFwd x u = false ∧ unitBusy s x u = false ∧
    (∀ p ∈ parts, homeGranted s x.sector p = true ∧ (dev = false → dieOf p = u)) ∧ (parts ≠ [] ∨ nx ≠ 0) ∧
    (dev = true → s.num 0x4000 0 ≠ 1 ∨ spans parts nx u = false) ∧ (barKeys dev u).find? (fun k => !(s.bar k).live) = some k ∧
    ((barKeys dev u).filter fun k => (s.bar k).live && (s.bar k).sector == x.sector).length < barQuota s x.sector dev u :=
  ⟨(tObj 0).setSlot 5 { tSlot 0x78 (2 ^ 19 + 4 * 2 ^ 16 + 2 ^ 40) with input := toBytes 64 3 }, 5, 5, 256, { tSlot 0x78 (2 ^ 19 + 4 * 2 ^ 16 + 2 ^ 40) with input := toBytes 64 3 }, by decide +kernel⟩

theorem witness_VertexCommands_8 : ∃ (s : State) (h : Nat) (i : Nat) (x : Slot),
    let k := barKey (fld x.body 224 32)
    started s h 0x79 i x ∧ barStatus s x.sector (fld x.body 224 32) = 0 ∧ awaitsFwd x (barSeat k) = false ∧ unitBusy s x (barSeat k) = false :=
  ⟨tCmd tBar 0x79 (0x80010000 * 2 ^ 224), 5, 5, tSlot 0x79 (0x80010000 * 2 ^ 224), by decide +kernel⟩

theorem witness_VertexCommands_9 : ∃ (s : State) (h : Nat) (i : Nat) (x : Slot),
    let k := barKey (fld x.body 224 32)
    let b := s.bar k
    started s h 0x7A i x ∧ barStatus s x.sector (fld x.body 224 32) = 0 ∧ awaitsFwd x (barSeat k) = false ∧ unitBusy s x (barSeat k) = false ∧
    b.broken = false ∧ b.narr < b.nx ∧ b.dup = (b.arrived.length, b.narr) :=
  ⟨tCmd tBar 0x7A (0x80010000 * 2 ^ 224), 5, 5, tSlot 0x7A (0x80010000 * 2 ^ 224), by decide +kernel⟩

theorem witness_SignalsFollowTheirRules_1a : ∃ (s : State) (sec : Nat) (r : Nat) (v : Nat),
    refStatus s sec r = 0 ∧ (s.vobj (refKey r)).value.toNat + v < 2 ^ 32 ∧
    (∀ w ∈ watchesOn s r, watchHolds w ((s.vobj (refKey r)).value.toNat + v) = false) :=
  ⟨tWatched 0 none, 0, 0x80001000, 4, by decide +kernel⟩

theorem witness_SignalsFollowTheirRules_1b : ∃ (s : State) (sec : Nat) (r : Nat) (v : Nat) (w : Watch),
    refStatus s sec r = 0 ∧ (s.vobj (refKey r)).value.toNat + v < 2 ^ 32 ∧
    (watchesOn s r).find? (watchHolds · ((s.vobj (refKey r)).value.toNat + v)) = some w :=
  ⟨tWatched 0xFFFFFFFE none, 0, 0x80001000, 1, tWatch none, by decide +kernel⟩

theorem witness_SignalsFollowTheirRules_1c : ∃ (s : State) (sec : Nat) (r : Nat) (v : Nat),
    refStatus s sec r = 0 ∧ 2 ^ 32 ≤ (s.vobj (refKey r)).value.toNat + v :=
  ⟨tObj 0xFFFFFFFF, 0, 0x80001000, 1, by decide +kernel⟩

theorem witness_SignalsFollowTheirRules_1d : ∃ (s : State) (sec : Nat) (r : Nat) (v : Nat),
    refStatus s sec r = 0 ∧ v < 2 ^ 32 :=
  ⟨tObj 7, 0, 0x80001000, 0xFFFFFFFF, by decide +kernel⟩

theorem witness_LineRequests_1 : ∃ (s : State) (tag : Nat) (r : LineReq),
    findReq s tag = some r ∧ current s r = true ∧ acceptable s r true = true :=
  ⟨tReqs [tReq true], 8, tReq true, by decide +kernel⟩

theorem witness_LineRequests_2 : ∃ (s : State) (tag : Nat) (r : LineReq),
    findReq s tag = some r ∧ current s r = true ∧ acceptable s r false = true :=
  ⟨tReqs [tReq false], 8, tReq false, by decide +kernel⟩

theorem witness_LineRequests_3a : ∃ (s : State) (tag : Nat) (r : LineReq),
    findReq s tag = some r ∧ current s r = false ∧ r.accepted = false ∧ r.write = true :=
  ⟨tReqs [{ tReq true with gen := 1 }], 8, { tReq true with gen := 1 }, by decide⟩

theorem witness_LineRequests_3b : ∃ (s : State) (tag : Nat) (r : LineReq),
    findReq s tag = some r ∧ current s r = false ∧ r.accepted = false ∧ r.write = false :=
  ⟨tReqs [{ tReq false with gen := 1 }], 8, { tReq false with gen := 1 }, by decide⟩

theorem witness_LineRequests_4 : ∃ (s : State) (tag : Nat) (t : Nat) (r : LineReq) (data : List Byte) (bad : Bool),
    findReq s tag = some r ∧ s.mem.returned.find? (fun p => p.1 == tag) = some (t, data, bad) :=
  ⟨tReqs [tReq false], 8, 8, tReq false, List.replicate 64 3, false, by decide⟩

theorem witness_LineRequests_5 : ∃ (s : State) (tag : Nat) (r : LineReq),
    findReq s tag = some r ∧ r.write = true ∧ r.accepted = true :=
  ⟨tReqs [{ tReq true with accepted := true }], 8, { tReq true with accepted := true }, by decide⟩

theorem witness_LineRequests_6 : ∃ (s : State) (tag : Nat) (r : LineReq),
    findReq s tag = some r ∧ r.write = false :=
  ⟨tReqs [tReq false], 8, tReq false, by decide⟩

theorem witness_LineWriteChangesOnlyItsBytes_1 : ∃ (data : List Byte),
    data.length = 64 :=
  ⟨List.replicate 64 9, by decide⟩

theorem witness_GuestTraffic_1a : ∃ (s : State) (g : GuestLine),
    let c := guestCheck s g false false
    guestUp s = true ∧ c ≠ 0 :=
  ⟨tGuest, tLine 64, by decide +kernel⟩

theorem witness_GuestTraffic_1b : ∃ (s : State) (g : GuestLine),
    let c := guestCheck s g false false
    guestUp s = true ∧ c = 0 ∧ rateOk s g = true ∧ guestRoom s g = true :=
  ⟨tGuest, tLine 63, by decide +kernel⟩

theorem witness_GuestTraffic_2a : ∃ (s : State) (g : GuestLine),
    let bad := takeMask s (guestMask g.sseat true)
    guestUp s = true ∧ bad.1 ≠ none :=
  ⟨keepMask tGuest 30 0, tLine 0, by decide +kernel⟩

theorem witness_GuestTraffic_2b : ∃ (s : State) (g : GuestLine),
    let bad := takeMask s (guestMask g.sseat true)
    let m := takeMask bad.2 (guestMask g.sseat false)
    let c := guestCheck m.2 g true m.1.isSome
    guestUp s = true ∧ bad.1 = none ∧ c ≠ 0 :=
  ⟨tGuest, { tLine 0 with sseat := 5 }, by decide +kernel⟩

theorem witness_GuestTraffic_2c : ∃ (s : State) (g : GuestLine),
    let bad := takeMask s (guestMask g.sseat true)
    let m := takeMask bad.2 (guestMask g.sseat false)
    let c := guestCheck m.2 g true m.1.isSome
    guestUp s = true ∧ bad.1 = none ∧ c = 0 ∧ rateOk m.2 g = true ∧ guestRoom m.2 g = true :=
  ⟨keepMask tGuest 22 1, tLine 0, by decide +kernel⟩

theorem witness_GuestTraffic_3a : ∃ (s : State) (m : ShortHdr),
    m.sseat < 6 ∧ m.gen = (s.sec m.sector).gen :=
  ⟨tGuest, { sseat := 5, sector := 63, gen := 0 }, by decide +kernel⟩

theorem witness_GuestTraffic_3b : ∃ (s : State) (m : ShortHdr),
    guestUp s = true ∧ guestHdr m = true :=
  ⟨tGuest, { sseat := 6, sector := 0, gen := 0 }, by decide +kernel⟩

theorem witness_GuestTraffic_3c : ∃ (s : State) (m : ShortHdr),
    guestUp s = true ∧ guestHdr m = false :=
  ⟨tGuest, { sseat := 5, sector := 0, gen := 0 }, by decide +kernel⟩

theorem witness_GuestTraffic_4 : ∃ (s : State),
    guestUp s = true :=
  ⟨tGuest, by decide +kernel⟩

theorem witness_GuestTraffic_5 : ∃ (s : State) (m : ShortHdr) (line : Fin 64),
    let r := s.num 0x4C30 line.val
    let u := refUnit r
    let key := 0xC80 + line.val
    let c := tget s.host.guestEvts (refKey r) 0
    let n := if c / 128 = s.tickNow then c % 128 else 0
    let t := unitTook { s with now := unitStamp s u key } u key
    let p := vtPostOn t (t.vobj (refKey r)).sector r 1
    guestUp s = true ∧ m.sseat = 6 ∧ m.sector = 0 ∧ m.gen = 0 ∧ nbit (s.num 0x4811 0) 5 = true ∧ r ≠ 0 ∧ n < 64 ∧ routeUp s 5 u = true ∧
    refStatus s (s.vobj (refKey r)).sector r = 0 ∧ p.1 = 0 :=
  ⟨tEvt, { sseat := 6, sector := 0, gen := 0 }, 63, by decide +kernel⟩

theorem witness_DramAddressDecode_2 : ∃ (o : Nat) (p : Nat),
    stackOf o = stackOf p ∧ dramRow o = dramRow p ∧ dramBank o = dramBank p ∧ dramPc o = dramPc p ∧ o / 2 ^ 13 % 4 = p / 2 ^ 13 % 4 ∧
    o / 2 ^ 6 % 4 = p / 2 ^ 6 % 4 ∧ o % 64 = p % 64 :=
  ⟨0x98C3A5F40, 0x98C3A5F40, by decide +kernel⟩

theorem witness_MemoryCommands_1 : ∃ (s : State) (n : Fin 4) (pc : Fin 32) (i : Nat) (r : QReq),
    let k := 32 * n.val + pc.val
    let q := s.queue k
    refUrgent s n.val pc.val = false ∧ nextIssue s n.val q = some i ∧ q[i]? = some r :=
  ⟨tCtl, 0, 0, 0, lget tQueue 0 { no := 0, off := 0, write := false, master := 0, cls := 0, source := 0, time := 0 }, by decide⟩

theorem witness_MemoryCommands_2a : ∃ (s : State) (n : Fin 4) (pc : Fin 32) (bank : Fin 32),
    let k := bankNo n.val pc.val bank.val
    let b := s.bank k
    (Nat.max b.cleared (tget s.mem.trained n.val 0) + (if stackHot s n.val then 16000000 else 32000000) ≤ s.now) :=
  ⟨{ tCtl with now := 32000000 }, 3, 31, 31, by decide⟩

theorem witness_MemoryCommands_2b : ∃ (s : State) (n : Fin 4) (pc : Fin 32) (bank : Fin 32),
    let k := bankNo n.val pc.val bank.val
    let b := s.bank k
    b.row ≠ none ∧ b.last + 1000 ≤ s.now :=
  ⟨{ tCtl.setBank 0 { Bank.fresh with row := some 16383, last := 5 } with now := 1005 }, 0, 0, 0, by decide⟩

theorem witness_MemoryCommands_3 : ∃ (s : State),
    s.now % 1024 = 0 ∧ s.dev.st ≠ .off ∧ s.mem.window ≠ some (s.now / 1024) :=
  ⟨{ tCtl with now := 1024 }, by decide⟩

theorem witness_MemoryCommands_4a : ∃ (s : State) (i : Fin 3) (reported : Nat),
    let p := s.panicIn i.val
    let u := panicReport s i.val reported
    p.on = false ∧ pastMark u i.val = true :=
  ⟨tCtl, 2, 25, by decide⟩

theorem witness_MemoryCommands_4b : ∃ (s : State) (i : Fin 3) (reported : Nat),
    let p := s.panicIn i.val
    let u := panicReport s i.val reported
    p.on = true ∧ backTen u i.val = true :=
  ⟨tCtl.setPanic 0 { level := 80, on := true, since := 0, told := false }, 0, 65, by decide⟩

theorem witness_MemoryCommands_4c : ∃ (s : State) (i : Fin 3),
    let p := s.panicIn i.val
    p.on = true ∧ p.told = false ∧ p.since + 100000 ≤ s.now :=
  ⟨{ tCtl.setPanic 0 { level := 80, on := true, since := 0, told := false } with now := 100000 }, 0, by decide⟩

theorem witness_MemoryCommands_5a : ∃ (s : State) (core : Fin 16) (a : Nat) (op : CoreOp),
    (s.num 0x1400 0 + 0x4000000 ≤ a ∨ a < s.num 0x1400 0) ∧ s.dieUp (4 + core.val / 8) = true ∧ s.dev.st ≠ .off ∧ coreLen op ≠ 0 ∧
    (a < 0xF000000000 ∨ 0xF004000000 ≤ a) ∧ coreReach s a (coreLen op) = false :=
  ⟨tCtl, 15, 0x1000000000, .load 8, by decide⟩

theorem witness_MemoryCommands_5c : ∃ (s : State) (core : Fin 16) (a : Nat) (op : CoreOp),
    (s.num 0x1400 0 + 0x4000000 ≤ a ∨ a < s.num 0x1400 0) ∧ s.dieUp (4 + core.val / 8) = true ∧ s.dev.st ≠ .off ∧ coreLen op ≠ 0 ∧
    (a < 0xF000000000 ∨ 0xF004000000 ≤ a) ∧ coreReach s a (coreLen op) = true ∧ coreCut s core.val a (coreLen op) = true :=
  ⟨tCtl, 0, 0xFFFFFFFF8, .load 8, by decide⟩

theorem witness_MemoryCommands_5b : ∃ (s : State) (core : Fin 16) (a : Nat) (op : CoreOp),
    (s.num 0x1400 0 + 0x4000000 ≤ a ∨ a < s.num 0x1400 0) ∧ s.dieUp (4 + core.val / 8) = true ∧ s.dev.st ≠ .off ∧ coreLen op ≠ 0 ∧
    (a < 0xF000000000 ∨ 0xF004000000 ≤ a) ∧ coreReach s a (coreLen op) = true ∧ coreCut s core.val a (coreLen op) = false ∧
    (coreLineList a (coreLen op) = [] ∨ (∀ c ∈ s.mem.coreHeld, c.1 ≠ core.val)) :=
  ⟨tCtl.setLink 7 { Link.fresh with up := true }, 0, 0xFFFFFFFF8, .store (List.replicate 8 1), by decide⟩

theorem witness_MemoryCommands_5d : ∃ (s : State) (core : Fin 16) (a : Nat) (op : CoreOp),
    (s.num 0x1400 0 + 0x4000000 ≤ a ∨ a < s.num 0x1400 0) ∧ s.dieUp (4 + core.val / 8) = true ∧ s.dev.st ≠ .off ∧ coreLen op ≠ 0 ∧
    (a < 0xF000000000 ∨ 0xF004000000 ≤ a) ∧ coreReach s a (coreLen op) = true ∧ coreCut s core.val a (coreLen op) = false ∧
    coreLineList a (coreLen op) ≠ [] ∧ (∃ c ∈ s.mem.coreHeld, c.1 = core.val) :=
  ⟨{ tCtl.setLink 7 { Link.fresh with up := true } with mem := { tCtl.mem with coreHeld := [(0, 0, .load 8, 0)] } }, 0, 0xFFFFFFFF8, .load 8, by decide⟩

theorem witness_IssueTakesOneRequest_1 : ∃ (s : State) (n : Fin 4) (pc : Fin 32),
    s.mem.ingress = [] ∧ s.sense.inbuf = [] ∧ s.chord.fw.waiting = [] ∧ s.mem.coreHeld = [] ∧ refUrgent s n.val pc.val = false ∧
    s.queue (32 * n.val + pc.val) ≠ [] :=
  ⟨tCtl, 0, 0, by decide⟩

theorem witness_IntegrityCommands_1 : ∃ (s : State) (st : Store) (line : Nat),
    scrubs s st = true ∧ scrubLine s st = some line :=
  ⟨(tDev .operational), .localStore 455, 0, by decide⟩

theorem witness_IntegrityCommands_2 : ∃ (s : State) (st : Store) (a : Nat),
    let k := storeKey st
    let x := s.scrub k
    (match st with | .dram _ => x.wb.contains (a / 64) = true | .hubSram _ => x.wb.contains (a / 64) = true | .localStore f => (s.facet f).wb.contains (a / 64) = true) :=
  ⟨(tDev .operational).setScrub 5 { Scrub.fresh with wb := [3] }, .hubSram 1, 0xC0, by decide⟩

theorem witness_IntegrityCommands_3 : ∃ (s : State) (n : Fin 4) (a : Nat),
    let k := storeKey (.dram n)
    let x := s.scrub k
    x.qualify.contains (a / 64) = true ∧ x.remaps.length < 64 :=
  ⟨(tDev .operational).setScrub 3 { Scrub.fresh with qualify := [9] }, 3, 0x240, by decide⟩

theorem witness_IntegrityCommands_4 : ∃ (s : State) (f : Nat) (a : Nat),
    let k := storeKey (.localStore f)
    let x := s.scrub k
    x.qualify.contains (a / 8) = true ∧ x.remaps.length < 16 :=
  ⟨(tDev .operational).setScrub 6 { Scrub.fresh with qualify := [9] }, 0, 0x48, by decide⟩

theorem witness_IntegrityCommands_5 : ∃ (s : State) (st : Store),
    let k := storeKey st
    let x := s.scrub k
    let c := storeCode st
    x.next ≠ 0 ∧ x.told = false ∧ x.start + 1000000 * s.num 0x3809 c.1 < s.now :=
  ⟨{ (tDev .operational).setScrub 0 { Scrub.fresh with next := 1 } with now := 120000000001 }, .dram 0, by decide⟩

theorem witness_IntegrityCommands_6 : ∃ (s : State) (h : Nat) (i : Nat) (x : Slot),
    started s h 0x90 i x :=
  ⟨tCmd (tDev .operational) 0x90 0, 5, 5, tSlot 0x90 0, by decide +kernel⟩

theorem witness_LinkCommands_1a : ∃ (s : State) (l : Fin 14) (d : Fin 2) (b : List Byte),
    let good := crc64 (b.take 248) == leAt b 248 8
    linkUp s l.val = true ∧ b.length = 256 ∧ sendable s l.val d.val b good = true ∧ good = false :=
  ⟨tLink LinkDir.start, 11, 1, List.replicate 256 0, by decide +kernel⟩

theorem witness_LinkCommands_1b : ∃ (s : State) (l : Fin 14) (d : Fin 2) (b : List Byte),
    let good := crc64 (b.take 248) == leAt b 248 8
    linkUp s l.val = true ∧ b.length = 256 ∧ sendable s l.val d.val b good = true ∧ good = true ∧ flitReserved b = true ∧ (¬ (l = 13 ∧ d = 1)) :=
  ⟨tLink LinkDir.start, 11, 1, tFlit 64 0 0, by decide +kernel⟩

theorem witness_LinkCommands_1c : ∃ (s : State) (l : Fin 14) (d : Fin 2) (b : List Byte),
    let x := s.dir l.val d.val
    let h := flitHead b
    let q := nbits h 36 12
    let good := crc64 (b.take 248) == leAt b 248 8
    let due := q = (if flitIdle b then (x.expect + 4095) % 4096 else x.expect)
    linkUp s l.val = true ∧ b.length = 256 ∧ sendable s l.val d.val b good = true ∧ good = true ∧ flitReserved b = false ∧ (¬ (l = 13 ∧ d = 1)) ∧ due :=
  ⟨tLink LinkDir.start, 11, 1, tFlit 0 4095 0, by decide +kernel⟩

theorem witness_LinkCommands_1d : ∃ (s : State) (l : Fin 14) (d : Fin 2) (b : List Byte),
    let x := s.dir l.val d.val
    let h := flitHead b
    let q := nbits h 36 12
    let good := crc64 (b.take 248) == leAt b 248 8
    let due := q = (if flitIdle b then (x.expect + 4095) % 4096 else x.expect)
    linkUp s l.val = true ∧ b.length = 256 ∧ sendable s l.val d.val b good = true ∧ good = true ∧ flitReserved b = false ∧ (¬ (l = 13 ∧ d = 1)) ∧ due :=
  ⟨tLink LinkDir.start, 11, 1, tFlit 1 0 (2 ^ 68), by decide +kernel⟩

theorem witness_LinkCommands_1e : ∃ (s : State) (l : Fin 14) (d : Fin 2) (b : List Byte),
    let x := s.dir l.val d.val
    let h := flitHead b
    let q := nbits h 36 12
    let good := crc64 (b.take 248) == leAt b 248 8
    let due := q = (if flitIdle b then (x.expect + 4095) % 4096 else x.expect)
    linkUp s l.val = true ∧ b.length = 256 ∧ sendable s l.val d.val b good = true ∧ good = true ∧ l = 13 ∧ d = 1 ∧ due :=
  ⟨tGuest.modDir 13 1 fun _ => LinkDir.start, 13, 1, tFlit 65 0 (2 ^ 68), by decide +kernel⟩

theorem witness_LinkCommands_1f : ∃ (s : State) (l : Fin 14) (d : Fin 2) (b : List Byte),
    let x := s.dir l.val d.val
    let h := flitHead b
    let q := nbits h 36 12
    let good := crc64 (b.take 248) == leAt b 248 8
    let due := q = (if flitIdle b then (x.expect + 4095) % 4096 else x.expect)
    linkUp s l.val = true ∧ b.length = 256 ∧ sendable s l.val d.val b good = true ∧ good = true ∧ (flitReserved b = false ∨ (l = 13 ∧ d = 1)) ∧
    (¬ due) :=
  ⟨tLink LinkDir.start, 11, 1, tFlit 1 5 (2 ^ 68), by decide +kernel⟩

theorem witness_LinkCommands_2 : ∃ (s : State) (l : Fin 14) (d : Fin 2) (t : Nat),
    (s.dir l.val d.val).nak = some t ∧ linkUp s l.val = true ∧ t + 2000 ≤ s.now :=
  ⟨{ tLink { LinkDir.start with nak := some 0 } with now := 2000 }, 11, 0, 0, by decide⟩

theorem witness_LinkCommands_3 : ∃ (s : State) (l : Fin 14) (d : Fin 2),
    linkUp s l.val = true ∧ (s.dir l.val d.val).unacked ≠ [] ∧ (s.dir l.val d.val).ackAt + 2000 ≤ s.now :=
  ⟨{ tLink { LinkDir.start with unacked := [(4095, [])] } with now := 2000 }, 11, 0, by decide⟩

theorem witness_LinkCommands_4 : ∃ (s : State) (l : Fin 14),
    linkUp s l.val = true ∧ l ≠ 13 :=
  ⟨tLink LinkDir.start, 11, by decide⟩

theorem witness_LinkCommands_5 : ∃ (s : State),
    linkUp s 13 = true :=
  ⟨tGuest, by decide⟩

theorem witness_LinkCommands_6 : ∃ (s : State) (d : Fin 40),
    s.dev.st ≠ .off ∧ nbit s.dev.pll d.val = true :=
  ⟨{ tDev .boot with dev := { (tDev .boot).dev with pll := 2 ^ 39 } }, 39, by decide⟩

theorem witness_StreamCommands_1a : ∃ (s : State) (hub : Fin 2) (n : Nat) (value : List Byte),
    entryStatus s hub.val none true 0x2100 n = 0 ∧ n < 128 ∧ value.length = 32 ∧ strOn (s.stream n) = false ∧ strOn (ofBytes value) = false :=
  ⟨tStream, 0, 0, toBytes 32 0, by decide +kernel⟩

theorem witness_StreamCommands_1b : ∃ (s : State) (hub : Fin 2) (n : Nat) (value : List Byte),
    entryStatus s hub.val none true 0x2100 n = 0 ∧ n < 128 ∧ value.length = 32 ∧ strOn (s.stream n) = false ∧ strOn (ofBytes value) = true ∧
    (strCheck s n (ofBytes value)).1 = 0 :=
  ⟨tStream.setOcts 0x2100 127 [], 1, 127, toBytes 32 tStr, by decide +kernel⟩

theorem witness_StreamCommands_2a : ∃ (s : State) (hub : Fin 2) (b : Fin 2) (n : Nat) (v : List Byte) (c : Instr × Nat × Nat),
    let st := entryStatus s hub.val none true c.2.1 c.2.2
    c ∈ [(.strEntryWrite hub n v, 0x2100, n), (.fusBindWrite hub b v, 0x2400, b.val), (.calRecWrite hub b n v, 0x2408 + b.val, n)] ∧ st ≠ 0 :=
  ⟨tDev .boot, 0, 0, 0, [], (.strEntryWrite 0 0 [], 0x2100, 0), by decide +kernel⟩

theorem witness_StreamCommands_2b : ∃ (s : State) (hub : Fin 2) (b : Fin 2) (n : Nat) (v : List Byte) (c : Instr × Nat × Nat),
    let st := entryStatus s hub.val none true c.2.1 c.2.2
    c ∈ [(.strEntryWrite hub n v, 0x2100, n), (.fusBindWrite hub b v, 0x2400, b.val), (.calRecWrite hub b n v, 0x2408 + b.val, n)] ∧ st ≠ 0 :=
  ⟨tTrained .operational 4, 1, 1, 0, [], (.fusBindWrite 1 1 [], 0x2400, 1), by decide +kernel⟩

theorem witness_StreamCommands_2c : ∃ (s : State) (hub : Fin 2) (b : Fin 2) (n : Nat) (v : List Byte) (c : Instr × Nat × Nat),
    let st := entryStatus s hub.val none true c.2.1 c.2.2
    c ∈ [(.strEntryWrite hub n v, 0x2100, n), (.fusBindWrite hub b v, 0x2400, b.val), (.calRecWrite hub b n v, 0x2408 + b.val, n)] ∧ st ≠ 0 :=
  ⟨tTrained .config 4, 1, 1, 48, [], (.calRecWrite 1 1 48 [], 0x2409, 48), by decide +kernel⟩

theorem witness_StreamCommands_3 : ∃ (s : State) (h : Nat) (i : Nat) (x : Slot),
    started s h 0xB0 i x ∧ x.sector = 0 :=
  ⟨tCmd (tDev .operational) 0xB0 0, 5, 5, tSlot 0xB0 0, by decide +kernel⟩

theorem witness_StreamCommands_4 : ∃ (s : State) (port : Fin 16),
    portUp s port.val = true :=
  ⟨tStream, 15, by decide +kernel⟩

theorem witness_StreamCommands_5 : ∃ (s : State) (port : Fin 16),
    portUp s port.val = true :=
  ⟨tStream, 15, by decide +kernel⟩

theorem witness_StreamCommands_6 : ∃ (s : State) (n : Nat) (f : Frame),
    tfind s.sense.frames n = some f ∧ strTmo f.raw ≠ 0 ∧ f.tfs + strTmo f.raw ≤ s.now :=
  ⟨{ tFrames with now := 100000 }, 127, tFrame, by decide +kernel⟩

theorem witness_StreamCommands_7 : ∃ (s : State) (port : Fin 16),
    portUp s port.val = true :=
  ⟨tStream, 15, by decide +kernel⟩

theorem witness_StreamCommands_8 : ∃ (s : State) (port : Fin 16) (p : LongPacket) (n : Nat) (f : Frame),
    let s1 := (onChannel s port.val p.vc).foldl expireFrame s
    portUp s port.val = true ∧ p.hdrOk = true ∧ (onChannel s1 port.val p.vc).find? (fun n => strDt (s1.stream n) == p.dt) = some n ∧
    tfind s1.sense.frames n = some f :=
  ⟨tFrames, 15, tPacket true, 127, tFrame, by decide +kernel⟩

theorem witness_StreamCommands_9 : ∃ (s : State) (port : Fin 16) (p : LongPacket),
    portUp s port.val = true ∧ p.hdrOk = false :=
  ⟨tFrames, 15, tPacket false, by decide +kernel⟩

theorem witness_StreamCommands_10 : ∃ (s : State) (h : Nat) (i : Nat) (x : Slot),
    started s h 0xB2 i x :=
  ⟨tCmd (tDev .operational) 0xB2 0, 5, 5, tSlot 0xB2 0, by decide +kernel⟩

theorem witness_StreamCommands_11 : ∃ (s : State) (port : Fin 4) (h : Nat) (x : Slot),
    nextTx s port.val = some (h, x) ∧ nbit (txPort s port.val) 0 = true ∧ s.dieUp (4 + port.val / 2) = true ∧ tornCmd s h 0xB2 = none :=
  ⟨tPort.setSlot 5 { tSlot 0xB2 3 with cmd := .waiting }, 3, 5, { tSlot 0xB2 3 with cmd := .waiting }, by decide +kernel⟩

theorem witness_FrameRecordFinalCompletes_1a : ∃ (s : State) (n : Nat) (m : Nat) (i : Nat) (f : Frame),
    let o := slotAt f 0
    let unit := refUnit (strNotify f.raw)
    s.sense.closing.find? (fun p => p.1 == n) = some (m, f) ∧ lfind (fun p : Nat × Frame => p.1 == n) s.sense.closing = some i ∧
    (∀ l ∈ s.sense.inbuf, l.entry ≠ n ∨ l.tfs ≠ f.tfs) ∧ hubReach s (frameHub f) o = true ∧ roomFor (s.queue (queueOf o)) (frameHub f) = true ∧
    (strNotify f.raw = 0 ∨ routeUp s (4 + frameHub f) unit = false) :=
  ⟨tClosed tStr, 127, 127, 0, tFrame, by decide +kernel⟩

theorem witness_FrameRecordFinalCompletes_1b : ∃ (s : State) (n : Nat) (m : Nat) (i : Nat) (f : Frame),
    let o := slotAt f 0
    let unit := refUnit (strNotify f.raw)
    s.sense.closing.find? (fun p => p.1 == n) = some (m, f) ∧ lfind (fun p : Nat × Frame => p.1 == n) s.sense.closing = some i ∧
    (∀ l ∈ s.sense.inbuf, l.entry ≠ n ∨ l.tfs ≠ f.tfs) ∧ hubReach s (frameHub f) o = true ∧ roomFor (s.queue (queueOf o)) (frameHub f) = true ∧
    strNotify f.raw ≠ 0 ∧ routeUp s (4 + frameHub f) unit = true ∧ unitTakes s unit (0xC00 + n) = true :=
  ⟨tClosed (tStr + 5 * 2 ^ 160), 127, 127, 0, { tFrame with raw := tStr + 5 * 2 ^ 160 }, by decide +kernel⟩

theorem witness_FusionCommands_1 : ∃ (s : State) (hub : Fin 2) (b : Fin 2) (value : List Byte),
    let r := ofBytes value
    let areas := (bindAreas r).map fun a => latchPages s (bindSector r) a.1 a.2 true
    entryStatus s hub.val none true 0x2400 b.val = 0 ∧ value.length = 128 ∧ bindShape r = true ∧ (s.sec (bindSector r)).st = .active ∧
    (∀ a ∈ areas, a.isSome = true) :=
  ⟨tMap (tTrained .config 4), 0, 0, tBind, by decide +kernel⟩

theorem witness_FusionCommands_2a : ∃ (s : State) (hub : Fin 2) (b : Fin 2) (i : Nat) (value : List Byte),
    let r := ofBytes value
    entryStatus s hub.val none true (0x2408 + b.val) i = 0 ∧ value.length = 64 ∧ i < 48 ∧ calOk r = true :=
  ⟨tTrained .config 4, 0, 0, 47, toBytes 64 (0x3F800000 + 0x3F800000 * 2 ^ 32), by decide +kernel⟩

theorem witness_FusionCommands_2b : ∃ (s : State) (hub : Fin 2) (b : Fin 2) (i : Nat) (value : List Byte),
    let r := ofBytes value
    entryStatus s hub.val none true (0x2408 + b.val) i = 0 ∧ value.length = 64 ∧ i < 48 ∧ calOk r = true :=
  ⟨tTrained .config 4, 0, 1, 0, toBytes 64 (2 ^ 320), by decide +kernel⟩

theorem witness_FusionCommands_3peLift : ∃ (s : State) (h : Nat) (i : Nat) (x : Slot) (p : PeBuf) (c : Instr × Nat × Bool),
    c ∈ [(.peLift h, 0xA0, false), (.peVoxel h, 0xA1, true)] ∧ started s h c.2.1 i x ∧ peTake s x c.2.2 = some p ∧
    (∀ a ∈ peReads c.2.2 x.body, pagedBad s x.pages a.1 a.2 = false) :=
  ⟨tCmd (tDev .operational) 160 (2 ^ 106), 5, 5, tSlot 160 (2 ^ 106), peLayout false (tSlot 160 (2 ^ 106)).body 0, (.peLift 5, 160, false), by decide +kernel⟩

theorem witness_FusionCommands_3peVoxel : ∃ (s : State) (h : Nat) (i : Nat) (x : Slot) (p : PeBuf) (c : Instr × Nat × Bool),
    c ∈ [(.peLift h, 0xA0, false), (.peVoxel h, 0xA1, true)] ∧ started s h c.2.1 i x ∧ peTake s x c.2.2 = some p ∧
    (∀ a ∈ peReads c.2.2 x.body, pagedBad s x.pages a.1 a.2 = false) :=
  ⟨tCmd (tDev .operational) 161 (2 ^ 175), 5, 5, tSlot 161 (2 ^ 175), peLayout true (tSlot 161 (2 ^ 175)).body 0, (.peVoxel 5, 161, true), by decide +kernel⟩

theorem witness_FusionCommands_4 : ∃ (s : State) (h : Nat) (i : Nat) (x : Slot),
    started s h 0xA2 i x ∧ (∀ r ≤ fld x.body 0 9, pagedBad s x.pages (solveRow x r) (solveWidth x) = false) :=
  ⟨tCmd (tDev .operational) 0xA2 0, 5, 5, tSlot 0xA2 0, by decide +kernel⟩

theorem witness_FusionCommands_5 : ∃ (s : State) (b : Fin 2) (i : Nat),
    s.operating = true ∧ s.atBoundary = true ∧ s.sched.closed * s.tickNs < s.now ∧ i < 48 ∧ bindOn (s.binding b.val) = true ∧
    (s.sensor b.val i).out = 1 :=
  ⟨{ ((tDev .operational).setOcts 0x2400 1 [1]).setSensor 1 47 { Sensor.zero with out := 1 } with now := 1000000 }, 1, 47, by decide +kernel⟩

theorem witness_GatewayCommands_1 : ∃ (s : State) (hub : Fin 2),
    hubUp s hub.val = true :=
  ⟨tQueues, 1, by decide⟩

theorem witness_GatewayCommands_2a : ∃ (s : State) (n : Nat),
    let st := entryStatus s (if n < 6 then 0 else 1) none true 0x4C11 n
    st ≠ 0 :=
  ⟨tDev .boot, 0, by decide +kernel⟩

theorem witness_GatewayCommands_2b : ∃ (s : State) (n : Nat) (value : List Byte),
    let st := entryStatus s (if n < 6 then 0 else 1) none true 0x4C11 n
    st = 0 ∧ n < 12 ∧ qbvOk value = true :=
  ⟨tTrained .operational 4, 11, tGates, by decide +kernel⟩

theorem witness_GatewayCommands_3 : ∃ (s : State) (n : Nat) (start : Nat) (run : List Byte) (l : List Byte),
    tfind s.host.gates n = some (run, some (l, start)) ∧ (start : Int) ≤ gptp s (n / 6) s.now :=
  ⟨{ tQueues with host := { tQueues.host with gates := [(11, ([], some (tGates, 0)))] } }, 11, 0, [], tGates, by decide +kernel⟩

theorem witness_GatewayCommands_4 : ∃ (s : State) (hub : Fin 2) (q : Fin 8) (i : Nat),
    hubUp s hub.val = true ∧ queueOn s hub.val q.val = true ∧ tfind s.host.txBusy (8 * hub.val + q.val) = none ∧
    ownedFrom s hub.val q.val (tget s.host.txAt (8 * hub.val + q.val) 0) = some i :=
  ⟨tQueues, 0, 7, 0, by decide +kernel⟩

theorem witness_GatewayCommands_5 : ∃ (s : State) (hub : Fin 2) (q : Fin 8) (i : Nat) (bad : Bool),
    let s0 := drainGates s
    hubUp s0 hub.val = true ∧ tfind s0.host.txBusy (8 * hub.val + q.val) = some (i, bad) ∧
    (∀ x ∈ s0.host.leaving, x.hub = hub.val → x.queue ≠ some q.val) :=
  ⟨{ tQueues with host := { tQueues.host with txBusy := [(7, (63, true))] } }, 0, 7, 63, true, by decide +kernel⟩

theorem witness_GatewayCommands_6 : ∃ (s : State) (c : Fin 12) (i : Nat),
    canOn s c.val = true ∧
    (sortBy (fun i => slotField s (c.val / 6) (canSlot s c.val i) 4 4) ((List.range 32).filter (canReady s c.val))).head? = some i :=
  ⟨tCan, 11, 0, by decide +kernel⟩

theorem witness_GatewayCommands_7 : ∃ (s : State) (b : Fin 32) (p : Pdu),
    tfind s.host.pdus b.val = some p ∧ p.opened + 1000 * leAt (bridgeCfg s b.val) 18 2 ≤ s.now :=
  ⟨{ tBridge with host := { tBridge.host with pdus := [(31, { opened := 0, frames := [] })] } }, 31, { opened := 0, frames := [] }, by decide +kernel⟩

theorem witness_GatewayCommands_8 : ∃ (s : State) (c : Fin 12) (f : CanFrame),
    canOn s c.val = true ∧ canFormat f = true :=
  ⟨tCan, 11, { flags := 4, sdt := 0, vcid := 0, ident := 1, af := 0, data := List.replicate 2048 0, fifo := 0, admitted := true }, by decide +kernel⟩

theorem witness_GatewayCommands_9a : ∃ (s : State) (hub : Fin 2) (dest : BitVec 48) (src : BitVec 48) (rest : List Byte),
    let frame := ethFrame dest src rest
    let r := rxQueue s hub.val frame
    hubUp s hub.val = true ∧ rest.length ≤ 9204 ∧ r.1 = none :=
  ⟨tFilter, 1, 0, 0, tStreamFrame, by decide +kernel⟩

theorem witness_GatewayCommands_9b : ∃ (s : State) (hub : Fin 2) (dest : BitVec 48) (src : BitVec 48) (rest : List Byte) (q : Nat),
    let frame := ethFrame dest src rest
    let r := rxQueue s hub.val frame
    hubUp s hub.val = true ∧ rest.length ≤ 9204 ∧ r.1 = some q ∧ bridged r.2 hub.val frame = none :=
  ⟨tQueues, 0, 0, 0, List.replicate 9204 0, 0, by decide +kernel⟩

theorem witness_GatewayCommands_9c : ∃ (s : State) (hub : Fin 2) (dest : BitVec 48) (src : BitVec 48) (rest : List Byte) (q : Nat) (b : Nat) (payload : List Byte),
    let frame := ethFrame dest src rest
    let r := rxQueue s hub.val frame
    hubUp s hub.val = true ∧ rest.length ≤ 9204 ∧ r.1 = some q ∧ bridged r.2 hub.val frame = some (b, payload) :=
  ⟨tBridge, 1, 0, 0, tStreamFrame, 0, 31, [], by decide +kernel⟩

theorem witness_SecurityCommands_1 : ∃ (s : State) (h : Nat) (i : Nat) (x : Slot),
    started s h 0xE0 i x ∧ pagedBad s x.pages (fld x.body 320 64) (fld x.body 288 32) = false :=
  ⟨tCmd (tDev .operational) 0xE0 0, 5, 5, tSlot 0xE0 0, by decide +kernel⟩

theorem witness_SecurityCommands_2 : ∃ (s : State) (h : Nat) (i : Nat) (x : Slot),
    started s h 0xE1 i x ∧ updAt s (handleOf i x) = none ∧ updBusy s (fld x.body 0 2) (handleOf i x) = false ∧
    pagedBad s x.pages (fld x.body 320 64) (fld x.body 288 32) = false ∧ s.octs 0x4803 0 ≠ [] ∧ fwIdentity (updImage s x) = s.octs 0x4803 0 ∧
    (updImage s x).length = fwClen (updImage s x) + 3309 :=
  ⟨tCmd tStaged 0xE1 (3309 * 2 ^ 288), 5, 5, tSlot 0xE1 (3309 * 2 ^ 288), by decide +kernel⟩

theorem witness_SecurityCommands_3 : ∃ (s : State) (h : Nat) (i : Nat) (x : Slot),
    started s h 0xE2 i x :=
  ⟨tCmd (tDev .operational) 0xE2 0, 5, 5, tSlot 0xE2 0, by decide +kernel⟩

theorem witness_SecurityCommands_4a : ∃ (s : State) (via : Option Nat) (n : Nat) (value : List Byte),
    s.dev.st ∈ [DevState.config, .operational] ∧ n < 15 ∧ (∀ k, via = some k → nbit (s.keySlot k).mask 2 = true) ∧ value = [] :=
  ⟨(tDev .config).setKeySlot 3 { KeySlot.empty with installed := true, mask := 4 }, some 3, 14, [], by decide, by decide, fun k h => by cases h; decide, rfl⟩

theorem witness_SecurityCommands_4b : ∃ (s : State) (via : Option Nat) (n : Nat) (value : List Byte),
    s.dev.st ∈ [DevState.config, .operational] ∧ n < 15 ∧ (∀ k, via = some k → nbit (s.keySlot k).mask 2 = true) ∧ value.length = 48 ∧
    leAt value 39 1 < 8 ∧ leAt value 40 8 = 0 ∧ ((s.keySlot n).installed = true → leAt value 36 3 ≠ (s.keySlot n).gen) :=
  ⟨(tDev .operational).setKeySlot 14 { KeySlot.empty with installed := true, gen := 1 }, none, 14, toBytes 48 (2 ^ 288 * 2), by decide, by decide, by simp, by decide +kernel⟩

theorem witness_SecurityCommands_5 : ∃ (s : State) (hub : Fin 2) (value : List Byte),
    recovering s hub.val = true ∧ value.drop 8 ≠ [] ∧ (value.drop 8).length ≤ 1016 ∧ leAt value 0 8 + (value.drop 8).length ≤ 0x600000 :=
  ⟨(tDev .boot).modHub 1 fun x => { x with phase := 14 }, 1, toBytes 8 0x5FFFFF ++ [1], by decide +kernel⟩

theorem witness_SupplyAndReset_1 : ∃ (s : State),
    s.dev.pwrgd = false :=
  ⟨State.reset, by decide⟩

theorem witness_SupplyAndReset_2 : ∃ (s : State),
    s.dev.pwrgd = true :=
  ⟨tUp .operational 4, by decide⟩

theorem witness_SupplyAndReset_3a : ∃ (s : State) (lowNs : Nat),
    10000 ≤ lowNs ∧ s.dev.st ≠ .off ∧ s.dev.thermtrip = false ∧ s.plant.coolant.survival = none :=
  ⟨tUp .operational 4, 10000, by decide⟩

theorem witness_SupplyAndReset_3b : ∃ (s : State) (lowNs : Nat),
    10000 ≤ lowNs ∧ s.dev.st ≠ .off ∧ s.dev.thermtrip = false ∧ s.plant.coolant.survival ≠ none :=
  ⟨tLoop { Coolant.fresh with survival := some 0 } 1, 10000, by decide⟩

theorem witness_BootCommands_1a : ∃ (s : State) (seat : Fin 7),
    let s0 := if s.dev.st = .safe then setDevState s .boot else s
    mayLeave s seat.val = true ∧ (seat.val < 6 → seatOk s0 seat.val = true) :=
  ⟨{ tDev .boot with dev := { (tDev .boot).dev with rstin := false } }, 5, by decide +kernel⟩

theorem witness_BootCommands_1b : ∃ (s : State) (seat : Fin 7),
    let s0 := if s.dev.st = .safe then setDevState s .boot else s
    mayLeave s seat.val = true ∧ (seat.val < 6 → seatOk s0 seat.val = true) :=
  ⟨{ tUp .boot 1 with dev := { (tUp .boot 1).dev with prst := [true, true, true, true] } }, 3, by decide +kernel⟩

theorem witness_BootCommands_2 : ∃ (s : State) (hub : Fin 2),
    (s.hubBoot hub.val).phase = 1 ∧ (∀ k < 6, seatOk s k = true) :=
  ⟨tUp .boot 1, 1, by decide +kernel⟩

theorem witness_BootCommands_3 : ∃ (s : State),
    hasImage (s.hubBoot 0) = true ∧ hasImage (s.hubBoot 1) = true ∧ ((s.hubBoot 0).phase = 2 ∨ (s.hubBoot 1).phase = 2) ∧ linkUp s 12 = true ∧
    (s.hubBoot 0).image = (s.hubBoot 1).image :=
  ⟨tTrained .boot 2, by decide⟩

theorem witness_BootCommands_4 : ∃ (s : State) (n : Fin 4),
    s.dev.st = .boot ∧ lget s.dev.mrst n.val true = false ∧ nbit (s.num 0x3400 n.val) 0 = false :=
  ⟨tUp .boot 3, 3, by decide +kernel⟩

theorem witness_BootCommands_5 : ∃ (s : State) (l : Fin 14) (r : LinkTraining) (p : PeerId),
    let s0 := s.setLink l.val { s.link l.val with due := false }
    r ≠ .failed ∧ s.dev.st ≠ .off ∧ linkUp s l.val = false ∧ (s.link l.val).due = true ∧ inReset s (linkEnds l.val).1 = false ∧
    inReset s (linkEnds l.val).2 = false ∧ peerOk s0 l.val p = true :=
  ⟨(tUp .boot 3).setLink 13 { Link.fresh with due := true }, 13, .trained, { seat := 6, serial := 1, gid := 1 }, by decide +kernel⟩

theorem witness_BootCommands_6 : ∃ (s : State) (d : Fin 4),
    (s.scope d.val).st = 1 ∧ (s.scope d.val).ready = false ∧ (s.scope (4 + halfOf d.val)).st ≠ 1 ∧ lget s.dev.prst d.val true = false ∧
    tfind s.plant.trips d.val = none ∧ restarting s .device = false ∧ linksTried s [d.val] = true :=
  ⟨tScopes (tUp .degraded 4) [0, 0, 0, 1, 0, 0], 3, by decide⟩

theorem witness_BootCommands_7 : ∃ (s : State),
    s.dev.st = .boot ∧ (s.hubBoot 0).phase = 3 ∧ (s.hubBoot 1).phase = 3 ∧ (∀ b ∈ s.dev.prst, b = false) ∧ s.dev.rstin = false ∧
    (∀ n < 4, nbit (s.num 0x3400 n) 0 = true) ∧ s.plant.trips = [] ∧ s.plant.gated = false ∧ linksTried s [0, 1, 2, 3, 4, 5] = true :=
  ⟨tTrained .boot 3, by decide +kernel⟩

theorem witness_PowerAndThermalCommands_1a : ∃ (s : State) (r : Fin 8) (up : Bool),
    periodDue s (16 + r.val) 10000 = true ∧ wantsStep s r.val up = true :=
  ⟨{ tDev .operational with plant := { State.reset.plant with setpoint := List.replicate 8 0 } }, 0, true, by decide +kernel⟩

theorem witness_PowerAndThermalCommands_1b : ∃ (s : State) (r : Fin 8) (up : Bool),
    periodDue s (16 + r.val) 10000 = true ∧ wantsStep s r.val up = true :=
  ⟨{ tDev .operational with plant := { State.reset.plant with setpoint := List.replicate 8 5000 } }, 7, false, by decide +kernel⟩

theorem witness_PowerAndThermalCommands_2 : ∃ (s : State) (r : Fin 8),
    periodDue s (24 + r.val) 100000 = true :=
  ⟨tDev .operational, 7, by decide +kernel⟩

theorem witness_PowerAndThermalCommands_3 : ∃ (s : State) (r : Fin 8) (t : Nat),
    s.dev.st ≠ .off ∧ tfind s.plant.railBad r.val = some t ∧ t + 1000000 ≤ s.now ∧ tfind s.plant.railBad (64 + r.val) = none :=
  ⟨tHot 1000000, 7, 0, by decide +kernel⟩

theorem witness_PowerAndThermalCommands_5 : ∃ (s : State),
    periodDue s 0 100000 = true :=
  ⟨tDev .operational, by decide +kernel⟩

theorem witness_PowerAndThermalCommands_6 : ∃ (s : State),
    periodDue s 1 100000 = true :=
  ⟨tDev .operational, by decide +kernel⟩

theorem witness_PowerAndThermalCommands_7 : ∃ (s : State) (k : Nat) (t : Nat),
    let x := s.spot k
    x.differ = some t ∧ x.suspect = false ∧ t + 100000000 ≤ s.now :=
  ⟨{ (tDev .operational).setSpot 531 { State.reset.spot 0 with differ := some 0 } with now := 100000000 }, 531, 0, by decide +kernel⟩

theorem witness_PowerAndThermalCommands_8 : ∃ (s : State) (k : Nat) (t : Nat),
    (s.spot k).agree = some t ∧ (s.spot k).suspect = true ∧ t + 10000000000 ≤ s.now :=
  ⟨{ (tDev .operational).setSpot 531 { State.reset.spot 0 with agree := some 0, suspect := true } with now := 10000000000 }, 531, 0, by decide +kernel⟩

theorem witness_PowerAndThermalCommands_9 : ∃ (s : State) (k : Nat) (second : Bool),
    let x := s.spot k
    s.dev.st ≠ .off ∧ k < 532 ∧ (second = true → twoSensors k = true) ∧ ((if second then x.bAt else x.aAt) + 1000000 ≤ s.now) :=
  ⟨{ tDev .operational with now := 1000000 }, 531, false, by decide +kernel⟩

theorem witness_PowerAndThermalCommands_10 : ∃ (s : State) (k : Nat),
    s.dev.st ≠ .off ∧ k < 526 ∧ tfind s.plant.trips (spotSeat k) = none :=
  ⟨tDev .operational, 525, by decide +kernel⟩

theorem witness_PowerAndThermalCommands_11 : ∃ (s : State) (seat : Fin 7) (t : Nat) (p : Nat × Spot),
    tfind s.plant.trips seat.val = some t ∧ t + 10000000 ≤ s.now ∧ p ∈ s.plant.spots ∧ p.1 < 526 ∧ spotSeat p.1 = seat.val ∧
    (125 * 16 ≤ p.2.a ∨ 125 * 16 ≤ p.2.b) :=
  ⟨tHot 10000000, 0, 0, (0, { State.reset.spot 0 with a := 2000, b := 2000 }), by decide +kernel⟩

theorem witness_CoolantCommands_1 : ∃ (s : State),
    s.dev.st ≠ .off :=
  ⟨tDev .boot, by decide⟩

theorem witness_CoolantCommands_2 : ∃ (s : State) (r : Int),
    periodDue s 3 1000000 = true ∧ riseRate (periodTaken s 3) = some r :=
  ⟨tLoop { Coolant.fresh with history := [(0, 0, 0)] } 1000000000, (riseRate (periodTaken (tLoop { Coolant.fresh with history := [(0, 0, 0)] } 1000000000) 3)).getD 0, by decide +kernel⟩

theorem witness_CoolantCommands_3 : ∃ (s : State),
    canStop s = true ∧ s.plant.coolant.lastPulse.getD 0 + 200000000 ≤ s.now :=
  ⟨tLoop Coolant.fresh 200000000, by decide +kernel⟩

theorem witness_CoolantCommands_4 : ∃ (s : State),
    let a := evalCoolant s
    let n := stageOf (stagesNow a)
    a.dev.st ≠ .off ∧ a.plant.coolant.survival = none ∧ n ≠ a.num 0x4422 0 :=
  ⟨(tLoop { Coolant.fresh with lastPulse := some 0, interval := 500000 } 1).setNum 0x4422 0 3, by decide +kernel⟩

theorem witness_CoolantCommands_5 : ∃ (s : State) (t : Nat),
    let a := evalCoolant s
    a.plant.coolant.disagree = some t ∧ a.dev.st ≠ .off ∧ t + 10000000000 ≤ a.now ∧ (tfind a.plant.last 4 = none ∨ tget a.plant.last 4 0 < t) :=
  ⟨tDiffers, 0, by decide +kernel⟩

theorem witness_CoolantCommands_6 : ∃ (s : State) (t : Nat) (u : Nat),
    let k := s.plant.coolant
    k.survival = some u ∧ k.okSince = some t ∧ s.dev.thermtrip = false ∧ s.dev.rstin = false ∧ t + 5000000000 ≤ s.now :=
  ⟨tLoop { Coolant.fresh with survival := some 0, okSince := some 0 } 5000000000, 0, 0, by decide +kernel⟩

theorem witness_CoolantCommands_7 : ∃ (s : State) (t : Nat),
    s.plant.coolant.survival = some t ∧ s.dev.thermtrip = false ∧ (t + s.num 0x4426 0 * 1000000000 ≤ s.now ∨ junctionsBelow s 115 = false) :=
  ⟨tLoop { Coolant.fresh with survival := some 0 } 60000000000, 0, by decide +kernel⟩

theorem witness_MeridianCommands_1b : ∃ (s : State) (hub : Fin 2) (r : BitVec 512),
    meridianUp s hub.val = true ∧ hasTaken s hub.val r = false ∧ hasTaken s (1 - hub.val) r = true ∧ linkUp s 12 = true :=
  ⟨{ tTrained .operational 4 with safety := { State.reset.safety with taken := [(0, 5)] } }, 1, 5, by decide +kernel⟩

theorem witness_MeridianCommands_1a : ∃ (s : State) (hub : Fin 2) (r : BitVec 512),
    meridianUp s hub.val = true ∧ hasTaken s hub.val r = false ∧ directRoute s hub.val r = true :=
  ⟨(tTrained .operational 4).setLink 8 { Link.fresh with up := true }, 1, 5, by decide +kernel⟩

theorem witness_MeridianCommands_2 : ∃ (s : State) (hub : Fin 2) (r : BitVec 512),
    hasTaken s hub.val r = true :=
  ⟨{ tTrained .operational 4 with safety := { State.reset.safety with taken := [(0, 5)] } }, 0, 5, by decide +kernel⟩

theorem witness_MeridianCommands_3 : ∃ (s : State) (hub : Fin 2),
    meridianUp s hub.val = true :=
  ⟨tTrained .operational 4, 1, by decide +kernel⟩

theorem witness_MeridianCommands_4 : ∃ (s : State),
    s.dev.st ≠ .off ∧ linkUp s 12 = true :=
  ⟨tTrained .operational 4, by decide +kernel⟩

theorem witness_MeridianCommands_5a : ∃ (s : State) (hub : Fin 2) (id : Nat) (w : TwoK),
    s.host.twoK.find? (fun w => w.id == id) = some w ∧ w.pending = none ∧ ((if hub.val = 0 then w.signW else w.signE) = none) ∧
    meridianUp s hub.val = true ∧ s.now ≤ w.stamp + 10000000 ∧ signs s hub.val = false :=
  ⟨tKeys .boot, 0, 3, tTwoK, by decide +kernel⟩

theorem witness_MeridianCommands_5b : ∃ (s : State) (hub : Fin 2) (id : Nat) (w : TwoK),
    s.host.twoK.find? (fun w => w.id == id) = some w ∧ w.pending = none ∧ ((if hub.val = 0 then w.signW else w.signE) = none) ∧
    meridianUp s hub.val = true ∧ s.now ≤ w.stamp + 10000000 ∧ signs s hub.val = true :=
  ⟨tKeys .operational, 0, 3, tTwoK, by decide +kernel⟩

theorem witness_MeridianCommands_6 : ∃ (s : State) (id : Nat) (w : TwoK),
    s.host.twoK.find? (fun w => w.id == id) = some w ∧ w.pending = none ∧ w.stamp + 10000000 ≤ s.now :=
  ⟨{ tKeys .operational with now := 10000000 }, 3, tTwoK, by decide +kernel⟩

theorem witness_MeridianCommands_7a : ∃ (s : State) (hub : Fin 2) (v : Byte) (c : Instr × Nat × Nat),
    let z := settled s
    c ∈ [(.pxModeWrite hub v, 0x4000, v.toNat), (.devRequestOperational hub, 0x1101, 1), (.devRequestConfig hub, 0x1101, 2), (.bsSvnCommit hub v, 0x4806, v.toNat), (.bsKeyRevoke hub v, 0x4807, v.toNat)] ∧
    entryStatus z hub.val none true c.2.1 0 = 0 ∧ twoKStatus z hub.val c.2.1 c.2.2 = 0 :=
  ⟨tTrained .config 4, 0, 1, (.pxModeWrite 0 1, 0x4000, 1), by decide +kernel⟩

theorem witness_MeridianCommands_7b : ∃ (s : State) (hub : Fin 2) (v : Byte) (c : Instr × Nat × Nat),
    let z := settled s
    c ∈ [(.pxModeWrite hub v, 0x4000, v.toNat), (.devRequestOperational hub, 0x1101, 1), (.devRequestConfig hub, 0x1101, 2), (.bsSvnCommit hub v, 0x4806, v.toNat), (.bsKeyRevoke hub v, 0x4807, v.toNat)] ∧
    entryStatus z hub.val none true c.2.1 0 = 0 ∧ twoKStatus z hub.val c.2.1 c.2.2 = 0 :=
  ⟨tTrained .config 4, 0, 0, (.devRequestOperational 0, 0x1101, 1), by decide +kernel⟩

theorem witness_MeridianCommands_7c : ∃ (s : State) (hub : Fin 2) (v : Byte) (c : Instr × Nat × Nat),
    let z := settled s
    c ∈ [(.pxModeWrite hub v, 0x4000, v.toNat), (.devRequestOperational hub, 0x1101, 1), (.devRequestConfig hub, 0x1101, 2), (.bsSvnCommit hub v, 0x4806, v.toNat), (.bsKeyRevoke hub v, 0x4807, v.toNat)] ∧
    entryStatus z hub.val none true c.2.1 0 = 0 ∧ twoKStatus z hub.val c.2.1 c.2.2 = 0 :=
  ⟨tTrained .operational 4, 0, 0, (.devRequestConfig 0, 0x1101, 2), by decide +kernel⟩

theorem witness_MeridianCommands_7d : ∃ (s : State) (hub : Fin 2) (v : Byte) (c : Instr × Nat × Nat),
    let z := settled s
    c ∈ [(.pxModeWrite hub v, 0x4000, v.toNat), (.devRequestOperational hub, 0x1101, 1), (.devRequestConfig hub, 0x1101, 2), (.bsSvnCommit hub v, 0x4806, v.toNat), (.bsKeyRevoke hub v, 0x4807, v.toNat)] ∧
    entryStatus z hub.val none true c.2.1 0 = 0 ∧ twoKStatus z hub.val c.2.1 c.2.2 = 0 :=
  ⟨tTrained .operational 4, 0, 5, (.bsSvnCommit 0 5, 0x4806, 5), by decide +kernel⟩

theorem witness_MeridianCommands_7e : ∃ (s : State) (hub : Fin 2) (v : Byte) (c : Instr × Nat × Nat),
    let z := settled s
    c ∈ [(.pxModeWrite hub v, 0x4000, v.toNat), (.devRequestOperational hub, 0x1101, 1), (.devRequestConfig hub, 0x1101, 2), (.bsSvnCommit hub v, 0x4806, v.toNat), (.bsKeyRevoke hub v, 0x4807, v.toNat)] ∧
    entryStatus z hub.val none true c.2.1 0 = 0 ∧ twoKStatus z hub.val c.2.1 c.2.2 = 0 :=
  ⟨tTrained .operational 4, 0, 1, (.bsKeyRevoke 0 1, 0x4807, 1), by decide +kernel⟩

theorem witness_FrontCommands_1axbelRead : ∃ (s : State) (hub : Fin 2) (pdu : List Byte) (c : Instr × Nat),
    let z := settled s
    c ∈ [(.axbelRead hub .i3c pdu, 1), (.axbelWrite hub .i3c pdu, 2), (.axbelEcho hub .i3c pdu, 4)] ∧ carriesPdu c.2 pdu = true ∧
    frontUp z hub.val = true ∧ addressed z hub.val = true ∧ sessionFull z hub.val none = false :=
  ⟨tI3c, 0, [], (.axbelRead 0 .i3c [], 1), by decide +kernel⟩

theorem witness_FrontCommands_1axbelWrite : ∃ (s : State) (hub : Fin 2) (pdu : List Byte) (c : Instr × Nat),
    let z := settled s
    c ∈ [(.axbelRead hub .i3c pdu, 1), (.axbelWrite hub .i3c pdu, 2), (.axbelEcho hub .i3c pdu, 4)] ∧ carriesPdu c.2 pdu = true ∧
    frontUp z hub.val = true ∧ addressed z hub.val = true ∧ sessionFull z hub.val none = false :=
  ⟨tI3c, 0, [], (.axbelWrite 0 .i3c [], 2), by decide +kernel⟩

theorem witness_FrontCommands_1axbelEcho : ∃ (s : State) (hub : Fin 2) (pdu : List Byte) (c : Instr × Nat),
    let z := settled s
    c ∈ [(.axbelRead hub .i3c pdu, 1), (.axbelWrite hub .i3c pdu, 2), (.axbelEcho hub .i3c pdu, 4)] ∧ carriesPdu c.2 pdu = true ∧
    frontUp z hub.val = true ∧ addressed z hub.val = true ∧ sessionFull z hub.val none = false :=
  ⟨tI3c, 0, [], (.axbelEcho 0 .i3c [], 4), by decide +kernel⟩

theorem witness_FrontCommands_2a : ∃ (s : State) (hub : Fin 2) (addr : Nat) (port : Nat) (dport : Nat) (bytes : List Byte),
    let src := AxSource.udp addr port dport
    let z := settled s
    carries s 1 src bytes = true ∧ frontUp z hub.val = true ∧ dport = z.num 0x5F08 0 ∧ openDatagram z bytes = none :=
  ⟨tTrained .operational 4, 0, 0, 0, (tTrained .operational 4).num 0x5F08 0, [], by decide +kernel⟩

theorem witness_FrontCommands_2b : ∃ (s : State) (hub : Fin 2) (addr : Nat) (port : Nat) (dport : Nat) (bytes : List Byte) (slot : Nat) (ctr : Nat) (pdu : List Byte),
    let src := AxSource.udp addr port dport
    let z := settled s
    carries s 1 src bytes = true ∧ frontUp z hub.val = true ∧ dport = z.num 0x5F08 0 ∧ openDatagram z bytes = some (slot, ctr, pdu) ∧
    sessionFull (takeCtr z slot ctr) hub.val (some (slot, addr, port)) = false :=
  ⟨tKeyed, 0, 2, 3, tKeyed.num 0x5F08 0, tDatagram, 14, 1, tUnit, by decide +kernel⟩

theorem witness_FrontCommands_4a : ∃ (s : State) (core : Fin 16) (priv : Nat),
    hubUp s (core.val / 8) = true ∧ priv < 3 :=
  ⟨tTrained .operational 4, 15, 2, by decide +kernel⟩

theorem witness_FrontCommands_4b : ∃ (s : State) (core : Fin 16) (priv : Nat),
    hubUp s (core.val / 8) = true ∧ 3 ≤ priv :=
  ⟨tTrained .operational 4, 15, 5, by decide +kernel⟩

theorem witness_FrontCommands_5 : ∃ (s : State) (hub : Fin 2) (x : Session) (u : List Byte) (rest : List (List Byte)),
    frontUp s hub.val = true ∧ addressed s hub.val = true ∧ findSession s hub.val none = some x ∧ x.unread = u :: rest :=
  ⟨{ tI3c with host := { tI3c.host with sessions := [tSession] } }, 0, tSession, [1, 2, 3], [], by decide +kernel⟩

theorem witness_FrontCommands_6a : ∃ (s : State) (hub : Fin 2) (c : Ccc),
    frontUp s hub.val = true ∧ (cccDirect c = true → addressed s hub.val = true) :=
  ⟨tI3c, 0, .getbcr, by decide +kernel⟩

theorem witness_FrontCommands_6b : ∃ (s : State) (hub : Fin 2),
    let b := hdrExit s hub.val
    frontUp s hub.val = true ∧ (b.target hub.val).addr = 0 :=
  ⟨tTrained .operational 4, 1, by decide +kernel⟩

theorem witness_FrontCommands_6c : ∃ (s : State) (hub : Fin 2),
    frontUp s hub.val = true ∧ addressed s hub.val = true :=
  ⟨tI3c, 0, by decide +kernel⟩

theorem witness_FrontCommands_7 : ∃ (s : State) (hub : Fin 2) (i : Ibi) (rest : List Ibi),
    lget s.host.ibis hub.val [] = i :: rest ∧ frontUp s hub.val = true ∧ recovering s hub.val = false ∧ (s.target hub.val).addr ≠ 0 ∧
    nbit (s.target hub.val).events 0 = false ∧ i.handle = none :=
  ⟨{ (tTrained .operational 4).modTarget 0 fun x => { x with addr := 9 } with host := { ((tTrained .operational 4).modTarget 0 fun x => { x with addr := 9 }).host with ibis := [[{ mdb := 2, bytes := [1], handle := none }], []] } }, 0, { mdb := 2, bytes := [1], handle := none }, [], by decide +kernel⟩

theorem witness_FrontCommands_8 : ∃ (s : State) (hub : Fin 2) (ring : Fin 2),
    let z := settled s
    frontUp z hub.val = true ∧ entryStatus z hub.val none true 0x5001 ring.val = 0 :=
  ⟨tTrained .operational 4, 0, 1, by decide +kernel⟩

theorem witness_FrontCommands_9 : ∃ (s : State) (hub : Fin 2),
    meridianUp s hub.val = true :=
  ⟨{ tTrained .operational 4 with now := 1000000000, plant := { (tTrained .operational 4).plant with last := [(65, 0)] } }, 1, by decide +kernel⟩

theorem witness_FrontCommands_10 : ∃ (s : State),
    telemetryOwed s = true ∧ hubDown s 0 = false ∧ s.dev.st ≠ .off :=
  ⟨{ (tTrained .operational 4).setNum 0x5006 0 1 with now := 1000000 }, by decide +kernel⟩

theorem witness_AxbelUnitRoundTrip_1 : ∃ (bits : Nat) (seq : Nat) (index : Nat) (sub : Nat) (payload : List Byte),
    bits < 2 ^ 16 ∧ seq < 2 ^ 16 ∧ index < 2 ^ 16 ∧ sub < 2 ^ 8 ∧ payload.length ≤ 1024 :=
  ⟨0xFFFF, 0xFFFF, 0xFFFF, 0xFF, List.replicate 1024 0, by decide +kernel⟩

theorem witness_TestPort_1 : ∃ (s : State),
    s.dev.st ≠ .off :=
  ⟨tDev .boot, by decide⟩

theorem witness_TestPort_3 : ∃ (lowNs : Nat),
    1000 ≤ lowNs :=
  ⟨1000, by decide⟩

theorem witness_DataScanHoldsItsBits_1 : ∃ (reg : List Bool) (bits : List Bool),
    reg.length = bits.length :=
  ⟨[true, false], [false, true], by decide⟩

theorem witness_TickBoundaryOpensOnce_1a : ∃ (s : State),
    s.dev.st ≠ .off ∧ s.atBoundary = true ∧ s.sched.tick < s.tickNow :=
  ⟨{ tDev .boot with now := 1000000 }, by decide⟩

theorem witness_TickBoundaryOpensOnce_1b : ∃ (s : State),
    s.dev.st ≠ .off ∧ s.atBoundary = true ∧ s.tickNow ≤ s.sched.tick :=
  ⟨tDev .boot, by decide⟩

theorem witness_ElementReadsBack_1 : ∃ t : Tensor, t.fmt < 12 := ⟨tTensor 0, by decide⟩

theorem witness_DepositWritesOneRingEntry_1 : ∃ m : Msg, 56 ≤ m.bytes.length := ⟨tMsg, by decide⟩

theorem witness_SequencerInstructions_1a : ∃ (s : State) (f w len v : Nat) (g : Facet),
    let x := s.facet f
    runs s f = true ∧ fetch x = .bits w len ∧ (if len = 2 then expand16 w else some w) = some v ∧ customOp v = none ∧ v ≠ 0x73 ∧ v ≠ 0x100073 ∧
    stalls x (baseRegs v) (baseFeet x v) = false ∧ baseEng x f s.now v len = .good g :=
  ⟨tSite (tCode 0x13), 0, 0x13, 4, 0x13, _, rfl, rfl, rfl, rfl, by decide, by decide, rfl, rfl⟩

theorem witness_SequencerInstructions_1b : ∃ (s : State) (f w len v : Nat) (g : Facet),
    let x := s.facet f
    runs s f = true ∧ fetch x = .bits w len ∧ (if len = 2 then expand16 w else some w) = some v ∧ customOp v = none ∧ v ≠ 0x73 ∧ v ≠ 0x100073 ∧
    stalls x (baseRegs v) (baseFeet x v) = false ∧ baseEng x f s.now v len = .good g :=
  ⟨tSite (tCode 1), 0, 1, 2, 0x13, _, rfl, rfl, rfl, rfl, by decide, by decide, rfl, rfl⟩

theorem witness_SequencerInstructions_2 : ∃ (s : State) (f w : Nat) (g : Nat → State → Res),
    runs s f = true ∧ fetch (s.facet f) = .bits w 4 ∧ customOp w = some g :=
  ⟨tSite (tCode 0x500B), 0, 0x500B, _, rfl, rfl, rfl⟩

theorem witness_BaseInstructionResults_1 : ∃ (x : Facet) (rd rs1 rs2 imm : Nat),
    rd < 32 ∧ rs1 < 32 ∧ rs2 < 32 ∧ getX x rs2 = 0 ∧ imm < 2048 ∧ imm % 2 = 0 := ⟨tFacet, 31, 0, 31, 2046, by decide⟩

theorem witness_BaseInstructionResults_1b : ∃ (x : Facet) (rs2 imm : Nat), rs2 < 32 ∧ getX x rs2 ≠ 0 ∧ imm < 2048 := ⟨tFacet, 7, 2047, by decide⟩

theorem witness_PoisonedCommandsHaveNoEffect_1a : ∃ (s : State) (h i : Nat) (x : Slot), startedCmd s h 0x79 = some (i, x) ∧ x.bad = true :=
  ⟨(tDev .operational).setSlot 5 { tSlot 0x79 0 with bad := true }, 5, 5, { tSlot 0x79 0 with bad := true }, by decide +kernel⟩

theorem witness_PoisonedCommandsHaveNoEffect_1c : ∃ (s : State) (h i : Nat) (x : Slot), startedCmd s h 0x79 = some (i, x) ∧ x.bad = false ∧ cmdCut s x = true :=
  ⟨(tDev .operational).setSlot 5 { tSlot 0x79 0 with pages := [(0, 0xFFFFFF000)] }, 5, 5, { tSlot 0x79 0 with pages := [(0, 0xFFFFFF000)] }, by decide +kernel⟩

theorem witness_PoisonedCommandsHaveNoEffect_1b : ∃ (s : State) (h : Nat), startedCmd s h 0x79 = none :=
  ⟨tDev .operational, 0, by decide +kernel⟩

theorem witness_ActivateCountTable_1a : ∃ (l : List (Nat × Nat)) (row n : Nat), l.length ≤ 8 ∧ tfind l row = some n := ⟨[(16383, 2047)], 16383, 2047, by decide⟩

theorem witness_ActivateCountTable_1b : ∃ (l : List (Nat × Nat)) (row : Nat), l.length < 8 ∧ tfind l row = none := ⟨[], 0, by decide⟩

theorem witness_ActivateCountTable_1c : ∃ (l : List (Nat × Nat)) (row : Nat), l.length = 8 ∧ tfind l row = none :=
  ⟨(List.range 8).map (·, 3), 8, by decide⟩

theorem witness_FrameRecordIsPublishedOnce_1 : ∃ (s : State) (n : Nat) (f : Frame), s.sense.closing = [(n, f)] ∧ s.sense.inbuf = [] ∧
    hubReach s (frameHub f) (slotAt f 0) = true ∧ roomFor (s.queue (queueOf (slotAt f 0))) (frameHub f) = true ∧ strNotify f.raw = 0 ∧ f.old = false ∧
    s.stream n / 2 = f.raw / 2 :=
  ⟨tClosed tStr, 127, tFrame, by decide +kernel⟩

theorem witness_AssignmentIsTheBest_1 : ∃ (rows : List (List Nat)) (free cols : List Nat),
    free.Nodup ∧ (∀ c ∈ free, c < 512) ∧ fitsRows rows free cols ∧ cols ≠ (assign rows free).cols := by
  refine ⟨[[5]], [0], [512], by decide, by decide, ⟨rfl, by decide, by decide, fun i c h hc => ?_⟩, by decide⟩
  cases i with
  | zero => exact absurd (Option.some.inj h).symm hc
  | succ i => simp at h

theorem witness_FrontCommands_3 : ∃ (s : State) (hub : Fin 2) (i sub : Nat) (r : EntryRow),
    let z := settled s
    findRow i = some r ∧ frontUp z hub.val = true ∧ entryStatus z hub.val none true i sub = 0 ∧ r.acc ≠ .rw2k :=
  ⟨tTrained .config 4, 0, 0x5005, 0, _, rfl, by decide +kernel, by decide +kernel, by decide +kernel⟩

end Sys2Proof.Tests
end

section
/-! PROOFS. What every command keeps, part by part: Gnomon time, the queue, the form of the byte stores, a quiet device. -/

namespace Sys2Proof.Machine

open Sys2Proof.Safety

-- The theorems below are elaborated one after another: many at once ask for more thread stacks than the check has memory for.
set_option Elab.async false

/-- The fields of a state that `Calm` speaks of. -/
def State.gist (s : State) : Nat × List Instr × List Host.Cell × List Host.Cell × DevState :=
  (s.now, s.pending, s.mem.dram, s.mem.sram, s.dev.st)

/-- What the parts of a command keep on the way from the state `z` to the state `s`: Gnomon time, the queue, the canonical form of the byte stores and,
where `quiet` says so, that a device which does not operate does not begin to. -/
structure Calm (quiet : Bool) (z s : State) : Prop where
  now : s.now = z.now
  pending : s.pending = z.pending
  stores : storesCanonical z = true → storesCanonical s = true
  operating : quiet = true → s.operating = true → z.operating = true

namespace Calm

variable {α : Type} {q : Bool} {z s t u : State} {p : Prop} [Decidable p]

theorem refl (s : State) : Calm q s s := ⟨rfl, rfl, id, fun _ => id⟩

theorem trans (h : Calm q z s) (h' : Calm q s t) : Calm q z t :=
  ⟨h'.now.trans h.now, h'.pending.trans h.pending, h'.stores ∘ h.stores, fun hq => h.operating hq ∘ h'.operating hq⟩

/-- An update that leaves the gist of the state as it was. -/
theorem keep (h : Calm q z s) (e : t.gist = s.gist) : Calm q z t := by
  simp only [State.gist, Prod.mk.injEq] at e
  obtain ⟨hn, hp, hd, hs, ho⟩ := e
  exact ⟨hn.trans h.now, hp.trans h.pending, by simpa [storesCanonical, hd, hs] using h.stores, by simpa [State.operating, ho] using h.operating⟩

/-- An update of parts other than the time, the queue, the byte stores and the device state. -/
theorem upd (h : Calm q z s) {i f : Nat} {d : Dev} {w : Work} {k : Tab Pool} {y : Sync} {c : Cmds} {e : Sched} {r : Tab Sector} {m : Stores} {l : Chord}
    {n : Sense} {v : Safety} {o : Front} {p : Plant} (hd : d.st = s.dev.st := by dsimp only)
    (hm : (m.dram, m.sram) = (s.mem.dram, s.mem.sram) := by dsimp only) : Calm q z ⟨s.pending, s.now, i, f, d, w, k, y, c, e, r, m, l, n, v, o, p⟩ :=
  h.keep (by obtain ⟨hm, hs⟩ := Prod.mk.inj hm; simp [State.gist, hd, hm, hs])

/-- An update of the byte stores that keeps their canonical form. -/
theorem store (h : Calm q z s) (hd : Memory.wf s.mem.dram = true → Memory.wf t.mem.dram = true)
    (hs : Memory.wf s.mem.sram = true → Memory.wf t.mem.sram = true) (hn : t.now = s.now) (hp : t.pending = s.pending) (ho : t.dev.st = s.dev.st) :
    Calm q z t := by
  refine ⟨hn.trans h.now, hp.trans h.pending, fun hz => ?_, by simpa [State.operating, ho] using h.operating⟩
  have hc := h.stores hz
  simp only [storesCanonical, Bool.and_eq_true] at hc ⊢
  exact hc.imp hd hs

/-- A change of the device state to one in which the device does not operate, or did before. -/
theorem setSt (h : Calm q z s) (e : t.gist = { s with dev := { s.dev with st := t.dev.st } }.gist)
    (ho : q = true → t.operating = true → s.operating = true) : Calm q z t := by
  have hk : Calm q s { t with dev := { t.dev with st := s.dev.st } } := (refl s).keep (by simp_all [State.gist])
  exact h.trans ⟨hk.now, hk.pending, hk.stores, ho⟩

/-- A part that runs at another instant, after which the time is put back. -/
theorem restamp {m : Nat} (h : Calm q z s) (h' : Calm q { s with now := m } t) {i f : Nat} {d : Dev} {w : Work} {k : Tab Pool} {y : Sync} {c : Cmds}
    {e : Sched} {r : Tab Sector} {l : Chord} {n : Sense} {v : Safety} {o : Front} {p : Plant} {k' : Nat} (hn : k' = s.now := by rfl)
    (hd : d.st = t.dev.st := by dsimp only) : Calm q z ⟨t.pending, k', i, f, d, w, k, y, c, e, r, t.mem, l, n, v, o, p⟩ := by
  have hk : Calm q s { t with now := s.now } := ⟨rfl, h'.pending, h'.stores, h'.operating⟩
  exact (h.trans hk).keep (by simp [State.gist, hd, hn])

theorem ite (h : Calm q z s) (h' : Calm q z t) : Calm q z (if p then s else t) := by split <;> assumption

theorem ite_snd {x y : α × State} (h : Calm q z x.2) (h' : Calm q z y.2) : Calm q z (if p then x else y).2 := by split <;> assumption

theorem ite_fst {x y : State × α} (h : Calm q z x.1) (h' : Calm q z y.1) : Calm q z (if p then x else y).1 := by split <;> assumption

theorem foldl {l : List α} {f : State → α → State} (hf : ∀ a x, Calm q z a → Calm q z (f a x)) (h : Calm q z s) : Calm q z (l.foldl f s) := by
  induction l generalizing s with
  | nil => exact h
  | cons x l ih => exact ih (hf _ _ h)

theorem foldl_fst {β : Type} {l : List β} {f : State × α → β → State × α} {x : State × α} (hf : ∀ a y, Calm q z a.1 → Calm q z (f a y).1)
    (h : Calm q z x.1) : Calm q z (l.foldl f x).1 := by
  induction l generalizing x with
  | nil => exact h
  | cons y l ih => exact ih (hf _ _ h)

end Calm

/-! ## One lemma for each part of a command, file by file of the model -/

variable {q : Bool} {z s : State}

/-! ### Machine/Ops -/

theorem setNum_calm {i sub v : Nat} (hs : Calm q z s) : Calm q z (s.setNum i sub v) := .upd hs

theorem count32_calm {i sub n : Nat} (hs : Calm q z s) : Calm q z (s.count32 i sub n) := setNum_calm hs

theorem count64_calm {i sub n : Nat} (hs : Calm q z s) : Calm q z (s.count64 i sub n) := setNum_calm hs

theorem setOcts_calm {i sub : Nat} {v : List Byte} (hs : Calm q z s) : Calm q z (s.setOcts i sub v) := .upd hs

theorem takeId_calm (hs : Calm q z s) : Calm q z s.takeId := .upd hs

theorem takeFree_calm {n : Nat} (hs : Calm q z s) : Calm q z (s.takeFree n) := .upd hs

theorem setFacet_calm {f : Nat} {x : Facet} (hs : Calm q z s) : Calm q z (s.setFacet f x) := .upd hs

theorem modFacet_calm {f : Nat} {g : Facet → Facet} (hs : Calm q z s) : Calm q z (s.modFacet f g) := setFacet_calm hs

theorem setSec_calm {n : Nat} {x : Sector} (hs : Calm q z s) : Calm q z (s.setSec n x) := .upd hs

theorem assertGrst_calm (hs : Calm q z s) : Calm q z (assertGrst s) := .upd hs

theorem assertPrst_calm {d : Nat} (hs : Calm q z s) : Calm q z (assertPrst s d) := .upd hs

/-! ### Machine/Flags -/

theorem raiseIbi_calm {hub : Nat} {i : Ibi} (hs : Calm q z s) : Calm q z (raiseIbi s hub i) := .upd hs

/-- A change of the device state; where a quiet device has to stay one, only to a state in which it does not operate, or of a device that operates. -/
theorem setDevState_calm {d : DevState} (hs : Calm q z s) (hd : q = true → d = .operational ∨ d = .degraded → s.operating = true := by simp) :
    Calm q z (setDevState s d) := by
  have h1 : Calm q z { s with dev := { s.dev with st := d } } :=
    hs.setSt rfl fun hq ho => hd hq (by simpa [State.operating] using ho)
  exact .ite hs (.ite h1 (raiseIbi_calm (raiseIbi_calm (setNum_calm h1))))

theorem udpOut_calm {hub addr port : Nat} {bytes : List Byte} (hs : Calm q z s) : Calm q z (udpOut s hub addr port bytes) := .upd hs

theorem sendUdp_calm {hub slot addr port : Nat} {unit : List Byte} (hs : Calm q z s) : Calm q z (sendUdp s hub slot addr port unit) := by
  unfold sendUdp
  split
  · exact hs
  · exact .upd (udpOut_calm hs)

theorem pushRecord_calm {hub q' : Nat} {r : BitVec 512} (hs : Calm q z s) : Calm q z (pushRecord s hub q' r) := .ite hs (.upd (sendUdp_calm hs))

theorem ringPut_calm {hub : Nat} {r : BitVec 512} (hs : Calm q z s) : Calm q z (ringPut s hub r) :=
  .ite hs (.ite (raiseIbi_calm (.ite (count32_calm (setNum_calm (pushRecord_calm (.upd hs)))) (setNum_calm (pushRecord_calm (.upd hs))))) (.ite
    (count32_calm (setNum_calm (pushRecord_calm (.upd hs)))) (setNum_calm (pushRecord_calm (.upd hs)))))

theorem nim_calm {time seat site : Nat} {sec : Option Nat} {code sev : Nat} {inj : Bool} {payload : Nat} (hs : Calm q z s) :
    Calm q z (nim s time seat site sec code sev inj payload) :=
  .ite (ringPut_calm (ringPut_calm hs)) (ringPut_calm hs)

theorem nimWarn_calm {seat code : Nat} {payload : List Byte} (hs : Calm q z s) : Calm q z (nimWarn s seat code payload) := nim_calm hs

theorem raiseFault_calm {stamp detail code seat site domain : Nat} {sec : Option Nat} (hs : Calm q z s) :
    Calm q z (raiseFault s stamp detail code seat site domain sec) :=
  .upd hs

theorem raiseInjected_calm {detail code seat site : Nat} (hs : Calm q z s) : Calm q z (raiseInjected s detail code seat site) := .upd hs

theorem dieFault_calm {code detail seat : Nat} (hs : Calm q z s) : Calm q z (dieFault s code detail seat) := raiseFault_calm hs

theorem dropSramBacks_calm {hub first last : Nat} (hs : Calm q z s) : Calm q z (dropSramBacks s hub first last) := .ite hs (.upd hs)

theorem sramWrite_calm {hub o : Nat} {bytes : List Byte} (hs : Calm q z s) : Calm q z (sramWrite s hub o bytes) :=
  .ite hs (dropSramBacks_calm (hs.store id (wf_mwrites _ _) rfl rfl rfl))

theorem sramSetPoison_calm {hub line : Nat} (hs : Calm q z s) : Calm q z (sramSetPoison s hub line) := .upd hs

theorem raiseVector_calm {sec vec cls body : Nat} (hs : Calm q z s) : Calm q z (raiseVector s sec vec cls body) :=
  .ite (count64_calm (.upd (sramWrite_calm hs))) (.upd (.upd (sramWrite_calm hs)))

theorem integrityEvent_calm {seat store addr : Nat} (hs : Calm q z s) : Calm q z (integrityEvent s seat store addr) := .upd (setOcts_calm hs)

theorem tileFail_calm {seat addr : Nat} (hs : Calm q z s) : Calm q z (tileFail s seat addr) := dieFault_calm (integrityEvent_calm (count64_calm hs))

/-! ### Machine/Handles -/

theorem setSlot_calm {i : Nat} {x : Slot} (hs : Calm q z s) : Calm q z (s.setSlot i x) := .upd hs

theorem allocSlot_calm {sec i : Nat} {x : Slot} (hs : Calm q z s) : Calm q z (allocSlot s sec i x) := .upd (setSlot_calm hs)

theorem freeSlot_calm {i : Nat} (hs : Calm q z s) : Calm q z (freeSlot s i) := setSlot_calm hs

theorem devMsg_calm {seat dest cls len payload : Nat} {origin : Origin} {sec : Nat} (hs : Calm q z s) :
    Calm q z (devMsg s seat dest cls len payload origin sec) :=
  .ite hs (.upd (takeId_calm hs))

theorem finishOne_calm {i status : Nat} {result : Word} {time : Nat} (hs : Calm q z s) : Calm q z (finishOne s i status result time) :=
  .ite hs (.ite (freeSlot_calm (setSlot_calm hs)) (.ite (devMsg_calm (setSlot_calm hs)) (.ite (freeSlot_calm (raiseVector_calm (setSlot_calm hs)))
    (.ite (raiseIbi_calm (setSlot_calm hs)) (setSlot_calm hs)))))

theorem unarm_calm {h : Nat} (hs : Calm q z s) : Calm q z (unarm s h) := .upd hs

theorem unarmSlot_calm {i : Nat} (hs : Calm q z s) : Calm q z (unarmSlot s i) := .ite (unarm_calm hs) hs

theorem finishTo_calm {n i status : Nat} {result : Word} {time : Nat} (hs : Calm q z s) : Calm q z (finishTo n s i status result time) := by
  induction n generalizing s i status result with
  | zero => exact hs
  | succ n ih => exact .ite (finishOne_calm hs) (.foldl (fun _ _ ha => ih (unarmSlot_calm ha)) (finishOne_calm hs))

theorem finish_calm {i status : Nat} {result : Word} {time : Nat} (hs : Calm q z s) : Calm q z (finish s i status result time) := finishTo_calm hs

theorem finishH_calm {h status : Nat} {result : Word} {time : Nat} (hs : Calm q z s) : Calm q z (finishH s h status result time) :=
  .ite (finish_calm hs) hs

theorem done_calm {i status : Nat} {result : Word} (hs : Calm q z s) : Calm q z (done s i status result) := setSlot_calm hs

theorem waitOn_calm {i : Nat} (hs : Calm q z s) : Calm q z (waitOn s i) := setSlot_calm hs

/-! ### Machine/Vertex -/

theorem setVobj_calm {k : Nat} {o : VObj} (hs : Calm q z s) : Calm q z (s.setVobj k o) := .upd hs

theorem dropWatch_calm {id : Nat} (hs : Calm q z s) : Calm q z (dropWatch s id) := .upd hs

theorem dropMsg_calm {id : Nat} (hs : Calm q z s) : Calm q z (dropMsg s id) := .upd hs

theorem delivered_calm {m : Msg} (hs : Calm q z s) : Calm q z (delivered s m) := by
  unfold delivered
  split
  · exact dropWatch_calm hs
  · exact .ite (freeSlot_calm hs) hs
  · exact hs

theorem releaseWatch_calm {w : Watch} {cause value : Nat} (hs : Calm q z s) : Calm q z (releaseWatch s w cause value) := by
  unfold releaseWatch
  extract_lets
  split
  · exact finishH_calm (.ite (raiseVector_calm (dropWatch_calm hs)) (dropWatch_calm hs))
  · exact .ite (dropWatch_calm (raiseVector_calm hs)) (.ite (dropWatch_calm hs) (devMsg_calm (.upd hs)))

theorem vtPostOn_calm {sec r v : Nat} (hs : Calm q z s) : Calm q z (vtPostOn s sec r v).2 := by
  unfold vtPostOn
  extract_lets
  refine .ite_snd hs (.ite_snd hs ?_)
  split
  · exact setVobj_calm hs
  · exact releaseWatch_calm (setVobj_calm hs)

theorem vtSetOn_calm {sec r v : Nat} (hs : Calm q z s) : Calm q z (vtSetOn s sec r v).2 :=
  .ite_snd hs (.foldl (fun _ _ ha => releaseWatch_calm ha) (setVobj_calm hs))

theorem vtRegister_calm {w : Watch} (hs : Calm q z s) : Calm q z (vtRegister s w).2 :=
  .ite_snd hs (.ite_snd hs (.ite (releaseWatch_calm (.upd (takeId_calm hs))) (.upd (takeId_calm hs))))

theorem releaseAll_calm {k cause : Nat} (hs : Calm q z s) : Calm q z (releaseAll s k cause) := .foldl (fun _ _ ha => releaseWatch_calm ha) hs

theorem freeObj_calm {k : Nat} (hs : Calm q z s) : Calm q z (freeObj s k) := releaseAll_calm (setVobj_calm hs)

theorem loseObj_calm {k : Nat} (hs : Calm q z s) : Calm q z (loseObj s k) := releaseAll_calm (setVobj_calm hs)

theorem setBar_calm {k : Nat} {b : Barrier} (hs : Calm q z s) : Calm q z (s.setBar k b) := .upd hs

theorem markRound_calm {h r : Nat} {body : Option Nat} (hs : Calm q z s) : Calm q z (markRound s h r body) := .upd (modFacet_calm hs)

theorem barCompare_calm {k : Nat} (hs : Calm q z s) : Calm q z (barCompare s k) := .ite hs (dieFault_calm hs)

theorem barComplete_calm {k : Nat} (hs : Calm q z s) : Calm q z (barComplete s k) :=
  .foldl (fun _ _ ha => finishH_calm ha) (setBar_calm (.foldl (fun _ _ ha => .ite (markRound_calm ha) (devMsg_calm (markRound_calm ha))) hs))

theorem barCheck_calm {k : Nat} (hs : Calm q z s) : Calm q z (barCheck s k) := .ite (barComplete_calm hs) hs

theorem barBreak_calm {k : Nat} (hs : Calm q z s) : Calm q z (barBreak s k) :=
  .foldl (fun _ _ ha => finishH_calm ha) (setBar_calm (.foldl (fun _ _ ha => .ite (markRound_calm ha) (devMsg_calm (markRound_calm ha))) hs))

theorem barDestroy_calm {k : Nat} (hs : Calm q z s) : Calm q z (barDestroy s k) := setBar_calm (barBreak_calm hs)

theorem barArrive_calm {sec h r : Nat} (hs : Calm q z s) : Calm q z (barArrive s sec h r).2 :=
  .ite_snd hs (.ite_snd hs (.ite_snd hs (.ite_snd hs (barCheck_calm (setBar_calm (barCompare_calm hs))))))

theorem barStop_calm {h : Nat} {l : List SigEntry} (hs : Calm q z s) : Calm q z (barStop s h l) :=
  .foldl (fun _ _ ha => .ite (.ite (setBar_calm ha) (barBreak_calm ha)) ha) (.upd hs)

theorem stepWatches_calm {site : Nat} (hs : Calm q z s) : Calm q z (stepWatches s site) := .upd hs

theorem setWin_calm {k : Nat} {w : Window} (hs : Calm q z s) : Calm q z (s.setWin k w) := .upd hs

theorem tearSlot_calm {i : Nat} (hs : Calm q z s) : Calm q z (tearSlot s i) := by
  unfold tearSlot
  extract_lets
  split
  · exact freeSlot_calm (setSlot_calm (.ite (.upd (.ite (unarmSlot_calm hs) hs)) (.ite (unarmSlot_calm hs) hs)))
  · exact freeSlot_calm hs
  · exact hs

theorem unitTook_calm {u key : Nat} (hs : Calm q z s) : Calm q z (unitTook s u key) := .upd hs

theorem atUnit_calm {u key : Nat} {g : State → State} (hg : ∀ {z} a, Calm q z a → Calm q z (g a)) (hs : Calm q z s) : Calm q z (atUnit s u key g) :=
  hs.restamp (hg _ (unitTook_calm (.refl _)))

theorem tearCtx_calm {c : Nat} (hs : Calm q z s) : Calm q z (tearCtx s c) := by
  unfold tearCtx
  split
  · exact hs
  · exact .upd (.foldl (fun _ _ ha => tearSlot_calm ha) (.upd (setWin_calm hs)))

theorem tearObjs_calm {c : Nat} (hs : Calm q z s) : Calm q z (tearObjs s c) :=
  .foldl (fun _ _ ha => barDestroy_calm ha) (.foldl (fun _ _ ha => loseObj_calm ha) hs)

theorem tearDownNow_calm {cs : List Nat} (hs : Calm q z s) : Calm q z (tearDownNow s cs) :=
  .foldl (fun _ _ ha => .foldl (fun _ _ hb => finish_calm (unarmSlot_calm hb)) ha) (.foldl (fun _ _ ha => tearObjs_calm ha) (.foldl (fun _ _ ha =>
    tearCtx_calm ha) hs))

theorem tearDownAll_calm {cs own : List Nat} (hs : Calm q z s) : Calm q z (tearDownAll s cs own) := hs.restamp (tearDownNow_calm (.refl _))

theorem tearDown_calm {c : Nat} (hs : Calm q z s) : Calm q z (tearDown s c) := tearDownAll_calm hs

theorem tearDownIf_calm {p : Ctx → Bool} (hs : Calm q z s) : Calm q z (tearDownIf s p) := .ite hs (tearDownAll_calm hs)

/-! ### Machine/Lines -/

theorem markDirty_calm {o : Nat} (hs : Calm q z s) : Calm q z (markDirty s o) := .ite (.upd hs) hs

theorem touchArea_calm {area : List Nat} (hs : Calm q z s) : Calm q z (touchArea s area) :=
  .ite hs (takeFree_calm (.foldl (fun _ _ ha => .ite (markDirty_calm ha) ha) hs))

theorem accepted_calm {o : Nat} (hs : Calm q z s) : Calm q z (accepted s o) := markDirty_calm (.ite (.upd hs) hs)

theorem dramLine_calm {o : Nat} {data : List Byte} {mask : Option Nat} {poison : Bool} (hs : Calm q z s) : Calm q z (dramLine s o data mask poison) :=
  accepted_calm (hs.store (wf_mwritem _ _ _) id rfl rfl rfl)

theorem dramWrite_calm {o : Nat} {bytes : List Byte} (hs : Calm q z s) : Calm q z (dramWrite s o bytes) := by
  unfold dramWrite
  extract_lets e s1
  have h1 : Calm q z s1 := .foldl (fun _ _ ha => accepted_calm (.ite (.upd ha) ha)) hs
  exact .ite hs (h1.store (wf_mwrites _ _) id rfl rfl rfl)

theorem dramSetPoison_calm {o : Nat} {p : Bool} (hs : Calm q z s) : Calm q z (dramSetPoison s o p) := .upd hs

theorem countLines_calm {n m k : Nat} (hs : Calm q z s) : Calm q z (countLines s n m k) := count64_calm (.upd hs)

theorem setQueue_calm {k : Nat} {q' : List QReq} (hs : Calm q z s) : Calm q z (s.setQueue k q') := .upd hs

theorem enqueue_calm {o : Nat} {write : Bool} {master source : Nat} (hs : Calm q z s) : Calm q z (enqueue s o write master source) :=
  setQueue_calm (takeId_calm hs)

theorem pullLines_calm {write : Bool} {master source n o : Nat} (hs : Calm q z s) : Calm q z (pullLines write master source n s o).1 := by
  induction n generalizing s o with
  | zero => exact hs
  | succ n ih => exact .ite_fst (ih (enqueue_calm hs)) hs

theorem pullIngress_calm (hs : Calm q z s) : Calm q z (pullIngress s) :=
  .foldl (fun _ _ ha => .ite (.upd ha) (.ite (pullLines_calm ha) (.upd (pullLines_calm ha)))) (.upd hs)

theorem engineLines_calm {o n : Nat} {write : Bool} {master source : Nat} (hs : Calm q z s) : Calm q z (engineLines s o n write master source) :=
  .ite hs (pullIngress_calm (.upd hs))

theorem dropReq_calm {tag : Nat} (hs : Calm q z s) : Calm q z (dropReq s tag) := .upd hs

theorem acceptReq_calm {tag : Nat} (hs : Calm q z s) : Calm q z (acceptReq s tag) := .upd hs

theorem settleOwn_calm {die : Nat} {offs : List Nat} (hs : Calm q z s) : Calm q z (settleOwn s die offs) :=
  .foldl (fun _ _ ha => .ite (dropReq_calm ha) (acceptReq_calm (enqueue_calm (.ite (dramLine_calm ha) ha)))) hs

theorem agentLine_calm {die o : Nat} {write : Bool} (hs : Calm q z s) : Calm q z (agentLine s die o write) := engineLines_calm hs

theorem agentWrite_calm {die o : Nat} {data : List Byte} {poison : Bool} (hs : Calm q z s) : Calm q z (agentWrite s die o data poison) :=
  agentLine_calm (dramLine_calm (settleOwn_calm hs))

theorem countRange_calm {o n m : Nat} {write : Bool} (hs : Calm q z s) : Calm q z (countRange s o n m write) := .ite hs (engineLines_calm hs)

theorem pagedWrite_calm {pages : List (Nat × Nat)} {va : Nat} {bytes : List Byte} (hs : Calm q z s) : Calm q z (pagedWrite s pages va bytes) :=
  .ite hs (.foldl (fun _ _ ha => dramWrite_calm ha) hs)

theorem countPaged_calm {pages : List (Nat × Nat)} {va n m : Nat} {write : Bool} (hs : Calm q z s) : Calm q z (countPaged s pages va n m write) :=
  .ite hs (.foldl (fun _ _ ha => countRange_calm ha) hs)

theorem countArea_calm {pages : List Nat} {first i n m : Nat} {write : Bool} (hs : Calm q z s) : Calm q z (countArea s pages first i n m write) :=
  .foldl (fun _ _ ha => engineLines_calm ha) hs

theorem areaWrite_calm {pages : List Nat} {first i : Nat} {bytes : List Byte} {mirror : Bool} (hs : Calm q z s) :
    Calm q z (areaWrite s pages first i bytes mirror) :=
  .foldl (fun _ _ ha => dramWrite_calm ha) hs

/-! ### Machine/Judge -/

theorem modOcc_calm {e n : Nat} {g : Occ → Occ} (hs : Calm q z s) : Calm q z (modOcc s e n g) := .upd hs

theorem modTask_calm {e n h : Nat} {g : TaskOut → TaskOut} (hs : Calm q z s) : Calm q z (modTask s e n h g) := modOcc_calm hs

theorem releaseView_calm {id : Nat} (hs : Calm q z s) : Calm q z (releaseView s id) := by
  unfold releaseView
  split
  · exact hs
  · split
    · exact hs
    · exact touchArea_calm (.upd hs)

theorem releaseViews_calm {e n : Nat} (hs : Calm q z s) : Calm q z (releaseViews s e n) := .foldl (fun _ _ ha => releaseView_calm ha) hs

theorem releaseViewOf_calm {e n h : Nat} (hs : Calm q z s) : Calm q z (releaseViewOf s e n h) := .foldl (fun _ _ ha => releaseView_calm ha) hs

theorem settleAt_calm {e n status : Nat} {result : Word} {t : Nat} (hs : Calm q z s) : Calm q z (settleAt s e n status result t) := by
  unfold settleAt
  split
  · exact hs
  · refine modOcc_calm ?_
    split
    · split
      · exact hs
      · exact finishH_calm hs
    · refine finishH_calm ?_
      split
      · exact hs
      · exact finishH_calm hs

theorem settle_calm {e n status : Nat} {result : Word} (hs : Calm q z s) : Calm q z (settle s e n status result) := settleAt_calm hs

theorem trySettle_calm {e n : Nat} (hs : Calm q z s) : Calm q z (trySettle s e n) := by
  unfold trySettle
  split
  · exact hs
  · exact .ite (settle_calm hs) (.ite (.ite (settleAt_calm hs) (settleAt_calm hs)) hs)

theorem undegrade_calm {c : Nat} (hs : Calm q z s) : Calm q z (undegrade s c) := .upd hs

theorem startLapAt_calm {d t : Nat} (hs : Calm q z s) : Calm q z (startLapAt s d t) := .upd hs

theorem startLap_calm {d : Nat} (hs : Calm q z s) : Calm q z (startLap s d) := startLapAt_calm hs

theorem checkLap_calm {d : Nat} (hs : Calm q z s) : Calm q z (checkLap s d) := by
  unfold checkLap
  split
  · exact hs
  · exact .ite hs (startLap_calm (undegrade_calm (setNum_calm hs)))

theorem markSuspect_calm {f : Nat} (hs : Calm q z s) : Calm q z (markSuspect s f) := .ite hs (checkLap_calm (setOcts_calm hs))

theorem logMismatch_calm {r : Nat} (hs : Calm q z s) : Calm q z (logMismatch s r) := setNum_calm (setOcts_calm hs)

theorem logOutcome_calm {i stamp outcome : Nat} (hs : Calm q z s) : Calm q z (logOutcome s i stamp outcome) := .ite (setOcts_calm hs) hs

theorem countMismatch_calm {f : Nat} (hs : Calm q z s) : Calm q z (countMismatch s f) := .ite (raiseFault_calm (setNum_calm hs)) (setNum_calm hs)

theorem orderSpare_calm {f : Nat} (hs : Calm q z s) : Calm q z (orderSpare s f) := .ite (markSuspect_calm hs) (.upd (markSuspect_calm hs))

theorem concludeFinding_calm {x : Finding} (hs : Calm q z s) : Calm q z (concludeFinding s x) := by
  unfold concludeFinding
  split
  · exact countMismatch_calm (countMismatch_calm (logOutcome_calm hs))
  · exact orderSpare_calm (logOutcome_calm hs)
  · exact orderSpare_calm (logOutcome_calm hs)
  · exact orderSpare_calm (orderSpare_calm (logOutcome_calm hs))
  · exact hs

theorem orderFinding_calm {o : Occ} {h stamp msite csite logIx : Nat} (hs : Calm q z s) : Calm q z (orderFinding s o h stamp msite csite logIx) := by
  unfold orderFinding
  extract_lets
  split
  · exact .upd hs
  · exact concludeFinding_calm (.upd hs)

theorem setVerdict_calm {e n h : Nat} {main v : Bool} {stamp : Nat} (hs : Calm q z s) : Calm q z (setVerdict s e n h main v stamp) := modTask_calm hs

theorem failTask_calm {e n h : Nat} (hs : Calm q z s) : Calm q z (failTask s e n h) := by
  unfold failTask
  split
  · exact hs
  · exact modOcc_calm (modTask_calm (releaseViewOf_calm (settle_calm hs)))

theorem escalate_calm {e n h : Nat} (hs : Calm q z s) : Calm q z (escalate s e n h) := .foldl (fun _ _ ha => logOutcome_calm ha) hs

theorem failReplay_calm {e n h stamp : Nat} (hs : Calm q z s) : Calm q z (failReplay s e n h stamp) :=
  raiseFault_calm (failTask_calm (escalate_calm hs))

theorem mismatch_calm {unit : Nat} {m c : BitVec 512} {o : Occ} {replay first : Bool} (hs : Calm q z s) :
    Calm q z (mismatch s unit m c o replay first) :=
  .ite (raiseFault_calm (count64_calm hs)) (.ite (failReplay_calm (logOutcome_calm (logMismatch_calm (raiseFault_calm (count64_calm hs))))) (.ite
    (orderFinding_calm (logMismatch_calm (raiseFault_calm (count64_calm hs)))) (logMismatch_calm (raiseFault_calm (count64_calm hs)))))

theorem bothJudged_calm {o : Occ} {h : Nat} {att : Bool} (hs : Calm q z s) : Calm q z (bothJudged s o h att) := by
  unfold bothJudged
  split
  · exact hs
  · split
    · exact .ite (raiseFault_calm (raiseFault_calm hs)) (.ite (trySettle_calm (modTask_calm (count64_calm hs))) (trySettle_calm hs))
    · exact hs

theorem judgePair_calm {unit : Nat} {m c : BitVec 512} (hs : Calm q z s) : Calm q z (judgePair s unit m c) := by
  unfold judgePair
  extract_lets
  split
  · exact hs
  · refine .ite (.ite (.ite (failReplay_calm (setVerdict_calm hs)) (bothJudged_calm (setVerdict_calm hs))) (.ite hs ?_)) (bothJudged_calm (.ite
    (setVerdict_calm hs) (mismatch_calm (setVerdict_calm hs))))
    split
    · exact .upd hs
    · exact hs

theorem takeRecord_calm {unit : Nat} {r : BitVec 512} (hs : Calm q z s) : Calm q z (takeRecord s unit r) := by
  unfold takeRecord
  extract_lets
  refine .ite hs ?_
  split
  · exact .upd hs
  · exact .ite (judgePair_calm (.upd hs)) (judgePair_calm (.upd hs))

theorem checkpoint_calm {site : Nat} (hs : Calm q z s) : Calm q z (checkpoint s site) := by
  unfold checkpoint
  extract_lets
  split
  · exact hs
  · exact .ite hs (takeRecord_calm (setFacet_calm hs))

/-! ### Machine/Causes -/

theorem squashLines_calm {site : Nat} (hs : Calm q z s) : Calm q z (squashLines s site) := .upd hs

theorem keepLog_calm {site : Nat} (hs : Calm q z s) : Calm q z (keepLog s site) := by
  unfold keepLog
  split
  · exact hs
  · exact .ite hs (modTask_calm hs)

theorem taint_calm {site : Nat} {st : Step} (hs : Calm q z s) : Calm q z (taint s site st) :=
  nim_calm (count32_calm (modOcc_calm (modTask_calm (.upd (.upd (modFacet_calm hs))))))

theorem debugPoint_calm {site : Nat} {st : Step} (hs : Calm q z s) : Calm q z (debugPoint s site st) :=
  .ite hs (.ite (modFacet_calm hs) (modFacet_calm (modFacet_calm (.ite hs (taint_calm hs)))))

theorem raiseAt_calm {site code : Nat} {pc operand : Word} (hs : Calm q z s) : Calm q z (raiseAt s site code pc operand) := by
  unfold raiseAt
  extract_lets f c f1 f2 s1 y s2 s3
  split
  · exact hs
  · extract_lets s4 s5 s6 s7 s8 s9
    have h3 : Calm q z s3 := stepWatches_calm (squashLines_calm (.upd (setFacet_calm (takeFree_calm (keepLog_calm hs)))))
    have h6 : Calm q z s6 := checkpoint_calm (raiseFault_calm (.ite h3 (barStop_calm h3)))
    have h9 : Calm q z s9 := debugPoint_calm (modOcc_calm (modTask_calm h6))
    exact .ite (debugPoint_calm h6) (.ite (failTask_calm h9) h9)

theorem raise_calm {site code operand : Nat} (hs : Calm q z s) : Calm q z (raise s site code operand) := raiseAt_calm hs

/-! ### Machine/Operands -/

theorem runEngine_calm {site : Nat} {legal : Bool} {regs : List Nat} {foot : Facet → List (Nat × Nat)} {g : Facet → Eng} (hs : Calm q z s) :
    Calm q z (runEngine s site legal regs foot g) := by
  unfold runEngine
  extract_lets
  refine .ite hs (.ite (raise_calm hs) (.ite hs ?_))
  split
  · exact raise_calm hs
  · exact setFacet_calm hs

/-! ### Machine/Routes -/

theorem issueLine_calm {r : LineReq} (hs : Calm q z s) : Calm q z (issueLine s r) := .upd (takeId_calm hs) (hm := rfl)

theorem moverStart_calm {site ch : Nat} {write : Bool} {pairs : List (Nat × Nat)} (hs : Calm q z s) : Calm q z (moverStart s site ch write pairs) :=
  .foldl (fun _ _ ha => issueLine_calm ha) (setFacet_calm (takeFree_calm (takeId_calm hs)))

theorem issueMover_calm {site ch : Nat} {write : Bool} {pairs : List (Nat × Nat)} (hs : Calm q z s) :
    Calm q z (issueMover s site ch write pairs) := by
  unfold issueMover
  split
  · exact raise_calm hs
  · exact moverStart_calm hs

/-! ### Machine/Steps -/

theorem lastEvent_calm {stamp e what : Nat} (hs : Calm q z s) : Calm q z (lastEvent s stamp e what) := setOcts_calm hs

theorem windowFault_calm {e n stamp : Nat} (hs : Calm q z s) : Calm q z (windowFault s e n stamp) :=
  raiseFault_calm (lastEvent_calm (count32_calm (modOcc_calm hs)))

theorem stageCheck_calm {e n : Nat} (hs : Calm q z s) : Calm q z (stageCheck s e n) := by
  unfold stageCheck
  split
  · exact hs
  · exact .ite hs (.ite (modOcc_calm hs) (.ite (windowFault_calm (modOcc_calm hs)) (.ite (windowFault_calm (modOcc_calm hs)) (modOcc_calm hs))))

theorem modSlice_calm {h i : Nat} {g : Slice → Slice} (hs : Calm q z s) : Calm q z (modSlice s h i g) := by
  unfold modSlice
  split
  · exact hs
  · exact .upd hs

theorem copyInit_calm {t : Task} {i : Nat} {vol mirror : Bool} (hs : Calm q z s) : Calm q z (copyInit s t i vol mirror) :=
  .foldl (fun _ _ ha => agentWrite_calm ha) hs

theorem copySave_calm {f : Facet} {t : Task} {i : Nat} {mirror : Bool} (hs : Calm q z s) : Calm q z (copySave s f t i mirror) :=
  .foldl (fun _ _ ha => agentWrite_calm ha) hs

theorem agentReads_calm {die : Nat} {offs : List Nat} (hs : Calm q z s) : Calm q z (agentReads s die offs) :=
  .foldl (fun _ _ ha => agentLine_calm ha) hs

theorem startCarry_calm {site : Nat} {c : Carry} {second checker both : Bool} (hs : Calm q z s) :
    Calm q z (startCarry s site c second checker both) := by
  unfold startCarry
  extract_lets f ls one s1 s2
  have one_calm {m : Bool} {a : State} (ha : Calm q z a) : Calm q z (one m a) := .foldl (fun _ _ hb => issueLine_calm hb) ha
  have h2 : Calm q z s2 := .ite (one_calm (one_calm hs)) (one_calm hs)
  exact modFacet_calm h2

theorem stepDone_calm {site : Nat} (hs : Calm q z s) : Calm q z (stepDone s site) := by
  unfold stepDone
  extract_lets f s1
  split
  · exact hs
  · extract_lets tainted c s2 s3 s4 s5 s6
    clear_value c
    have h1 : Calm q z s1 := stepWatches_calm (keepLog_calm hs)
    have h2 : Calm q z s2 := by
      unfold s2
      split
      · exact h1
      · exact setFacet_calm h1
    have h3 : Calm q z s3 := modFacet_calm h2
    have h4 : Calm q z s4 := by
      unfold s4
      split
      · exact h3
      · exact .ite h3 (startCarry_calm h3)
    have h5 : Calm q z s5 := debugPoint_calm (checkpoint_calm h4)
    exact .ite h5 (trySettle_calm (stageCheck_calm (modTask_calm h5)))

theorem carryComplete_calm {site : Nat} (hs : Calm q z s) : Calm q z (carryComplete s site) := by
  unfold carryComplete
  extract_lets
  split
  · exact hs
  · exact .ite hs (trySettle_calm (modTask_calm hs))

theorem restore_calm {site h : Nat} {checker other : Bool} (hs : Calm q z s) : Calm q z (restore s site h checker other).1 := by
  unfold restore
  split
  · exact hs
  · exact setFacet_calm (takeFree_calm (agentReads_calm (settleOwn_calm hs)))

/-! ### Machine/Signals -/

theorem depositIn_calm {h : Nat} {m : Msg} (hs : Calm q z s) : Calm q z (depositIn s h m) := modFacet_calm hs

theorem deposit_calm {id : Nat} (hs : Calm q z s) : Calm q z (deposit s id) := by
  unfold deposit
  split
  · exact hs
  · exact .ite (dropMsg_calm hs) (.ite hs (delivered_calm (.foldl (fun _ _ ha => depositIn_calm ha) (dropMsg_calm hs))))

theorem msgArrive_calm {id : Nat} (hs : Calm q z s) : Calm q z (msgArrive s id) := by
  unfold msgArrive
  split
  · exact hs
  · exact .ite (dropMsg_calm hs) (.ite hs (.upd hs))

theorem sendTaken_calm {site a' : Nat} (hs : Calm q z s) : Calm q z (sendTaken s site a') := setFacet_calm (takeId_calm hs)

theorem sendStart_calm {site a' : Nat} (hs : Calm q z s) : Calm q z (sendStart s site a') := .upd (sendTaken_calm hs)

theorem sendRun_calm {site : Nat} {rs1 : BitVec 5} (hs : Calm q z s) : Calm q z (sendRun s site rs1) := by
  unfold sendRun
  extract_lets
  split
  · exact hs
  · exact .ite hs (.ite hs (.ite (raise_calm hs) (.ite (raise_calm hs) (.ite (setFacet_calm hs) (.ite (sendStart_calm hs) (raiseAt_calm
    (sendTaken_calm hs)))))))

theorem recvRun_calm {site : Nat} {poll : Bool} {rd : BitVec 5} (hs : Calm q z s) : Calm q z (recvRun s site poll rd) :=
  .ite hs (.ite (.ite (setFacet_calm hs) hs) (setFacet_calm hs))

theorem ackRun_calm {site : Nat} (hs : Calm q z s) : Calm q z (ackRun s site) := .ite hs (setFacet_calm hs)

theorem vtApply_calm {op sec home site ref value : Nat} {w : BitVec 128} (hs : Calm q z s) : Calm q z (vtApply s op sec home site ref value w).2.2 := by
  have h1 : Calm q z (unitTook s (vtSeat op ref w) home) := unitTook_calm hs
  unfold vtApply
  split
  · exact vtPostOn_calm h1
  · exact vtSetOn_calm h1
  · exact barArrive_calm h1
  · dsimp only
    split
    · exact h1
    · exact vtRegister_calm h1
  · exact h1

theorem vtReach_calm {op sec home site ref value : Nat} {w : BitVec 128} (hs : Calm q z s) : Calm q z (vtReach s op sec home site ref value w).2.2 :=
  hs.restamp (vtApply_calm (.refl _))

theorem setResult_calm {site ix : Nat} {v : Option Word} (hs : Calm q z s) : Calm q z (setResult s site ix v) := by
  unfold setResult
  extract_lets
  split
  · exact .ite (modFacet_calm hs) (modFacet_calm (modFacet_calm hs))
  · exact modFacet_calm hs

theorem readRefused_calm {site ix ref : Nat} {pc : Word} (hs : Calm q z s) : Calm q z (readRefused s site ix ref pc) :=
  raiseAt_calm (modFacet_calm (setResult_calm hs))

theorem vtLocal_calm {site op rd ref value : Nat} {w : BitVec 128} (hs : Calm q z s) : Calm q z (vtLocal s site op rd ref value w) :=
  .ite (readRefused_calm (vtReach_calm (setFacet_calm hs))) (setResult_calm (modFacet_calm (vtReach_calm (setFacet_calm hs))))

theorem vtAway_calm {site op rd ref value : Nat} {w : BitVec 128} (hs : Calm q z s) : Calm q z (vtAway s site op rd ref value w) :=
  .upd (setFacet_calm (takeId_calm hs))

theorem vtSend_calm {site op rd ref value : Nat} {w : BitVec 128} (hs : Calm q z s) : Calm q z (vtSend s site op rd ref value w) :=
  .ite (vtLocal_calm hs) (.ite (raise_calm hs) (vtAway_calm hs))

theorem vtGive_calm {site rd : Nat} {v : Word} {g : Facet → Facet} (hs : Calm q z s) : Calm q z (vtGive s site rd v g) :=
  setResult_calm (modFacet_calm hs)

theorem diverge_calm {site : Nat} {st : Step} (hs : Calm q z s) : Calm q z (diverge s site st) :=
  .ite (raise_calm hs) (raiseFault_calm (.ite (raiseAt_calm (raise_calm hs)) (raise_calm hs)))

theorem vtRun_calm {site op : Nat} {rd rs1 rs2 : BitVec 5} (hs : Calm q z s) : Calm q z (vtRun s site op rd rs1 rs2) := by
  unfold vtRun
  extract_lets
  split
  · exact hs
  · refine .ite hs (.ite hs (.ite (raise_calm hs) (.ite ?_ (.ite (vtSend_calm (setFacet_calm hs)) (.ite (vtGive_calm (setFacet_calm hs)) ?_)))))
    · split
      · exact .ite hs (modFacet_calm (setFacet_calm hs))
      · exact raise_calm hs
      · exact vtGive_calm (setFacet_calm hs)
    · split
      · exact vtSend_calm (setFacet_calm hs)
      · exact .ite (diverge_calm hs) (.ite (vtSend_calm (setFacet_calm hs)) (.ite (devMsg_calm (vtGive_calm (setFacet_calm hs))) (vtGive_calm
        (setFacet_calm hs))))

theorem vopArrive_calm {tag : Nat} (hs : Calm q z s) : Calm q z (vopArrive s tag) := by
  unfold vopArrive
  split
  · exact hs
  · exact .ite (.upd hs) (.ite hs (.upd (.ite (modFacet_calm (vtApply_calm hs)) (vtApply_calm hs))))

theorem vrspArrive_calm {tag : Nat} (hs : Calm q z s) : Calm q z (vrspArrive s tag) := by
  unfold vrspArrive
  split
  · exact hs
  · split
    · exact .upd hs
    · exact .ite (.upd hs) (.ite (readRefused_calm (modFacet_calm (.upd hs))) (setResult_calm (modFacet_calm (modFacet_calm (.upd hs)))))

/-! ### Machine/Started -/

theorem runSlot_calm {i : Nat} {x : Slot} {g : State → Nat → Slot → State} (hg : ∀ a x1 x2, Calm q z a → Calm q z (g a x1 x2)) (hs : Calm q z s) :
    Calm q z (runSlot s i x g) :=
  .ite (done_calm hs) (.ite (done_calm hs) (hg _ _ _ hs))

theorem runTorn_calm {h : Nat} {x : Slot} {act : State → State} (hact : ∀ a, Calm q z a → Calm q z (act a)) (hs : Calm q z s) :
    Calm q z (runTorn s h x act) :=
  .upd (setSlot_calm (hact _ (setSlot_calm hs)))

theorem runCmd_calm {h code : Nat} {g : State → Nat → Slot → State} (hg : ∀ a x1 x2, Calm q z a → Calm q z (g a x1 x2)) (hs : Calm q z s) :
    Calm q z (runCmd s h code g) := by
  unfold runCmd
  split
  · exact runSlot_calm (fun _ _ _ ha => hg _ _ _ ha) hs
  · split
    · exact .ite (runTorn_calm (fun _ ha => runSlot_calm (fun _ _ _ hb => hg _ _ _ hb) ha) hs) hs
    · exact hs

theorem outWrite_calm {x : Slot} {va : Nat} {bytes : List Byte} (hs : Calm q z s) : Calm q z (outWrite s x va bytes) := pagedWrite_calm hs

theorem fwdArrive_calm {h : Nat} (hs : Calm q z s) : Calm q z (fwdArrive s h) := .ite hs (.ite (setSlot_calm hs) (.upd hs))

/-! ### Machine/Images -/

theorem placeEntry_calm {sec i : Nat} {r : BitVec 256} (hs : Calm q z s) : Calm q z (placeEntry s sec i r) := .upd hs

theorem imgApply_calm {sec : Nat} {img : List Byte} (hs : Calm q z s) : Calm q z (imgApply s sec img) := by
  unfold imgApply
  extract_lets
  refine .foldl (fun _ _ ha => .foldl (fun _ _ hb => copyInit_calm (copyInit_calm hb)) ha) (.upd (.foldl (fun _ _ ha => ?_) hs))
  split
  · exact ha
  · exact countPaged_calm (pagedWrite_calm ha)

theorem imgLoad_calm {h : Nat} (hs : Calm q z s) : Calm q z (imgLoad s h) := by
  unfold imgLoad
  refine runCmd_calm (fun _ _ _ ha => .ite (done_calm ha) (.ite (done_calm (countPaged_calm ha)) (.ite (done_calm (countPaged_calm ha)) ?_))) hs
  dsimp only
  split
  · exact done_calm (setNum_calm (countPaged_calm ha))
  · exact done_calm (.foldl (fun _ _ ha => placeEntry_calm ha) (imgApply_calm (countPaged_calm ha)))

theorem placeTask_calm {site h : Nat} (hs : Calm q z s) : Calm q z (placeTask s site h) := by
  unfold placeTask
  split
  · exact hs
  · exact .upd (setFacet_calm hs)

theorem writeInitial_calm {t : Task} {i : Nat} {mirror : Bool} (hs : Calm q z s) : Calm q z (writeInitial s t i mirror) := by
  unfold writeInitial
  extract_lets
  split
  · exact hs
  · exact modSlice_calm (.foldl (fun _ _ ha => .ite (agentWrite_calm (agentWrite_calm ha)) (agentWrite_calm ha)) hs)

theorem initialCopies_calm {t : Task} (hs : Calm q z s) : Calm q z (initialCopies s t) :=
  .foldl (fun _ _ ha => .ite (copyInit_calm (copyInit_calm (copyInit_calm (writeInitial_calm ha)))) (copyInit_calm (writeInitial_calm ha))) hs

theorem discardFor_calm {h : Nat} (hs : Calm q z s) : Calm q z (discardFor s h) := .foldl (fun _ _ ha => delivered_calm (dropMsg_calm ha)) hs

theorem unplace_calm {h : Nat} (hs : Calm q z s) : Calm q z (unplace s h) := .upd (modFacet_calm hs)

theorem dropEntries_calm {sec : Nat} (hs : Calm q z s) : Calm q z (dropEntries s sec) :=
  .upd (.foldl (fun _ _ ha => .foldl (fun _ _ hb => finish_calm hb) (.foldl (fun _ _ hb => finishH_calm hb) ha)) hs)

theorem imgUnload_calm {h : Nat} (hs : Calm q z s) : Calm q z (imgUnload s h) := by
  unfold imgUnload
  refine runCmd_calm (fun _ _ _ ha => ?_) hs
  split
  · exact done_calm ha
  · exact done_calm (.upd (.foldl (fun _ _ ha => .upd (discardFor_calm (unplace_calm (unplace_calm ha)))) (dropEntries_calm ha)))

/-! ### Machine/Mover -/

theorem moveRun_calm {site ch : Nat} {write : Bool} {rd rs1 : BitVec 5} (hs : Calm q z s) : Calm q z (moveRun s site ch write rd rs1) := by
  unfold moveRun
  extract_lets
  refine .ite hs (.ite (raise_calm hs) (.ite hs ?_))
  split
  · exact raise_calm hs
  · exact .ite (raise_calm hs) (.ite (raise_calm hs) (.ite (raise_calm hs) (issueMover_calm hs)))

theorem waitRun_calm {site : Nat} {rs1 : BitVec 5} (hs : Calm q z s) : Calm q z (waitRun s site rs1) :=
  .ite hs (.ite (raise_calm hs) (.ite hs (setFacet_calm hs)))

theorem kvRun_calm {site ch : Nat} {rd rs1 : BitVec 5} (hs : Calm q z s) : Calm q z (kvRun s site ch rd rs1) := by
  unfold kvRun
  extract_lets
  refine .ite hs (.ite (raise_calm hs) (.ite hs ?_))
  split
  · exact raise_calm hs
  · split
    · exact raise_calm hs
    · exact .ite (raise_calm hs) (.ite (raise_calm hs) (.ite (raise_calm hs) (.ite (raise_calm hs) (issueMover_calm hs))))

/-! ### Machine/Pools -/

theorem setPool_calm {n : Nat} {p : Pool} (hs : Calm q z s) : Calm q z (s.setPool n p) := .upd hs

theorem keepPool_calm {n : Nat} {p : Pool} (hs : Calm q z s) : Calm q z (s.keepPool n p) := touchArea_calm (setPool_calm hs)

theorem applyNow_calm {n : Nat} {p : Pool} {k : HeldKv} (hs : Calm q z s) : Calm q z (applyNow s n p k).1 :=
  .ite_fst (keepPool_calm hs) (.ite_fst (keepPool_calm hs) (keepPool_calm hs))

theorem poolCmd_calm {h code : Nat} {g : State → Nat → Slot → Nat → Pool → State} (hg : ∀ a x1 x2 x3 x4, Calm q z a → Calm q z (g a x1 x2 x3 x4))
    (hs : Calm q z s) :
    Calm q z (poolCmd s h code g) := by
  unfold poolCmd
  refine runCmd_calm (fun _ _ _ ha => .ite ha ?_) hs
  dsimp only
  split
  · exact done_calm ha
  · exact .ite (done_calm ha) (hg _ _ _ _ _ ha)

theorem poolCreate_calm {h : Nat} (hs : Calm q z s) : Calm q z (poolCreate s h) :=
  runCmd_calm (fun _ _ _ ha => .ite ha (.ite (done_calm ha) (.ite (done_calm ha) (done_calm (keepPool_calm ha))))) hs

theorem poolDestroy_calm {h : Nat} (hs : Calm q z s) : Calm q z (poolDestroy s h) :=
  poolCmd_calm (fun _ _ _ _ _ ha => .ite (done_calm ha) (done_calm (.upd ha))) hs

theorem kvAlloc_calm {h : Nat} (hs : Calm q z s) : Calm q z (kvAlloc s h) :=
  poolCmd_calm (fun _ _ _ _ _ ha => .ite (done_calm ha) (done_calm (outWrite_calm (keepPool_calm ha)))) hs

theorem takeSeq_calm {i n : Nat} {p : Pool} {k : HeldKv} (hs : Calm q z s) : Calm q z (takeSeq s i n p k) := by
  unfold takeSeq
  refine .ite (waitOn_calm (keepPool_calm hs)) (.ite (done_calm hs) (.ite (waitOn_calm (keepPool_calm hs)) ?_))
  dsimp only
  split
  · exact done_calm (applyNow_calm hs)
  · exact waitOn_calm (applyNow_calm hs)

theorem kvMap_calm {h : Nat} (hs : Calm q z s) : Calm q z (kvMap s h) := poolCmd_calm (fun _ _ _ _ _ ha => takeSeq_calm ha) hs

theorem kvFree_calm {h : Nat} (hs : Calm q z s) : Calm q z (kvFree s h) :=
  poolCmd_calm (fun _ _ _ _ _ ha => .ite (done_calm ha) (.ite (done_calm ha) (.ite (done_calm ha) (.ite (done_calm (keepPool_calm ha)) (waitOn_calm
    (keepPool_calm ha)))))) hs

theorem kvSeq_calm {h op : Nat} (hs : Calm q z s) : Calm q z (kvSeq s h op) := poolCmd_calm (fun _ _ _ _ _ ha => .ite ha (takeSeq_calm ha)) hs

theorem applyHeld_calm {n : Nat} {l kept : List HeldKv} (hs : Calm q z s) : Calm q z (applyHeld s n l kept) := by
  induction l generalizing s kept with
  | nil => exact hs
  | cons k r ih =>
    unfold applyHeld
    split
    · exact hs
    · refine .ite (ih hs) (ih ?_)
      split
      · exact finishH_calm (applyNow_calm hs)
      · exact applyNow_calm hs

theorem kvPageFree_calm {n page : Nat} (hs : Calm q z s) : Calm q z (kvPageFree s n page) := by
  unfold kvPageFree
  split
  · exact hs
  · exact .ite hs (.foldl (fun _ _ ha => finishH_calm ha) (keepPool_calm hs))

/-! ### Machine/SectorCmds -/

theorem freeMasters_calm {n : Nat} (hs : Calm q z s) : Calm q z (freeMasters s n) :=
  .foldl (fun _ _ ha => .foldl (fun _ _ hb => .ite (setNum_calm hb) hb) ha) (.upd hs)

theorem grantMasters_calm {n : Nat} {rec : BitVec 1536} (hs : Calm q z s) : Calm q z (grantMasters s n rec) := by
  unfold grantMasters
  refine .foldl (fun _ _ ha => .ite ha ?_) hs
  split
  · exact ha
  · exact setNum_calm ha

theorem freshLogs_calm {n : Nat} (hs : Calm q z s) : Calm q z (freshLogs s n) := .upd hs

theorem secCreate_calm {h : Nat} (hs : Calm q z s) : Calm q z (secCreate s h) :=
  runCmd_calm (fun _ _ _ ha => .ite (done_calm ha) (.ite (done_calm ha) (.ite (done_calm ha) (done_calm (grantMasters_calm (freshLogs_calm
    (setSec_calm ha))))))) hs

theorem stopHeld_calm {n site : Nat} (hs : Calm q z s) : Calm q z (stopHeld n s site) := raiseFault_calm (.ite hs (setFacet_calm (takeFree_calm hs)))

theorem stopSteps_calm {n : Nat} (hs : Calm q z s) : Calm q z (stopSteps s n) :=
  .upd (.foldl (fun _ _ ha => releaseViews_calm ha) (.foldl (fun _ _ ha => stopHeld_calm ha) (.foldl (fun _ _ ha => modFacet_calm (.ite (raiseAt_calm
    ha) ha)) (.upd (.foldl (fun _ _ ha => freeSlot_calm ha) hs)))))

theorem disarm_calm {n : Nat} (hs : Calm q z s) : Calm q z (disarm s n) := by
  unfold disarm
  refine .foldl (fun _ _ ha => ?_) hs
  split
  · exact ha
  · exact .ite ha (.upd (finishH_calm ha))

theorem freeLost_calm {n : Nat} (hs : Calm q z s) : Calm q z (freeLost s n) :=
  .upd (.foldl (fun _ _ ha => barDestroy_calm ha) (.foldl (fun _ _ ha => setVobj_calm ha) hs))

theorem retireSector_calm {n h : Nat} {destroy : Bool} (hs : Calm q z s) : Calm q z (retireSector s n h destroy) :=
  setSec_calm (.upd (freeLost_calm (disarm_calm (stopSteps_calm (tearDownIf_calm hs)))))

theorem secReset_calm {h : Nat} (hs : Calm q z s) : Calm q z (secReset s h) :=
  runCmd_calm (fun _ _ _ ha => .ite (done_calm ha) (.ite ha (waitOn_calm (retireSector_calm ha)))) hs

theorem secDestroy_calm {h : Nat} (hs : Calm q z s) : Calm q z (secDestroy s h) :=
  runCmd_calm (fun _ _ _ ha => .ite (done_calm ha) (.ite (done_calm ha) (.ite ha (waitOn_calm (retireSector_calm ha))))) hs

theorem disableStreams_calm {n : Nat} (hs : Calm q z s) : Calm q z (disableStreams s n) := .foldl (fun _ _ ha => .ite (.upd (setOcts_calm ha)) ha) hs

theorem doneH_calm {h status : Nat} {result : Word} (hs : Calm q z s) : Calm q z (doneH s h status result) := .ite (done_calm hs) hs

theorem restoreSector_calm {n : Nat} (hs : Calm q z s) : Calm q z (restoreSector s n) :=
  .foldl (fun _ _ ha => initialCopies_calm (.ite (.ite (placeTask_calm (.ite (placeTask_calm ha) ha)) (.ite (placeTask_calm ha) ha)) (.ite
    (placeTask_calm ha) ha))) hs

theorem drainEnd_calm {n : Nat} (hs : Calm q z s) : Calm q z (drainEnd s n) := by
  unfold drainEnd
  extract_lets
  split
  · exact hs
  · exact .ite hs (.ite (doneH_calm (setSec_calm (freeMasters_calm (disableStreams_calm hs)))) (doneH_calm (count32_calm (setSec_calm
    (restoreSector_calm hs)))))

theorem drainTimeout_calm {n : Nat} (hs : Calm q z s) : Calm q z (drainTimeout s n) := by
  unfold drainTimeout
  extract_lets
  split
  · exact hs
  · exact .ite hs (setSec_calm (.foldl (fun _ _ ha => raiseFault_calm ha) hs))

theorem secInval_calm {h : Nat} (hs : Calm q z s) : Calm q z (secInval s h) := runCmd_calm (fun _ _ _ ha => .ite (done_calm ha) (done_calm ha)) hs

theorem clearDirty_calm {rec : BitVec 1536} (hs : Calm q z s) : Calm q z (clearDirty s rec) := .upd hs

theorem dirtyCmd_calm {h op : Nat} {g : State → Nat → Slot → Nat → State} (hg : ∀ a x1 x2 x3, Calm q z a → Calm q z (g a x1 x2 x3))
    (hs : Calm q z s) :
    Calm q z (dirtyCmd s h op g) :=
  runCmd_calm (fun _ _ _ ha => .ite ha (.ite (done_calm ha) (hg _ _ _ _ ha))) hs

/-! ### Machine/Firmware -/

theorem modHub_calm {hub : Nat} {g : HubBoot → HubBoot} (hs : Calm q z s) : Calm q z (s.modHub hub g) := .upd hs

theorem takeImage_calm {hub : Nat} {img : List Byte} (hs : Calm q z s) : Calm q z (takeImage s hub img) := modHub_calm (sramWrite_calm hs)

/-! ### Machine/Links -/

theorem setLink_calm {l : Nat} {x : Link} (hs : Calm q z s) : Calm q z (s.setLink l x) := .upd hs

theorem modDir_calm {l d : Nat} {g : LinkDir → LinkDir} (hs : Calm q z s) : Calm q z (s.modDir l d g) := .upd hs

theorem failSite_calm {site : Nat} {pc operand : Word} (hs : Calm q z s) : Calm q z (failSite s site pc operand) := .ite (raiseAt_calm hs) hs

theorem loseMsgs_calm {l : Nat} (hs : Calm q z s) : Calm q z (loseMsgs s l) := .foldl (fun _ _ ha => delivered_calm (dropMsg_calm ha)) hs

theorem loseLines_calm {lost : LineReq → Bool} (hs : Calm q z s) : Calm q z (loseLines s lost) :=
  .upd (.foldl (fun _ _ ha => .ite (dramLine_calm (takeFree_calm ha)) (takeFree_calm ha)) hs)

theorem failTraffic_calm {l : Nat} (hs : Calm q z s) : Calm q z (failTraffic s l) :=
  .foldl (fun _ _ ha => done_calm ha) (.upd (loseMsgs_calm (.upd (loseLines_calm (.foldl (fun _ _ ha => failSite_calm ha) hs)))))

theorem linkStop_calm {l : Nat} (hs : Calm q z s) : Calm q z (linkStop s l) := failTraffic_calm (modDir_calm (modDir_calm (setLink_calm hs)))

theorem linkDown_calm {l : Nat} (hs : Calm q z s) : Calm q z (linkDown s l) :=
  .ite hs (.ite (nimWarn_calm (dieFault_calm (assertGrst_calm (linkStop_calm hs)))) (dieFault_calm (dieFault_calm (linkStop_calm hs))))

theorem retry_calm {l : Nat} (hs : Calm q z s) : Calm q z (retry s l) :=
  .ite (linkDown_calm (setLink_calm (count64_calm hs))) (setLink_calm (count64_calm hs))

theorem refuse_calm {l d : Nat} {crcBad : Bool} (hs : Calm q z s) : Calm q z (refuse s l d crcBad) :=
  .ite (modDir_calm hs) (.ite (linkDown_calm (modDir_calm hs)) (modDir_calm hs))

theorem fwReject_calm {check : Nat} (hs : Calm q z s) : Calm q z (fwReject s check) :=
  .ite (.ite (nimWarn_calm (.upd (count64_calm hs))) (.upd (count64_calm hs))) (.ite (linkStop_calm (assertGrst_calm (.upd (.ite (nimWarn_calm (.upd
    (count64_calm hs))) (.upd (count64_calm hs)))))) (assertGrst_calm (.upd (.ite (nimWarn_calm (.upd (count64_calm hs))) (.upd (count64_calm hs))))))

theorem nakTimeout_calm {l d : Nat} (hs : Calm q z s) : Calm q z (nakTimeout s l d) := by
  unfold nakTimeout
  split
  · exact hs
  · exact .ite hs (modDir_calm hs)

theorem ackTimeout_calm {l d : Nat} (hs : Calm q z s) : Calm q z (ackTimeout s l d) := .ite hs (retry_calm (modDir_calm hs))

theorem pllLost_calm {d : Nat} (hs : Calm q z s) : Calm q z (pllLost s d) :=
  .ite hs (.ite (.foldl (fun _ _ ha => linkDown_calm ha) (raiseFault_calm (.upd hs))) (raiseFault_calm (.upd hs)))

/-! ### Machine/Conditions -/

theorem noteDegraded_calm (hs : Calm q z s) : Calm q z (noteDegraded s) := by
  unfold noteDegraded
  split
  next hc => exact setDevState_calm hs fun _ _ => by simp_all [State.operating]
  next => exact hs

theorem degrade_calm {c : Nat} (hs : Calm q z s) : Calm q z (degrade s c) := noteDegraded_calm (.upd hs)

theorem formPrism_calm {d : Nat} (hs : Calm q z s) : Calm q z (formPrism s d) := .upd hs

theorem setPower_calm {d : Nat} {x : DiePower} (hs : Calm q z s) : Calm q z (setPower s d x) := .upd hs

theorem followClock_calm {d : Nat} (hs : Calm q z s) : Calm q z (followClock s d) := setPower_calm hs

theorem followClocks_calm (hs : Calm q z s) : Calm q z (followClocks s) := .foldl (fun _ _ ha => followClock_calm ha) hs

theorem missLap_calm {d t : Nat} (hs : Calm q z s) : Calm q z (missLap s d t) := startLapAt_calm (degrade_calm (raiseFault_calm (count32_calm hs)))

theorem lapDeadline_calm {d : Nat} (hs : Calm q z s) : Calm q z (lapDeadline s d) := by
  unfold lapDeadline
  split
  · exact hs
  · exact .ite hs (missLap_calm hs)

theorem pastLaps_calm {d : Nat} (hs : Calm q z s) : Calm q z (pastLaps s d) := by
  unfold pastLaps
  split
  · exact hs
  · exact .foldl (fun _ _ ha => lapDeadline_calm ha) hs

theorem cover_calm {f : Nat} (hs : Calm q z s) : Calm q z (cover s f) := checkLap_calm (.upd (pastLaps_calm hs))

/-! ### Machine/Release -/

theorem issueHandle_calm {e : Nat} (hs : Calm q z s) : Calm q z (issueHandle s e).1 := by
  unfold issueHandle
  extract_lets
  refine .ite_fst hs ?_
  split
  · exact count32_calm hs
  · exact allocSlot_calm hs

theorem addOcc_calm {o : Occ} (hs : Calm q z s) : Calm q z (addOcc s o) := .upd hs

theorem shed_calm {e n : Nat} (hs : Calm q z s) : Calm q z (shed s e n) :=
  .ite (raiseFault_calm (settle_calm (modOcc_calm (issueHandle_calm (modOcc_calm (lastEvent_calm (count32_calm hs))))))) (settle_calm (modOcc_calm
    (issueHandle_calm (modOcc_calm (lastEvent_calm (count32_calm hs))))))

theorem clearArm_calm {e : Nat} (hs : Calm q z s) : Calm q z (clearArm s e) := by
  unfold clearArm
  split
  · exact hs
  · exact .upd hs

theorem orphansDue_calm {e : Nat} (hs : Calm q z s) : Calm q z (orphansDue s e) := .foldl (fun _ _ ha => finishH_calm ha) (.upd hs)

theorem occDue_calm {e : Nat} (hs : Calm q z s) : Calm q z (occDue s e) := by
  unfold occDue
  split
  · exact hs
  · refine .ite hs (.ite ?_ (.ite ?_ (.ite (shed_calm (clearArm_calm (addOcc_calm hs))) (clearArm_calm (addOcc_calm hs)))))
    · split
      · exact hs
      · exact clearArm_calm (finishH_calm hs)
    · split
      · exact hs
      · exact clearArm_calm (finishH_calm hs)

theorem entryDue_calm {e : Nat} (hs : Calm q z s) : Calm q z (entryDue s e) := occDue_calm (orphansDue_calm hs)

theorem windowClose_calm {e : Nat} (hs : Calm q z s) : Calm q z (windowClose s e) := by
  unfold windowClose
  split
  · exact hs
  · exact .ite hs (shed_calm hs)

theorem startCopy_calm {o : Occ} {h : Nat} {checker replay trial : Bool} {view : Option Nat} (hs : Calm q z s) :
    Calm q z (startCopy s o h checker replay trial view) := by
  unfold startCopy
  extract_lets
  split
  · exact hs
  · exact modFacet_calm hs

theorem latchFail_calm {o : Occ} {h status : Nat} (hs : Calm q z s) : Calm q z (latchFail s o h status) :=
  raiseFault_calm (modOcc_calm (modTask_calm hs))

/-- A view that is latched changes its pool only. -/
theorem latchView_calm {h e n : Nat} {b : KvBind} {sec id : Nat} {t : State} (hs : Calm q z s) (hv : latchView s h e n b sec = .view t id) :
    Calm q z t := by
  unfold latchView at hv
  split at hv
  · exact Latch.noConfusion hv
  · split at hv
    · exact Latch.noConfusion hv
    · extract_lets at hv
      split at hv
      · exact Latch.noConfusion hv
      · extract_lets at hv
        split at hv
        · exact Latch.noConfusion hv
        · split at hv
          · exact Latch.noConfusion hv
          · split at hv
            · exact Latch.noConfusion hv
            · exact (Latch.view.inj hv).1 ▸ keepPool_calm (takeId_calm hs)

theorem releaseTask_calm {o : Occ} {trial : Bool} {h : Nat} (hs : Calm q z s) : Calm q z (releaseTask s o trial h) := by
  unfold releaseTask
  extract_lets start
  have start_calm {a : State} {v : Option Nat} (ha : Calm q z a) : Calm q z (start a v) := .ite (startCopy_calm (startCopy_calm ha)) (startCopy_calm ha)
  split
  · exact start_calm hs
  · split
    · exact latchFail_calm hs
    · next hv => exact start_calm (latchView_calm hs hv)

theorem stateLost_calm {h : Nat} (hs : Calm q z s) : Calm q z (stateLost s h) := raiseFault_calm hs

theorem restoreTrial_calm {hs' : List Nat} (hs : Calm q z s) : Calm q z (restoreTrial s hs') :=
  .foldl (fun _ _ ha => .ite (stateLost_calm (restore_calm ha)) (restore_calm ha)) hs

theorem entryRelease_calm {e : Nat} (hs : Calm q z s) : Calm q z (entryRelease s e) := by
  unfold entryRelease
  split
  · exact hs
  · exact .ite hs (.foldl (fun _ _ ha => releaseTask_calm ha) (.ite (restoreTrial_calm (modOcc_calm (issueHandle_calm hs))) (modOcc_calm
    (issueHandle_calm hs))))

theorem replayTask_calm {o : Occ} {h : Nat} (hs : Calm q z s) : Calm q z (replayTask s o h) :=
  .ite (raiseFault_calm (.ite_fst (restore_calm (restore_calm hs)) (restore_calm hs))) (.ite (startCopy_calm (startCopy_calm (modTask_calm (.ite_fst
    (restore_calm (restore_calm hs)) (restore_calm hs))))) (startCopy_calm (modTask_calm (.ite_fst (restore_calm (restore_calm hs)) (restore_calm
    hs)))))

theorem shedOwn_calm {e n : Nat} (hs : Calm q z s) : Calm q z (shedOwn s e n) := by
  unfold shedOwn
  split
  · exact .ite (shed_calm hs) hs
  · split
    · exact hs
    · exact .ite hs (shed_calm (clearArm_calm (addOcc_calm hs)))

theorem replayRelease_calm {e n : Nat} (hs : Calm q z s) : Calm q z (replayRelease s e n) := by
  unfold replayRelease
  split
  · exact hs
  · exact .ite hs (.ite (.foldl (fun _ _ ha => replayTask_calm ha) (modOcc_calm hs)) (.foldl (fun _ _ ha => shedOwn_calm ha) (.foldl (fun _ _ ha =>
    replayTask_calm ha) (modOcc_calm hs))))

theorem budgetStopAt_calm {site t : Nat} (hs : Calm q z s) : Calm q z (budgetStopAt s site t) := by
  unfold budgetStopAt
  split
  · exact hs
  · exact .ite hs (.restamp (lastEvent_calm (count32_calm hs)) (raiseAt_calm (.refl _)))

theorem budgetStop_calm {site : Nat} (hs : Calm q z s) : Calm q z (budgetStop s site) := budgetStopAt_calm hs

theorem budgetClose_calm {site : Nat} (hs : Calm q z s) : Calm q z (budgetClose s site) := by
  unfold budgetClose
  split
  · exact hs
  · exact budgetStopAt_calm hs

theorem stageClose_calm {e n : Nat} (hs : Calm q z s) : Calm q z (stageClose s e n) := by
  unfold stageClose
  split
  · exact hs
  · exact .ite (windowFault_calm hs) hs

theorem slotRun_calm {e : Nat} (hs : Calm q z s) : Calm q z (slotRun s e) := by
  unfold slotRun
  split
  · exact hs
  · refine .ite hs ?_
    dsimp only
    split
    · exact .foldl (fun _ _ ha => modFacet_calm ha) hs
    · exact .upd (.foldl (fun _ _ ha => modFacet_calm ha) hs)

theorem slotStart_calm {e : Nat} (hs : Calm q z s) : Calm q z (slotStart s e) := .ite hs (slotRun_calm hs)

theorem lateSlots_calm {d : Nat} (hs : Calm q z s) : Calm q z (lateSlots s d) := .foldl (fun _ _ ha => slotRun_calm ha) hs

theorem yieldTest_calm {f : Nat} (hs : Calm q z s) : Calm q z (yieldTest s f) := by
  unfold yieldTest
  split
  · exact hs
  · exact .ite (cover_calm (modFacet_calm hs)) (modFacet_calm hs)

theorem slotEnd_calm {e : Nat} (hs : Calm q z s) : Calm q z (slotEnd s e) := .foldl (fun _ _ ha => yieldTest_calm ha) hs

theorem arm_calm {b : BitVec 384} {h : Nat} (hs : Calm q z s) : Calm q z (arm s b h) := by
  unfold arm
  split
  · exact hs
  · exact .upd hs

theorem schEnable_calm {h : Nat} (hs : Calm q z s) : Calm q z (schEnable s h) := by
  unfold schEnable
  refine runCmd_calm (fun _ _ _ ha => ?_) hs
  dsimp only
  split
  · exact done_calm ha
  · exact .ite (done_calm ha) (.ite (done_calm (.upd ha)) (waitOn_calm (.upd ha)))

theorem applyEnables_calm (hs : Calm q z s) : Calm q z (applyEnables s) :=
  .foldl (fun _ _ ha => .ite ha (.foldl (fun _ _ hb => finishH_calm hb) (.upd ha))) hs

/-! ### Machine/Suspects -/

theorem concludeSite_calm {f : Nat} {pass : Bool} (hs : Calm q z s) : Calm q z (concludeSite s f pass) :=
  .foldl (fun _ _ ha => concludeFinding_calm ha) (modFacet_calm (.upd hs))

theorem findingFigure_calm {f : Nat} {pass : Bool} (hs : Calm q z s) : Calm q z (findingFigure s f pass) :=
  .ite (concludeSite_calm (count32_calm hs)) (.ite (concludeSite_calm hs) (modFacet_calm hs))

theorem periodicFigure_calm {f : Nat} {pass : Bool} (hs : Calm q z s) : Calm q z (periodicFigure s f pass) :=
  .ite (raiseFault_calm (count32_calm (modFacet_calm hs))) (.ite (cover_calm (modFacet_calm hs)) (modFacet_calm hs))

theorem figureLoad_calm {f k : Nat} {out : List (Nat × Word)} (hs : Calm q z s) : Calm q z (figureLoad s f k out) :=
  modFacet_calm (agentReads_calm (takeFree_calm hs))

theorem figureReload_calm {f k e : Nat} (hs : Calm q z s) : Calm q z (figureReload s f k e) :=
  modFacet_calm (.foldl (fun _ _ ha => agentWrite_calm ha) (agentReads_calm hs))

theorem figureRun_calm {f : Nat} {out : List (Nat × Word)} {cause : Bool} (hs : Calm q z s) : Calm q z (figureRun s f out cause) := by
  unfold figureRun
  extract_lets
  split
  · exact hs
  · exact .ite hs (.ite (figureReload_calm hs) (.ite (findingFigure_calm (figureLoad_calm hs)) (periodicFigure_calm (figureLoad_calm hs))))

theorem moveTask_calm {a' b : Nat} (hs : Calm q z s) : Calm q z (moveTask s a' b) := .upd (setFacet_calm (setFacet_calm hs))

theorem saveSlice_calm {d : Nat} (hs : Calm q z s) : Calm q z (saveSlice s d) := .foldl (fun _ _ ha => .foldl (fun _ _ hb => copySave_calm hb) ha) hs

theorem loadSlice_calm {t : Task} {j : Nat} (hs : Calm q z s) : Calm q z (loadSlice s t j) :=
  .foldl (fun _ _ ha => modFacet_calm (agentReads_calm ha)) hs

theorem switchIn_calm {d j : Nat} (hs : Calm q z s) : Calm q z (switchIn s d j) :=
  lateSlots_calm (.foldl (fun _ _ ha => .ite ha (modFacet_calm ha)) (.upd (.foldl (fun _ _ ha => loadSlice_calm ha) hs)))

theorem switchDone_calm {d : Nat} (hs : Calm q z s) : Calm q z (switchDone s d) := by
  unfold switchDone
  split
  · exact hs
  · exact switchIn_calm hs

theorem saveSlices_calm (hs : Calm q z s) : Calm q z (saveSlices s) := .foldl (fun _ _ ha => saveSlice_calm ha) hs

theorem startSwitches_calm (hs : Calm q z s) : Calm q z (startSwitches s) := .foldl (fun _ _ ha => .upd ha) hs

theorem mirrorLine_calm {o : Nat} (hs : Calm q z s) : Calm q z (mirrorLine s o) := agentWrite_calm (agentLine_calm (settleOwn_calm hs))

theorem copyMirrors_calm (hs : Calm q z s) : Calm q z (copyMirrors s) := .foldl (fun _ _ ha => .foldl (fun _ _ hb => mirrorLine_calm hb) ha) hs

theorem boundExpiry_calm {e n : Nat} (hs : Calm q z s) : Calm q z (boundExpiry s e n) := by
  unfold boundExpiry
  split
  · exact hs
  · exact .ite hs (.foldl (fun _ _ ha => failReplay_calm ha) hs)

theorem debugAnswer_calm {x : Output} (hs : Calm q z s) : Calm q z (debugAnswer s x) := .upd hs

theorem debugWrite_calm {f addr : Nat} {data : List Byte} (hs : Calm q z s) : Calm q z (debugWrite s f addr data) :=
  .ite hs (.ite (debugAnswer_calm hs) (.ite (modFacet_calm hs) (.ite (debugAnswer_calm hs) (modFacet_calm hs))))

/-! ### Machine/Safe -/

theorem abandonRun_calm {o : Occ} (hs : Calm q z s) : Calm q z (abandonRun s o) :=
  .ite hs (modOcc_calm (.foldl (fun _ _ ha => releaseViewOf_calm ha) (settle_calm hs)))

theorem abandon_calm {o : Occ} (hs : Calm q z s) : Calm q z (abandon s o) := by
  unfold abandon
  split
  · refine .upd ?_
    split
    · exact hs
    · exact finishH_calm hs
  · exact abandonRun_calm hs
  · exact .foldl (fun _ _ ha => failTask_calm ha) hs
  · exact .foldl (fun _ _ ha => failTask_calm ha) hs
  · exact .foldl (fun _ _ ha => failTask_calm ha) hs
  · exact hs

theorem stopSettle_calm {dies : List Nat} (hs : Calm q z s) : Calm q z (stopSettle s dies) := .foldl (fun _ _ ha => settle_calm ha) hs

theorem stopDies_calm {dies : List Nat} (hs : Calm q z s) : Calm q z (stopDies s dies) := by
  unfold stopDies
  extract_lets
  refine .upd (.foldl (fun _ _ ha => ?_) (.foldl (fun _ _ ha => raiseAt_calm ha) (stopSettle_calm hs)))
  split
  · exact abandon_calm ha
  · exact ha

theorem stopScope_calm {dies : List Nat} (hs : Calm q z s) : Calm q z (stopScope s dies) := loseLines_calm (stopDies_calm hs)

theorem retirePrism_calm {d : Nat} (hs : Calm q z s) : Calm q z (retirePrism s d) := noteDegraded_calm (.upd (stopDies_calm hs))

theorem bringIn_calm {f : Nat} (hs : Calm q z s) : Calm q z (bringIn s f) := by
  unfold bringIn
  split
  · exact retirePrism_calm (raiseFault_calm hs)
  · dsimp only
    split
    · exact moveTask_calm hs
    · exact .ite (stateLost_calm (restore_calm (moveTask_calm hs))) (restore_calm (moveTask_calm hs))

theorem bringSpares_calm (hs : Calm q z s) : Calm q z (bringSpares s) := .foldl (fun _ _ ha => .ite ha (bringIn_calm ha)) (.upd hs)

theorem scopeIn_calm {i : Nat} (hs : Calm q z s) : Calm q z (scopeIn s i) := .upd hs

theorem countRestart_calm {i : Nat} (hs : Calm q z s) : Calm q z (countRestart s i) := setNum_calm hs

theorem cutLinks_calm {seat : Nat} (hs : Calm q z s) : Calm q z (cutLinks s seat) := .foldl (fun _ _ ha => linkStop_calm ha) hs

theorem stopFlash_calm {hub : Nat} (hs : Calm q z s) : Calm q z (stopFlash s hub) := by
  unfold stopFlash
  split
  · exact hs
  · exact .upd (.ite (.foldl (fun _ _ ha => finish_calm (unarmSlot_calm ha)) (tearSlot_calm (.upd hs))) (.upd hs))

theorem stopHub_calm {hub : Nat} (hs : Calm q z s) : Calm q z (stopHub s hub) := .upd (.upd (stopFlash_calm (tearDownIf_calm hs)))

theorem restartPrism_calm {d : Nat} (hs : Calm q z s) : Calm q z (restartPrism s d) :=
  noteDegraded_calm (.upd (assertPrst_calm (countRestart_calm (scopeIn_calm (cutLinks_calm (stopScope_calm hs))))))

theorem restartHalf_calm {h : Nat} (hs : Calm q z s) : Calm q z (restartHalf s h) :=
  noteDegraded_calm (.upd (assertPrst_calm (assertPrst_calm (.ite (assertGrst_calm (countRestart_calm (.foldl (fun _ _ ha => scopeIn_calm ha) (.foldl
    (fun _ _ ha => cutLinks_calm ha) (stopHub_calm (stopScope_calm hs)))))) (countRestart_calm (.foldl (fun _ _ ha => scopeIn_calm ha) (.foldl (fun _
    _ ha => cutLinks_calm ha) (stopHub_calm (stopScope_calm hs)))))))))

theorem wiped_calm (hs : Calm q z s) : Calm q z (wiped s) := hs.store id (fun _ => wf_nil) rfl rfl rfl

theorem restartDevice_calm (hs : Calm q z s) : Calm q z (restartDevice s) :=
  wiped_calm (.ite (count32_calm (stopFlash_calm (stopFlash_calm (tearDownIf_calm (stopScope_calm hs))))) (setDevState_calm (count32_calm
    (stopFlash_calm (stopFlash_calm (tearDownIf_calm (stopScope_calm hs)))))))

theorem resetAll_calm (hs : Calm q z s) : Calm q z (resetAll s) :=
  .upd (.foldl (fun _ _ ha => assertPrst_calm ha) (assertGrst_calm (stopHub_calm (stopHub_calm (.foldl (fun _ _ ha => cutLinks_calm ha) hs)))))

theorem restart_calm {sc : Scope} (hs : Calm q z s) : Calm q z (restart s sc) := by
  unfold restart
  refine .ite hs ?_
  split
  · exact restartPrism_calm hs
  · exact restartHalf_calm hs
  · exact restartDevice_calm hs

theorem markInitial_calm {h : Nat} (hs : Calm q z s) : Calm q z (markInitial s h) := by
  unfold markInitial
  split
  · exact hs
  · exact .upd hs

theorem restoreCopy_calm {h : Nat} {checker : Bool} (hs : Calm q z s) : Calm q z (restoreCopy s h checker) := by
  unfold restoreCopy
  extract_lets
  split
  · exact placeTask_calm hs
  · exact .ite (placeTask_calm hs) (.ite (placeTask_calm (markInitial_calm (stateLost_calm (restore_calm (placeTask_calm hs))))) (restore_calm
    (placeTask_calm hs)))

theorem rebuild_calm {h : Nat} (hs : Calm q z s) : Calm q z (rebuild s h) := by
  unfold rebuild
  split
  · exact hs
  · refine .ite hs ?_
    dsimp only
    split
    · exact .foldl (fun _ _ ha => writeInitial_calm ha) hs
    · exact .upd (.foldl (fun _ _ ha => writeInitial_calm ha) hs)

theorem restoreDie_calm {d : Nat} (hs : Calm q z s) : Calm q z (restoreDie s d) :=
  .ite hs (.foldl (fun _ _ ha => rebuild_calm ha) (.foldl (fun _ _ ha => restoreCopy_calm ha) (.foldl (fun _ _ ha => restoreCopy_calm ha) hs)))

/-! ### Machine/Meridian -/

theorem retireSite_calm {f : Nat} (hs : Calm q z s) : Calm q z (retireSite s f) :=
  .ite (retirePrism_calm (raiseFault_calm (orderSpare_calm hs))) (orderSpare_calm hs)

theorem holdScope_calm {seat : Nat} (hs : Calm q z s) : Calm q z (holdScope s seat) := noteDegraded_calm (.upd hs)

theorem noteMemctl_calm {r : BitVec 512} {sc : Scope} (hs : Calm q z s) : Calm q z (noteMemctl s r sc) := by
  unfold noteMemctl
  split
  · exact .ite (.upd hs) hs
  · exact hs

theorem act_calm {r : BitVec 512} {a' : Act} (hs : Calm q z s) : Calm q z (act s r a') := by
  unfold act
  split
  · exact noteMemctl_calm (restart_calm (.ite (markInitial_calm hs) hs))
  · exact .ite (retireSite_calm hs) hs
  · exact .ite (retirePrism_calm (.ite (markSuspect_calm hs) hs)) hs
  · exact holdScope_calm hs
  · exact cutLinks_calm (assertGrst_calm hs)

theorem logFault_calm {r : BitVec 512} {resp : Nat} (hs : Calm q z s) : Calm q z (logFault s r resp) :=
  .ite (nim_calm (nim_calm (.ite (setNum_calm (setOcts_calm hs)) (count64_calm (setNum_calm (setOcts_calm hs)))))) (nim_calm (.ite (setNum_calm
    (setOcts_calm hs)) (count64_calm (setNum_calm (setOcts_calm hs)))))

theorem settleRecord_calm {r : BitVec 512} (hs : Calm q z s) : Calm q z (settleRecord s r) := .ite hs (.upd hs)

theorem takeFault_calm {hub : Nat} {r : BitVec 512} (hs : Calm q z s) : Calm q z (takeFault s hub r) :=
  .ite hs (settleRecord_calm (.foldl (fun _ _ ha => act_calm ha) (.ite (logFault_calm (.upd hs)) (.upd hs))))

theorem comparatorFault_calm {hub : Nat} (hs : Calm q z s) : Calm q z (comparatorFault s hub) := .ite hs (.upd (restart_calm hs))

/-! ### Machine/Boot -/

theorem bootStatus_calm {hub status phase : Nat} (hs : Calm q z s) : Calm q z (bootStatus s hub status phase) := nimWarn_calm (modHub_calm hs)

theorem bootFail_calm {hub status : Nat} (hs : Calm q z s) : Calm q z (bootFail s hub status) :=
  .ite (modHub_calm (bootStatus_calm hs)) (bootStatus_calm hs)

theorem resetIn_calm {lowNs : Nat} (hs : Calm q z s) : Calm q z (resetIn s lowNs) :=
  .ite (takeFree_calm hs) (.ite (.upd (takeFree_calm hs)) (.ite (resetAll_calm (.upd (takeFree_calm hs))) (.upd (restartDevice_calm (.upd
    (takeFree_calm hs))))))

theorem clearCounters_calm {h : Nat} (hs : Calm q z s) : Calm q z (clearCounters s h) :=
  .foldl (fun _ _ ha => .foldl (fun _ _ hb => setNum_calm hb) ha) hs

theorem freshPrism_calm {d : Nat} (hs : Calm q z s) : Calm q z (freshPrism s d) := .foldl (fun _ _ ha => .ite ha (setNum_calm ha)) (.upd hs)

theorem freshHub_calm {h : Nat} (hs : Calm q z s) : Calm q z (freshHub s h) := modHub_calm (.upd (.upd (clearCounters_calm hs)))

theorem testUnit_calm {d : Nat} {faulty : Bool} (hs : Calm q z s) : Calm q z (testUnit s d faulty) :=
  setNum_calm (takeFree_calm (.foldl (fun _ _ ha => raiseInjected_calm ha) hs))

theorem testDie_calm {seat wrong : Nat} (hs : Calm q z s) : Calm q z (testDie s seat wrong) :=
  .ite (.foldl (fun _ _ ha => raiseInjected_calm ha) (.ite (testUnit_calm hs) hs)) (raiseInjected_calm (.foldl (fun _ _ ha => raiseInjected_calm ha)
    (.ite (testUnit_calm hs) hs)))

theorem injectFail_calm {seat : Nat} (hs : Calm q z s) : Calm q z (injectFail s seat) := .ite (bootFail_calm hs) (holdScope_calm (dieFault_calm hs))

theorem injected_calm {seat wrong : Nat} (hs : Calm q z s) : Calm q z (injected s seat wrong) :=
  .ite (setNum_calm (testDie_calm hs)) (injectFail_calm (setNum_calm (testDie_calm hs)))

theorem dueLinks_calm {seat : Nat} (hs : Calm q z s) : Calm q z (dueLinks s seat) := .foldl (fun _ _ ha => setLink_calm ha) hs

theorem leaveReset_calm {seat wrong : Nat} (hs : Calm q z s) : Calm q z (leaveReset s seat wrong) := by
  unfold leaveReset
  extract_lets s0 d s1 s2
  have h0 : Calm q z s0 := .ite (setDevState_calm hs) hs
  have h1 : Calm q z s1 := .upd h0 (hd := rfl)
  have h2 : Calm q z s2 := dueLinks_calm (.ite (freshPrism_calm h1) (.ite (freshHub_calm h1) h1))
  exact .ite hs (.ite (bootFail_calm h0) (.ite (injected_calm h2) h2))

theorem verifyFlash_calm {hub : Nat} {shipped : List Byte} (hs : Calm q z s) : Calm q z (verifyFlash s hub shipped) :=
  .ite hs (.ite (bootFail_calm hs) (.ite (takeImage_calm hs) (bootStatus_calm hs)))

theorem imageExchange_calm (hs : Calm q z s) : Calm q z (imageExchange s) :=
  .ite hs (.ite (.ite (bootStatus_calm (.ite (bootStatus_calm hs) hs)) (.ite (bootStatus_calm hs) hs)) (modHub_calm (modHub_calm hs)))

theorem repairStack_calm {n : Nat} (hs : Calm q z s) : Calm q z (repairStack s n) :=
  setNum_calm (setNum_calm (.upd (setOcts_calm (takeFree_calm hs))))

theorem clearStack_calm {n : Nat} (hs : Calm q z s) : Calm q z (clearStack s n) := hs.store (wf_filter _) id rfl rfl rfl

theorem stackTrained_calm {n : Nat} {good coreFault : Bool} {lanes : Nat} {devId : List Byte} {wrong : Bool} (hs : Calm q z s) :
    Calm q z (stackTrained s n good coreFault lanes devId wrong) :=
  .ite hs (.ite (bootFail_calm hs) (.ite (bootFail_calm (setNum_calm (setNum_calm (.upd (setOcts_calm (repairStack_calm (clearStack_calm hs)))))))
    (setNum_calm (.upd (setOcts_calm (repairStack_calm (clearStack_calm hs)))))))

theorem refuseGuest_calm (hs : Calm q z s) : Calm q z (refuseGuest s) := .upd (assertGrst_calm hs)

theorem crcTest_calm {l : Nat} {wrong : Bool} (hs : Calm q z s) : Calm q z (crcTest s l wrong) :=
  .ite hs (.foldl (fun _ _ ha => .ite (injectFail_calm (.ite (setNum_calm ha) ha)) (.ite (setNum_calm ha) ha)) hs)

theorem linkTried_calm {l : Nat} {r : LinkTraining} {p : PeerId} (hs : Calm q z s) : Calm q z (linkTried s l r p) :=
  .ite (.ite (nimWarn_calm (refuseGuest_calm hs)) (nimWarn_calm (dieFault_calm hs))) (.ite (crcTest_calm (count64_calm (setNum_calm (modDir_calm
    (modDir_calm (setLink_calm hs)))))) (.ite (bootFail_calm hs) (dieFault_calm (dieFault_calm hs))))

theorem linkTrained_calm {l : Nat} {r : LinkTraining} {p : PeerId} (hs : Calm q z s) : Calm q z (linkTrained s l r p) :=
  .ite hs (linkTried_calm (setLink_calm hs))

theorem setReady_calm {i : Nat} (hs : Calm q z s) : Calm q z (setReady s i) := .upd hs

theorem prismReady_calm {d : Nat} (hs : Calm q z s) : Calm q z (prismReady s d) := .ite hs (setReady_calm (restoreDie_calm hs))

theorem halfReady_calm {h : Nat} (hs : Calm q z s) : Calm q z (halfReady s h) := by
  unfold halfReady
  refine .ite hs ?_
  extract_lets s1 s2 v s3 d
  have h2 : Calm q z s2 := setReady_calm (.foldl (fun _ _ ha => setReady_calm ha) (modHub_calm (.foldl (fun _ _ ha => restoreDie_calm ha) hs)))
  have h3 : Calm q z s3 := .ite (.upd h2 (hd := rfl) (hm := rfl)) h2
  split
  · exact h3
  · exact raiseFault_calm (.upd h3 (hd := rfl) (hm := rfl))

theorem deviceReady_calm (hs : Calm q z s) : Calm q z (deviceReady s) :=
  .ite hs (setDevState_calm (setSec_calm (.upd (modHub_calm (modHub_calm hs)))))

/-! ### Machine/Thermal -/

theorem periodTaken_calm {k : Nat} (hs : Calm q z s) : Calm q z (periodTaken s k) := .upd hs

theorem avsStep_calm {r : Nat} {up : Bool} (hs : Calm q z s) : Calm q z (avsStep s r up) := .ite hs (periodTaken_calm (.upd hs))

theorem railReadback_calm {r : Nat} {x : Option RailReading} (hs : Calm q z s) : Calm q z (railReadback s r x) := by
  unfold railReadback
  refine .ite hs (periodTaken_calm (.upd ?_))
  split
  · exact hs
  · exact setNum_calm hs

theorem railOut_calm {x : Rail} (hs : Calm q z s) : Calm q z (railOut s x) := by
  unfold railOut
  refine .ite hs ?_
  split
  · split
    · exact hs
    · exact .ite hs (dieFault_calm (.upd hs))
  · exact dieFault_calm hs

theorem lowerTo_calm {d c : Nat} (hs : Calm q z s) : Calm q z (lowerTo s d c) := setPower_calm hs

theorem lowerDie_calm {d : Nat} (hs : Calm q z s) : Calm q z (lowerDie s d) := lowerTo_calm hs

theorem setSpot_calm {k : Nat} {x : Spot} (hs : Calm q z s) : Calm q z (s.setSpot k x) := .upd hs

theorem limitDie_calm {d : Nat} (hs : Calm q z s) : Calm q z (limitDie s d) :=
  .ite (setPower_calm (lowerDie_calm hs)) (.ite (followClock_calm hs) (.ite (setPower_calm hs) hs))

theorem tellLimited_calm {d : Nat} (hs : Calm q z s) : Calm q z (tellLimited s d) := by
  unfold tellLimited
  extract_lets
  split
  · exact hs
  · exact .ite hs (nimWarn_calm (setPower_calm hs))

theorem takePower_calm {split : List Nat} {d : Nat} (hs : Calm q z s) : Calm q z (takePower split s d) := setPower_calm hs

theorem evalCoolant_calm (hs : Calm q z s) : Calm q z (evalCoolant s) := setNum_calm (setNum_calm (setNum_calm (setNum_calm (setNum_calm (.upd hs)))))

theorem powerSample_calm {split : List Nat} (hs : Calm q z s) : Calm q z (powerSample s split) :=
  .ite hs (evalCoolant_calm (.foldl (fun _ _ ha => setNum_calm ha) (.foldl (fun _ _ ha => tellLimited_calm ha) (.foldl (fun _ _ ha => limitDie_calm
    ha) (periodTaken_calm (.foldl (fun _ _ ha => takePower_calm ha) hs))))))

theorem checkValid_calm {k : Nat} {old : Spot} (hs : Calm q z s) : Calm q z (checkValid s k old) :=
  .ite (raiseFault_calm (.ite (nimWarn_calm (setSpot_calm hs)) hs)) (.ite (nimWarn_calm (setSpot_calm hs)) hs)

theorem checkPair_calm {k : Nat} (hs : Calm q z s) : Calm q z (checkPair s k) :=
  .ite hs (.ite (setSpot_calm hs) (.ite (setSpot_calm hs) (setSpot_calm hs)))

theorem checkHeat_calm {k : Nat} (hs : Calm q z s) : Calm q z (checkHeat s k) := by
  unfold checkHeat
  split
  · exact hs
  · exact .ite (dieFault_calm (.ite (nimWarn_calm (setSpot_calm hs)) (setSpot_calm hs))) (.ite (nimWarn_calm (setSpot_calm hs)) (setSpot_calm hs))

theorem takeReading_calm {r : TempReading} (hs : Calm q z s) : Calm q z (takeReading s r) :=
  .ite hs (checkHeat_calm (checkPair_calm (checkValid_calm (setSpot_calm hs))))

theorem updateCap_calm {f : Nat} (hs : Calm q z s) : Calm q z (updateCap s f) := .ite hs (.upd hs)

theorem slowHot_calm {d : Nat} (hs : Calm q z s) : Calm q z (slowHot s d) := .ite (lowerDie_calm hs) hs

theorem slowStack_calm {d : Nat} (hs : Calm q z s) : Calm q z (slowStack s d) :=
  .ite (lowerTo_calm hs) (.ite (periodTaken_calm (lowerDie_calm hs)) hs)

theorem releaseTrips_calm (hs : Calm q z s) : Calm q z (releaseTrips s) := .upd hs

theorem noteCoolant_calm (hs : Calm q z s) : Calm q z (noteCoolant s) := .upd hs

theorem tempConversion_calm {rs : List TempReading} (hs : Calm q z s) : Calm q z (tempConversion s rs) :=
  .ite hs (evalCoolant_calm (noteCoolant_calm (releaseTrips_calm (.foldl (fun _ _ ha => updateCap_calm ha) (.foldl (fun _ _ ha => slowStack_calm ha)
    (.foldl (fun _ _ ha => slowHot_calm ha) (periodTaken_calm (.foldl (fun _ _ ha => takeReading_calm ha) hs))))))))

theorem pairSuspect_calm {k : Nat} (hs : Calm q z s) : Calm q z (pairSuspect s k) := by
  unfold pairSuspect
  extract_lets
  split
  · exact hs
  · exact .ite hs (nimWarn_calm (setSpot_calm hs))

theorem pairClear_calm {k : Nat} (hs : Calm q z s) : Calm q z (pairClear s k) := by
  unfold pairClear
  extract_lets
  split
  · exact hs
  · exact .ite hs (setSpot_calm hs)

theorem conversionTimeout_calm {k : Nat} {second : Bool} (hs : Calm q z s) : Calm q z (conversionTimeout s k second) :=
  .ite hs (checkHeat_calm (checkPair_calm (checkValid_calm (setSpot_calm hs))))

theorem trip_calm {k : Nat} (hs : Calm q z s) : Calm q z (trip s k) := .ite hs (raiseFault_calm (.upd hs))

theorem thermtripCheck_calm {seat : Nat} (hs : Calm q z s) : Calm q z (thermtripCheck s seat) := by
  unfold thermtripCheck
  split
  · exact hs
  · exact .ite hs (.upd hs)

theorem tachPulse_calm (hs : Calm q z s) : Calm q z (tachPulse s) := .ite hs (evalCoolant_calm (.upd hs))

theorem coolantStop_calm {cause : Nat} (hs : Calm q z s) : Calm q z (coolantStop s cause) :=
  nimWarn_calm (.ite (followClocks_calm (.upd (stopScope_calm (dieFault_calm (setNum_calm (count32_calm hs)))))) (setDevState_calm (followClocks_calm
    (.upd (stopScope_calm (dieFault_calm (setNum_calm (count32_calm hs))))))))

theorem riseEval_calm (hs : Calm q z s) : Calm q z (riseEval s) := by
  unfold riseEval
  refine .ite hs ?_
  dsimp only
  split
  · exact periodTaken_calm hs
  · exact .ite (coolantStop_calm (periodTaken_calm hs)) (periodTaken_calm hs)

theorem zeroFlow_calm (hs : Calm q z s) : Calm q z (zeroFlow s) := .ite hs (coolantStop_calm (evalCoolant_calm hs))

theorem stageChange_calm (hs : Calm q z s) : Calm q z (stageChange s) :=
  .ite hs (.ite (degrade_calm (nimWarn_calm (setNum_calm (.upd hs)))) (undegrade_calm (nimWarn_calm (setNum_calm (.upd hs)))))

theorem tachDisagree_calm (hs : Calm q z s) : Calm q z (tachDisagree s) := by
  unfold tachDisagree
  split
  · exact hs
  · exact .ite hs (nimWarn_calm (periodTaken_calm hs))

theorem survivalExit_calm (hs : Calm q z s) : Calm q z (survivalExit s) := by
  unfold survivalExit
  split
  · exact .ite hs (restartDevice_calm (undegrade_calm (setNum_calm (.upd hs))))
  · exact hs

theorem survivalTimeout_calm (hs : Calm q z s) : Calm q z (survivalTimeout s) := by
  unfold survivalTimeout
  split
  · exact hs
  · exact .ite hs (.upd (resetAll_calm (dieFault_calm hs)))

/-! ### Machine/MemCtl -/

theorem setBank_calm {k : Nat} {b : Bank} (hs : Calm q z s) : Calm q z (s.setBank k b) := .upd hs

theorem activate_calm {k row : Nat} (hs : Calm q z s) : Calm q z (activate s k row) :=
  .ite (count64_calm (.ite (count64_calm (setBank_calm hs)) (setBank_calm hs))) (.ite (count64_calm (setBank_calm hs)) (setBank_calm hs))

theorem serve_calm {o : Nat} (hs : Calm q z s) : Calm q z (serve s o) := setBank_calm (.ite hs (activate_calm (setBank_calm hs)))

theorem afterServe_calm {k : Nat} (hs : Calm q z s) : Calm q z (afterServe s k) := by
  unfold afterServe
  extract_lets
  split
  · exact hs
  · exact .ite hs (setBank_calm hs)

theorem drainIn_calm (hs : Calm q z s) : Calm q z (drainIn s) := .foldl (fun _ _ ha => .ite (enqueue_calm (dramLine_calm ha)) (.upd ha)) (.upd hs)

theorem refreshBank_calm {n pc bank : Nat} (hs : Calm q z s) : Calm q z (refreshBank s n pc bank) := .ite hs (setBank_calm hs)

theorem actTableClear_calm {n pc bank : Nat} (hs : Calm q z s) : Calm q z (actTableClear s n pc bank) := .ite hs (setBank_calm hs)

theorem rowIdleClose_calm {n pc bank : Nat} (hs : Calm q z s) : Calm q z (rowIdleClose s n pc bank) := .ite hs (setBank_calm hs)

theorem setScrub_calm {k : Nat} {x : Scrub} (hs : Calm q z s) : Calm q z (s.setScrub k x) := .upd hs

theorem qualify_calm {k a' : Nat} (hs : Calm q z s) : Calm q z (qualify s k a') :=
  .ite hs (.ite (nimWarn_calm hs) (.ite (raiseFault_calm hs) (setScrub_calm hs)))

theorem noteSeverity_calm {n : Nat} (hs : Calm q z s) : Calm q z (noteSeverity s n) := .upd (takeFree_calm hs)

theorem dramFound_calm {o : Nat} {found : EccResult} (hs : Calm q z s) : Calm q z (dramFound s o found) := by
  unfold dramFound
  extract_lets
  split
  · exact noteSeverity_calm hs
  · exact setScrub_calm (count64_calm (noteSeverity_calm hs))
  · exact qualify_calm (integrityEvent_calm (dramSetPoison_calm (count64_calm (noteSeverity_calm hs))))

theorem takeMask_calm {at_ : Nat} (hs : Calm q z s) : Calm q z (takeMask s at_).2 := .upd hs

theorem wrIssued_calm {tag : Nat} {tileOk : Bool} (hs : Calm q z s) : Calm q z (wrIssued s tag tileOk) := by
  unfold wrIssued
  split
  · exact hs
  · exact .ite (dropReq_calm hs) (.ite hs (acceptReq_calm (enqueue_calm (dramLine_calm (.ite (.ite_snd hs (takeMask_calm hs)) (tileFail_calm (.ite_snd
    hs (takeMask_calm hs))))))))

theorem rdIssued_calm {tag : Nat} {found : EccResult} (hs : Calm q z s) : Calm q z (rdIssued s tag found) := by
  unfold rdIssued
  split
  · exact hs
  · exact .ite (dropReq_calm hs) (.ite hs (acceptReq_calm (enqueue_calm (.upd (dramFound_calm hs)))))

theorem reqDone_calm {r : LineReq} (hs : Calm q z s) : Calm q z (reqDone s r) := modFacet_calm (dropReq_calm hs)

theorem wackIssued_calm {tag : Nat} (hs : Calm q z s) : Calm q z (wackIssued s tag) := by
  unfold wackIssued
  split
  · exact hs
  · exact .ite (reqDone_calm hs) hs

theorem rretIssued_calm {tag : Nat} {tileOk : Bool} (hs : Calm q z s) : Calm q z (rretIssued s tag tileOk) := by
  unfold rretIssued
  split
  · exact reqDone_calm (modFacet_calm (.upd (.ite hs (tileFail_calm hs))))
  · exact hs

theorem rderrIssued_calm {tag : Nat} (hs : Calm q z s) : Calm q z (rderrIssued s tag) := by
  unfold rderrIssued
  split
  · exact hs
  · exact .ite hs (failSite_calm (dropReq_calm (.upd hs)))

theorem toGuest_calm {o : Output} (hs : Calm q z s) : Calm q z (toGuest s o) := .upd hs

theorem guestCount_calm {fn : Nat} (hs : Calm q z s) : Calm q z (guestCount s fn) := .upd hs

theorem toScanOut_calm {o : Output} (hs : Calm q z s) : Calm q z (toScanOut s o) := .upd hs

theorem drainScan_calm {n : Nat} (hs : Calm q z s) : Calm q z (drainScan s n) := .upd hs

theorem guestAdmit_calm {w : GuestWait} (hs : Calm q z s) : Calm q z (guestAdmit s w) :=
  .ite (.ite (guestCount_calm hs) (toGuest_calm (guestCount_calm hs))) (.ite (toGuest_calm (dramLine_calm (.ite (enqueue_calm (guestCount_calm hs))
    (tileFail_calm (enqueue_calm (guestCount_calm hs)))))) (.ite (toScanOut_calm (dramFound_calm (enqueue_calm (guestCount_calm hs)))) (toGuest_calm
    (dramFound_calm (enqueue_calm (guestCount_calm hs))))))

theorem guestPass_calm {w : GuestWait} (hs : Calm q z s) : Calm q z (guestPass s w) := .ite (guestAdmit_calm hs) (.upd hs)

theorem guestArrive_calm {w : GuestWait} {masked : Bool} (hs : Calm q z s) : Calm q z (guestArrive s w masked) :=
  .ite hs (.ite (toGuest_calm (fwReject_calm hs)) (guestPass_calm hs))

theorem guestWrite_calm {g : GuestLine} {tileOk : Bool} (hs : Calm q z s) : Calm q z (guestWrite s g tileOk) :=
  .ite hs (.ite (toGuest_calm (takeMask_calm (takeMask_calm hs))) (guestArrive_calm (takeMask_calm (takeMask_calm hs))))

theorem wrArrive_calm {q' : LineRef} {tileOk : Bool} (hs : Calm q z s) : Calm q z (wrArrive s q' tileOk) := by
  unfold wrArrive
  split
  · exact wrIssued_calm hs
  · exact guestWrite_calm hs

theorem rdArrive_calm {q' : LineRef} {found : EccResult} (hs : Calm q z s) : Calm q z (rdArrive s q' found) := by
  unfold rdArrive
  split
  · exact rdIssued_calm hs
  · exact guestArrive_calm hs

theorem keepMask_calm {port bits : Nat} (hs : Calm q z s) : Calm q z (keepMask s port bits) := .upd hs

theorem maskArrive_calm {m : MaskRef} {bits : Nat} (hs : Calm q z s) : Calm q z (maskArrive s m bits) := by
  unfold maskArrive
  split
  · exact .ite hs (.ite (keepMask_calm hs) (keepMask_calm (fwReject_calm hs)))
  · exact .ite hs (keepMask_calm hs)

theorem guestResponse_calm {m : ShortHdr} (hs : Calm q z s) : Calm q z (guestResponse s m) := .ite (fwReject_calm hs) hs

theorem dropEvt_calm (hs : Calm q z s) : Calm q z (dropEvt s) := count64_calm hs

theorem evtArrive_calm {m : ShortHdr} {line : Nat} (hs : Calm q z s) : Calm q z (evtArrive s m line) :=
  .ite hs (.ite (fwReject_calm hs) (.ite (fwReject_calm hs) (.ite (dropEvt_calm hs) (.ite hs (.ite (dropEvt_calm hs) (atUnit_calm (fun _ ha => .ite
    (dropEvt_calm (vtPostOn_calm ha)) (.upd (vtPostOn_calm ha))) hs))))))

theorem coreDo_calm {core a' : Nat} {op : CoreOp} (hs : Calm q z s) : Calm q z (coreDo s core a' op) := by
  unfold coreDo
  extract_lets
  split
  · exact hs
  · split
    · exact toGuest_calm hs
    · exact toGuest_calm (dramWrite_calm hs)
  · split
    · exact toGuest_calm hs
    · exact toGuest_calm (sramWrite_calm hs)

theorem coreLine_calm {core o : Nat} {write : Bool} (hs : Calm q z s) : Calm q z (coreLine s core o write) := enqueue_calm (.upd hs)

theorem coreIssue_calm {core : Nat} {write : Bool} {l : List Nat} (hs : Calm q z s) : Calm q z (coreIssue s core write l).1 := by
  induction l generalizing s with
  | nil => exact hs
  | cons o r ih => exact .ite_fst (ih (coreLine_calm hs)) hs

theorem coreAdmit_calm {core a' : Nat} {op : CoreOp} {done : Nat} (hs : Calm q z s) : Calm q z (coreAdmit s core a' op done) :=
  .ite (coreDo_calm (coreIssue_calm hs)) (.upd (coreIssue_calm hs))

theorem coreAccess_calm {core a' : Nat} {op : CoreOp} (hs : Calm q z s) : Calm q z (coreAccess s core a' op) :=
  .ite hs (.ite (toGuest_calm hs) (.ite (.upd hs) (coreAdmit_calm hs)))

theorem closeWindow_calm (hs : Calm q z s) : Calm q z (closeWindow s) := .upd (.foldl (fun _ _ ha => count32_calm ha) hs)

theorem takeBudgets_calm (hs : Calm q z s) : Calm q z (takeBudgets s) := .upd hs

theorem resumeGuest_calm (hs : Calm q z s) : Calm q z (resumeGuest s) := .foldl (fun _ _ ha => .ite (guestAdmit_calm ha) (.upd ha)) (.upd hs)

theorem resumeCores_calm (hs : Calm q z s) : Calm q z (resumeCores s) :=
  .foldl (fun _ _ ha => .ite (toGuest_calm ha) (.ite (.upd ha) (coreAdmit_calm ha))) (.upd hs)

theorem resumeAll_calm (hs : Calm q z s) : Calm q z (resumeAll s) := resumeCores_calm (resumeGuest_calm (drainIn_calm (pullIngress_calm hs)))

theorem regulatorWindow_calm (hs : Calm q z s) : Calm q z (regulatorWindow s) :=
  .ite hs (resumeAll_calm (.upd (takeBudgets_calm (closeWindow_calm hs))))

theorem issueAt_calm {n pc i : Nat} {r : QReq} (hs : Calm q z s) : Calm q z (issueAt s n pc i r) :=
  afterServe_calm (serve_calm (countLines_calm (setQueue_calm hs)))

theorem memctlIssue_calm {n pc : Nat} (hs : Calm q z s) : Calm q z (memctlIssue s n pc) := by
  unfold memctlIssue
  extract_lets
  refine .ite hs ?_
  split
  · exact hs
  · split
    · exact hs
    · exact resumeAll_calm (issueAt_calm hs)

theorem panicReport_calm {i level : Nat} (hs : Calm q z s) : Calm q z (panicReport s i level) := .ite (drainScan_calm hs) hs

theorem setPanic_calm {i : Nat} {p : Panic} (hs : Calm q z s) : Calm q z (s.setPanic i p) := .upd hs

theorem noteLevel_calm {i : Nat} (hs : Calm q z s) : Calm q z (noteLevel s i) := setPanic_calm hs

theorem panicEnter_calm {i reported : Nat} (hs : Calm q z s) : Calm q z (panicEnter s i reported) :=
  .ite (noteLevel_calm (panicReport_calm hs)) (count32_calm (setPanic_calm (panicReport_calm hs)))

theorem panicExit_calm {i reported : Nat} (hs : Calm q z s) : Calm q z (panicExit s i reported) :=
  .ite (noteLevel_calm (panicReport_calm hs)) (count64_calm (setPanic_calm (panicReport_calm hs)))

theorem panicSustained_calm {i : Nat} (hs : Calm q z s) : Calm q z (panicSustained s i) := .ite hs (nimWarn_calm (dieFault_calm (setPanic_calm hs)))

/-! ### Machine/Integrity -/

theorem scrubCorrected_calm {st : Store} {a' : Nat} (hs : Calm q z s) : Calm q z (scrubCorrected s st a') :=
  .ite (qualify_calm (setScrub_calm hs)) (setScrub_calm hs)

theorem lsCount_calm {f lo width : Nat} (hs : Calm q z s) : Calm q z (lsCount s f lo width) := .ite hs (setNum_calm hs)

theorem codeFound_calm {st : Store} {line word : Nat} {found : EccResult} (hs : Calm q z s) : Calm q z (codeFound s st line word found) := by
  unfold codeFound
  split
  · exact dramFound_calm hs
  · split
    · exact hs
    · exact modFacet_calm (scrubCorrected_calm (lsCount_calm hs))
    · exact qualify_calm (integrityEvent_calm (modFacet_calm (lsCount_calm hs)))
  · split
    · exact hs
    · exact setScrub_calm (count64_calm hs)
    · exact integrityEvent_calm (sramSetPoison_calm (count64_calm hs))

theorem scrubFound_calm {st : Store} {line word : Nat} {found : EccResult} (hs : Calm q z s) : Calm q z (scrubFound s st line word found) := by
  unfold scrubFound
  split
  · exact .ite (scrubCorrected_calm (codeFound_calm (afterServe_calm (serve_calm hs)))) (codeFound_calm (afterServe_calm (serve_calm hs)))
  · exact codeFound_calm hs

theorem scrubLap_calm {st : Store} {t : Nat} (hs : Calm q z s) : Calm q z (scrubLap s st t) := by
  unfold scrubLap
  split <;> exact setNum_calm hs

theorem scrubNext_calm {st : Store} {line : Nat} (hs : Calm q z s) : Calm q z (scrubNext s st line) := by
  cases st with
  | dram n => exact .ite (setScrub_calm (.upd hs)) (scrubLap_calm (setScrub_calm (.upd hs)))
  | localStore f => exact .ite (setScrub_calm hs) (scrubLap_calm (setScrub_calm hs))
  | hubSram h => exact .ite (setScrub_calm hs) (scrubLap_calm (setScrub_calm hs))

theorem scrubRead_calm {st : Store} {found : EccResult} {word : Nat} (hs : Calm q z s) : Calm q z (scrubRead s st found word) := by
  unfold scrubRead
  refine .ite hs ?_
  split
  · exact hs
  · exact scrubNext_calm (scrubFound_calm hs)

theorem writeBack_calm {st : Store} {addr : Nat} (hs : Calm q z s) : Calm q z (writeBack s st addr) := by
  unfold writeBack
  extract_lets
  split
  · exact .ite (afterServe_calm (serve_calm (setScrub_calm hs))) hs
  · exact .ite (setScrub_calm hs) hs
  · exact .ite (modFacet_calm hs) hs

theorem pendRepair_calm {n row : Nat} (hs : Calm q z s) : Calm q z (pendRepair s n row) := .ite hs (.upd hs)

theorem remapCopy_calm {st : Store} {addr : Nat} (hs : Calm q z s) : Calm q z (remapCopy s st addr) := by
  unfold remapCopy
  extract_lets
  split
  · exact .ite hs (.ite (qualify_calm (setScrub_calm hs)) (pendRepair_calm (setNum_calm (setScrub_calm hs))))
  · exact .ite hs (.ite (qualify_calm (setScrub_calm hs)) (lsCount_calm (setScrub_calm hs)))
  · exact hs

theorem scrubLapLimit_calm {st : Store} (hs : Calm q z s) : Calm q z (scrubLapLimit s st) := .ite hs (nimWarn_calm (setScrub_calm hs))

theorem intProbe_calm {h : Nat} (hs : Calm q z s) : Calm q z (intProbe s h) :=
  runCmd_calm (fun _ _ _ ha => done_calm (countPaged_calm (outWrite_calm (.foldl (fun _ _ hb => engineLines_calm hb) ha)))) hs

/-! ### Machine/Streams -/

theorem strWrite_calm {n : Nat} {value : List Byte} (hs : Calm q z s) : Calm q z (strWrite s n value).2 :=
  .ite_snd hs (.ite_snd (.ite_snd hs (.ite_snd (.upd hs) (setOcts_calm hs))) (.ite_snd hs (.ite_snd (.ite_snd hs (.upd (setNum_calm (setOcts_calm
    hs)))) (setOcts_calm hs))))

theorem strSet_calm {h : Nat} (hs : Calm q z s) : Calm q z (strSet s h) :=
  runCmd_calm (fun _ _ _ ha => .ite (done_calm ha) (done_calm (strWrite_calm ha))) hs

theorem bufferLines_calm {n : Nat} {f : Frame} {first : Nat} {bytes : List Byte} (hs : Calm q z s) : Calm q z (bufferLines s n f first bytes) :=
  drainIn_calm (.upd hs)

theorem setFrame_calm {n : Nat} {f : Frame} (hs : Calm q z s) : Calm q z (setFrame s n f) := .upd hs

theorem closeFrame_calm {n flags stamp : Nat} (hs : Calm q z s) : Calm q z (closeFrame s n flags stamp) := by
  unfold closeFrame
  split
  · exact hs
  · exact .ite (setOcts_calm (.upd hs)) (.upd hs)

theorem expireFrame_calm {n : Nat} (hs : Calm q z s) : Calm q z (expireFrame s n) := by
  unfold expireFrame
  split
  · exact hs
  · exact .ite (closeFrame_calm hs) hs

theorem startFrame_calm {n fnum : Nat} (hs : Calm q z s) : Calm q z (startFrame s n fnum) :=
  .ite (closeFrame_calm (expireFrame_calm hs)) (.ite (count32_calm (closeFrame_calm (expireFrame_calm hs))) (setFrame_calm (bufferLines_calm
    (closeFrame_calm (expireFrame_calm hs)))))

theorem frameStart_calm {port vc fnum : Nat} (hs : Calm q z s) : Calm q z (frameStart s port vc fnum) :=
  .ite hs (.foldl (fun _ _ ha => startFrame_calm ha) hs)

theorem frameEnd_calm {port vc : Nat} (hs : Calm q z s) : Calm q z (frameEnd s port vc) :=
  .ite hs (.ite (count64_calm (.foldl (fun _ _ ha => expireFrame_calm ha) hs)) (.foldl (fun _ _ ha => closeFrame_calm ha) (.foldl (fun _ _ ha =>
    expireFrame_calm ha) hs)))

theorem countShort_calm {k : Nat} (hs : Calm q z s) : Calm q z (countShort s k) := .upd hs

theorem takeLine_calm {n : Nat} {f : Frame} {p : LongPacket} (hs : Calm q z s) : Calm q z (takeLine s n f p) :=
  .ite (setFrame_calm (count64_calm hs)) (.ite (setFrame_calm hs) (setFrame_calm (bufferLines_calm hs)))

theorem badHeader_calm {port : Nat} (hs : Calm q z s) : Calm q z (badHeader s port) := .upd (count64_calm hs)

theorem longPacket_calm {port : Nat} {p : LongPacket} (hs : Calm q z s) : Calm q z (longPacket s port p) := by
  unfold longPacket
  refine .ite hs (.ite (badHeader_calm (.foldl (fun _ _ ha => expireFrame_calm ha) (.foldl (fun _ _ ha => expireFrame_calm ha) hs))) ?_)
  split
  · exact count64_calm (.foldl (fun _ _ ha => expireFrame_calm ha) hs)
  · split
    · exact count64_calm (.foldl (fun _ _ ha => expireFrame_calm ha) hs)
    · exact takeLine_calm (.foldl (fun _ _ ha => expireFrame_calm ha) hs)

theorem frameFinal_calm {n : Nat} (hs : Calm q z s) : Calm q z (frameFinal s n) := by
  unfold frameFinal
  split
  · exact hs
  · extract_lets o unit r s1 next i y s2 s3 s4 v
    have h3 : Calm q z s3 := setOcts_calm (.upd (enqueue_calm (dramLine_calm hs)))
    have h4 : Calm q z s4 := .ite (setNum_calm h3) h3
    have hv : Calm q z v.2 := vtSetOn_calm (unitTook_calm h4)
    exact .ite hs (.ite h4 (.ite hv (count32_calm hv)))

theorem txSent_calm {port h : Nat} {x : Slot} (hs : Calm q z s) : Calm q z (txSent s port h x) :=
  .upd (.ite (count64_calm (setNum_calm (.foldl (fun _ _ ha => countPaged_calm ha) hs))) (setNum_calm (.foldl (fun _ _ ha => countPaged_calm ha) hs)))

theorem txSend_calm {port : Nat} (hs : Calm q z s) : Calm q z (txSend s port) := by
  unfold txSend
  split
  · exact hs
  · exact .ite hs (.ite (runTorn_calm (fun _ ha => done_calm (txSent_calm ha)) hs) (done_calm (txSent_calm hs)))

/-! ### Machine/Plane -/

theorem fusWrite_calm {b : Nat} {value : List Byte} (hs : Calm q z s) : Calm q z (fusWrite s b value).2 := .ite_snd hs (.upd (setOcts_calm hs))

theorem setSensor_calm {b i : Nat} {x : Sensor} (hs : Calm q z s) : Calm q z (s.setSensor b i x) := .upd hs

theorem calWrite_calm {b i : Nat} {value : List Byte} (hs : Calm q z s) : Calm q z (calWrite s b i value).2 :=
  .ite_snd hs (setSensor_calm (setOcts_calm hs))

theorem recordSample_calm {b i ts sensor : Nat} (hs : Calm q z s) : Calm q z (recordSample s b i ts sensor) := .ite (count64_calm (.upd hs)) (.upd hs)

theorem setPeBuf_calm {hub : Nat} {p : PeBuf} (hs : Calm q z s) : Calm q z (s.setPeBuf hub p) := .upd hs

theorem peBegin_calm {x : Slot} (hs : Calm q z s) : Calm q z (peBegin s x) := setPeBuf_calm hs

theorem peCount_calm {x : Slot} {voxel : Bool} (hs : Calm q z s) : Calm q z (peCount s x voxel) := .foldl (fun _ _ ha => countPaged_calm ha) hs

theorem peDone_calm {x : Slot} {voxel : Bool} {p : PeBuf} (hs : Calm q z s) : Calm q z (peDone s x voxel p) :=
  .ite (countPaged_calm (outWrite_calm (setPeBuf_calm (peCount_calm hs)))) (setPeBuf_calm (peCount_calm hs))

theorem peRun_calm {h code : Nat} {voxel : Bool} (hs : Calm q z s) : Calm q z (peRun s h code voxel) := by
  unfold peRun
  refine runCmd_calm (fun _ _ _ ha => ?_) hs
  split
  · exact done_calm ha
  · exact .ite (done_calm (peCount_calm ha)) (done_calm (peDone_calm ha))

/-! ### Machine/Fusion -/

theorem bindCount_calm {b k i n : Nat} {write : Bool} (hs : Calm q z s) : Calm q z (bindCount s b k i n write) := countArea_calm hs

theorem tableError_calm {b which n : Nat} (hs : Calm q z s) : Calm q z (tableError s b which n) := nimWarn_calm (count32_calm hs)

theorem applyProposals_calm {b n : Nat} (hs : Calm q z s) : Calm q z (applyProposals s b n) := by
  unfold applyProposals
  extract_lets k s1 r lines
  have h1 : Calm q z s1 := bindCount_calm hs
  exact .ite (tableError_calm h1) (.foldl (fun _ _ ha => .ite (setSensor_calm ha) ha) h1)

theorem flagSensors_calm {b : Nat} (hs : Calm q z s) : Calm q z (flagSensors s b) := by
  unfold flagSensors
  refine .foldl (fun _ _ ha => ?_) hs
  dsimp only
  split
  · exact .ite (setSensor_calm ha) ha
  · exact .ite ha (nimWarn_calm (setSensor_calm ha))

theorem countOut_calm {b : Nat} (hs : Calm q z s) : Calm q z (countOut s b) := .foldl (fun _ _ ha => .ite ha (setSensor_calm ha)) hs

theorem applyChecks_calm {b n : Nat} {adm : List Nat} (hs : Calm q z s) : Calm q z (applyChecks s b n adm).1 := by
  unfold applyChecks
  extract_lets k s1 recs v s2 dgr
  have h1 : Calm q z s1 := bindCount_calm hs
  have h2 : Calm q z s2 := .foldl (fun _ _ ha => count64_calm (setSensor_calm ha)) h1
  exact .ite_fst (tableError_calm h1) h2

theorem closeInstant_calm {b i dgr : Nat} {lost : Bool} (hs : Calm q z s) : Calm q z (closeInstant s b i dgr lost) :=
  .ite (.upd (.ite (setNum_calm (bindCount_calm (areaWrite_calm hs))) hs)) (setNum_calm (.upd (.ite (setNum_calm (bindCount_calm (areaWrite_calm hs)))
    hs)))

theorem fusionBoundary_calm {b tick : Nat} {committed : List Nat} {lost : Bool} (hs : Calm q z s) :
    Calm q z (fusionBoundary s b tick committed lost) := by
  unfold fusionBoundary
  extract_lets r s1 s2 adm
  have h2 : Calm q z s2 := countOut_calm (flagSensors_calm (.foldl (fun _ _ ha => applyProposals_calm ha) hs))
  clear_value s2
  refine .ite hs ?_
  split
  next s3 dgrs hp =>
    have h3 : Calm q z (s3, dgrs).1 := by
      rw [← hp]
      exact .foldl_fst (fun a n ha => by dsimp only; exact applyChecks_calm ha) h2
    have h4 : Calm q z (dgrs.foldl (fun a p => if p.1 < bindLag r then a else closeInstant a b (p.1 - bindLag r) p.2 false) s3) :=
      .foldl (fun _ _ ha => .ite ha (closeInstant_calm ha)) h3
    exact .ite (closeInstant_calm h4) h4

theorem outExpiry_calm {b i : Nat} (hs : Calm q z s) : Calm q z (outExpiry s b i) := .ite (setSensor_calm hs) hs

theorem checkBindings_calm (hs : Calm q z s) : Calm q z (checkBindings s) := .foldl (fun _ _ ha => .ite ha (nimWarn_calm (setOcts_calm ha))) hs

theorem solveReads_calm {x : Slot} (hs : Calm q z s) : Calm q z (solveReads s x) := .foldl (fun _ _ ha => countPaged_calm ha) hs

theorem solveDone_calm {x : Slot} (hs : Calm q z s) : Calm q z (solveDone s x) := countPaged_calm (outWrite_calm (solveReads_calm hs))

theorem asSolve_calm {h : Nat} (hs : Calm q z s) : Calm q z (asSolve s h) :=
  runCmd_calm (fun _ _ _ ha => .ite (done_calm (solveReads_calm ha)) (done_calm (solveDone_calm ha))) hs

/-! ### Machine/Gateway -/

theorem ptpSync_calm {hub t0 ratio : Nat} (hs : Calm q z s) : Calm q z (ptpSync s hub t0 ratio) := .ite hs (setOcts_calm hs)

theorem qbvWrite_calm {n : Nat} {value : List Byte} (hs : Calm q z s) : Calm q z (qbvWrite s n value).2 :=
  .ite_snd hs (.ite_snd hs (.upd (setOcts_calm hs)))

theorem gateSwitch_calm {n : Nat} (hs : Calm q z s) : Calm q z (gateSwitch s n) := by
  unfold gateSwitch
  split
  · exact .ite (.upd hs) hs
  · exact hs

theorem drainGates_calm (hs : Calm q z s) : Calm q z (drainGates s) := .ite hs (.upd hs)

theorem sendFrame_calm {hub cls : Nat} {queue : Option Nat} {ports : List Nat} {frame : List Byte} (hs : Calm q z s) :
    Calm q z (sendFrame s hub cls queue ports frame) :=
  drainGates_calm (.upd hs)

theorem meterPass_calm {hub m n : Nat} (hs : Calm q z s) : Calm q z (meterPass s hub m n).2 :=
  .ite_snd hs (.ite_snd (.upd hs) (.ite_snd (.upd hs) (.upd hs)))

theorem frerTag_calm {hub : Nat} {frame : List Byte} (hs : Calm q z s) : Calm q z (frerTag s hub frame).2 := by
  unfold frerTag
  split
  · exact hs
  · exact .upd hs

theorem frerPass_calm {hub : Nat} {frame : List Byte} (hs : Calm q z s) : Calm q z (frerPass s hub frame).2 := by
  unfold frerPass
  split
  · exact hs
  · split
    · exact hs
    · exact .upd hs
    · refine .ite_snd (.upd hs) ?_
      split
      · exact hs
      · exact .upd hs

theorem txBegin_calm {hub n i : Nat} (hs : Calm q z s) : Calm q z (txBegin s hub n i) := by
  unfold txBegin
  extract_lets k at_ flags seq env begun
  have begun_calm {a : State} {bad : Bool} (ha : Calm q z a) : Calm q z (begun a bad) := .upd ha
  split
  next got poisoned pages _ =>
    extract_lets inv body s1 s2 o s3
    have h1 : Calm q z s1 := begun_calm (countPaged_calm hs)
    have h2 : Calm q z s2 := .ite (count64_calm h1) h1
    have h3 : Calm q z s3 := .ite (.upd h2) h2
    refine .ite (begun_calm hs) ?_
    split
    next frame s4 h =>
      have h4 : Calm q z (frame, s4).2 := h ▸ frerTag_calm h3
      exact .ite (sendFrame_calm h4) h3

theorem txScan_calm {hub q' : Nat} (hs : Calm q z s) : Calm q z (txScan s hub q') := by
  unfold txScan
  extract_lets
  refine .ite hs ?_
  split
  · exact hs
  · exact txBegin_calm hs

theorem txComplete_calm {hub q' status : Nat} (hs : Calm q z s) : Calm q z (txComplete s hub q' status) := by
  unfold txComplete
  extract_lets
  split
  · exact drainGates_calm hs
  · exact .ite (drainGates_calm hs) (.upd (sramWrite_calm (.ite (sramWrite_calm (sramWrite_calm (drainGates_calm hs))) (sramWrite_calm
    (drainGates_calm hs)))))

theorem canWrite_calm {c i own seq : Nat} {f : CanFrame} (hs : Calm q z s) : Calm q z (canWrite s c i own seq f) := by
  unfold canWrite
  exact sramWrite_calm hs

theorem canSend_calm {c : Nat} (hs : Calm q z s) : Calm q z (canSend s c) := by
  unfold canSend
  extract_lets
  split
  · exact hs
  · exact .ite hs (.upd (sramWrite_calm (sramWrite_calm hs)))

theorem sendPdu_calm {b : Nat} (hs : Calm q z s) : Calm q z (sendPdu s b) := by
  unfold sendPdu
  split
  · exact hs
  · exact sendFrame_calm (.upd hs)

theorem bridgeFrame_calm {b c : Nat} {f : CanFrame} (hs : Calm q z s) : Calm q z (bridgeFrame s b c f) :=
  .ite hs (.ite (sendPdu_calm (.upd hs)) (.upd hs))

theorem bridgeExpiry_calm {b : Nat} (hs : Calm q z s) : Calm q z (bridgeExpiry s b) := by
  unfold bridgeExpiry
  split
  · exact hs
  · exact .ite hs (sendPdu_calm hs)

theorem canStore_calm {c : Nat} {f : CanFrame} (hs : Calm q z s) : Calm q z (canStore s c f) :=
  .ite hs (.ite (.upd (canWrite_calm hs)) (count64_calm hs))

theorem canReceive_calm {c : Nat} {f : CanFrame} (hs : Calm q z s) : Calm q z (canReceive s c f) :=
  .ite hs (.foldl (fun _ _ ha => bridgeFrame_calm ha) (canStore_calm hs))

theorem bridgeIn_calm {b : Nat} {m : Nat × CanFrame} (hs : Calm q z s) : Calm q z (bridgeIn s b m) := by
  unfold bridgeIn
  dsimp only
  split
  · exact count64_calm hs
  · exact canWrite_calm hs

theorem rxQueue_calm {hub : Nat} {frame : List Byte} (hs : Calm q z s) : Calm q z (rxQueue s hub frame).2 :=
  .ite_snd hs (.ite_snd (frerPass_calm (.ite_snd (meterPass_calm hs) hs)) (.ite_snd (meterPass_calm hs) hs))

theorem ethStore_calm {hub q' : Nat} {frame : List Byte} (hs : Calm q z s) : Calm q z (ethStore s hub q' frame) :=
  .ite (count64_calm hs) (.upd (sramWrite_calm (sramWrite_calm (sramWrite_calm (sramWrite_calm hs)))))

theorem ethReceive_calm {hub : Nat} {frame : List Byte} (hs : Calm q z s) : Calm q z (ethReceive s hub frame) := by
  have h1 : Calm q z (rxQueue s hub frame).2 := rxQueue_calm hs
  unfold ethReceive
  refine .ite hs ?_
  split
  · next hr => rwa [hr] at h1
  · next hr =>
    rw [hr] at h1
    split
    · exact .foldl (fun _ _ ha => bridgeIn_calm ha) h1
    · exact ethStore_calm h1

/-! ### Machine/Secure -/

theorem updVerify_calm {h : Nat} (hs : Calm q z s) : Calm q z (updVerify s h) :=
  runCmd_calm (fun _ _ _ ha => .ite (done_calm (countPaged_calm ha)) (.ite (done_calm (setOcts_calm (countPaged_calm ha))) (done_calm (setOcts_calm
    (countPaged_calm ha))))) hs

theorem setWriting_calm {hub h : Nat} (hs : Calm q z s) : Calm q z (setWriting s hub h) := modHub_calm hs

theorem updHubs_calm {i : Nat} {x : Slot} {img : List Byte} {l : List (List Byte)} {o : Option Nat} (hs : Calm q z s) :
    Calm q z (updHubs s i x img l o) := by
  induction l generalizing s o with
  | nil =>
    cases o with
    | none => exact done_calm (nimWarn_calm hs)
    | some k => exact .ite hs (setWriting_calm hs)
  | cons copy rest ih =>
    cases o with
    | none => exact done_calm (nimWarn_calm hs)
    | some k => exact .ite (done_calm (modHub_calm hs)) (ih (modHub_calm hs))

theorem updWrite_calm {h : Nat} {readback : List (List Byte)} (hs : Calm q z s) : Calm q z (updWrite s h readback) :=
  runCmd_calm (fun _ _ _ ha => .ite ha (.ite (done_calm (.ite (countPaged_calm ha) ha)) (.ite (done_calm (.ite (countPaged_calm ha) ha)) (.ite
    (done_calm (.ite (countPaged_calm ha) ha)) (updHubs_calm (.ite (countPaged_calm ha) ha)))))) hs

theorem attReport_calm {h : Nat} (hs : Calm q z s) : Calm q z (attReport s h) :=
  runCmd_calm (fun _ _ _ ha => done_calm (countPaged_calm (outWrite_calm ha))) hs

theorem setKeySlot_calm {n : Nat} {k : KeySlot} (hs : Calm q z s) : Calm q z (s.setKeySlot n k) := .upd hs

theorem keyWrite_calm {via : Option Nat} {n : Nat} {value : List Byte} (hs : Calm q z s) : Calm q z (keyWrite s via n value).2 :=
  .ite_snd hs (.ite_snd hs (.ite_snd (.upd hs) (.ite_snd hs (.ite_snd hs (.ite_snd hs (setKeySlot_calm hs))))))

theorem recData_calm {hub : Nat} {value : List Byte} (hs : Calm q z s) : Calm q z (recData s hub value).2 :=
  .ite_snd hs (.ite_snd hs (.ite_snd hs (modHub_calm (sramWrite_calm hs))))

theorem recVerify_calm {hub : Nat} (hs : Calm q z s) : Calm q z (recVerify s hub) := .ite hs (.ite (takeImage_calm hs) (bootStatus_calm hs))

theorem recFlash_calm {hub : Nat} {readback : List Byte} (hs : Calm q z s) : Calm q z (recFlash s hub readback) :=
  .ite hs (.ite (bootStatus_calm hs) (.ite (takeImage_calm (modHub_calm hs)) (bootStatus_calm (modHub_calm hs))))

/-! ### Machine/Tap -/

theorem tckEdge_calm {tms tdi : Bool} (hs : Calm q z s) : Calm q z (tckEdge s tms tdi) := .ite hs (.upd (takeFree_calm hs))

/-! ### Machine/VertexCmds -/

theorem vtAlloc_calm {h : Nat} (hs : Calm q z s) : Calm q z (vtAlloc s h) :=
  runCmd_calm (fun _ _ _ ha => .ite ha (.ite (done_calm ha) (.ite (done_calm ha) (done_calm (outWrite_calm (.foldl (fun _ _ hb => setVobj_calm hb)
    (unitTook_calm ha))))))) hs

theorem vtFree_calm {h : Nat} (hs : Calm q z s) : Calm q z (vtFree s h) := by
  unfold vtFree
  refine runCmd_calm (fun _ _ _ ha => ?_) hs
  split
  · exact done_calm ha
  · exact waitOn_calm ha

theorem vtFreeIn_calm {h i : Nat} (hs : Calm q z s) : Calm q z (vtFreeIn s h i) :=
  .ite hs (.ite (done_calm (setSlot_calm (.ite (freeObj_calm (unitTook_calm hs)) hs))) (setSlot_calm (.ite (freeObj_calm (unitTook_calm hs)) hs)))

theorem vtFreeUnit_calm {h i : Nat} (hs : Calm q z s) : Calm q z (vtFreeUnit s h i) := by
  unfold vtFreeUnit
  split
  · exact runTorn_calm (fun _ ha => vtFreeIn_calm ha) hs
  · exact vtFreeIn_calm hs

theorem vtSignal_calm {h code : Nat} {f : State → Nat → Nat → Nat → Nat × State} (hf : ∀ a x1 x2 x3, Calm q z a → Calm q z (f a x1 x2 x3).2)
    (hs : Calm q z s) :
    Calm q z (vtSignal s h code f) :=
  runCmd_calm (fun _ _ _ ha => .ite ha (done_calm (hf _ _ _ _ (unitTook_calm ha)))) hs

theorem vtWatch_calm {h : Nat} (hs : Calm q z s) : Calm q z (vtWatch s h) :=
  runCmd_calm (fun _ _ _ ha => .ite ha (.ite (vtRegister_calm (waitOn_calm (unitTook_calm ha))) (done_calm ha))) hs

theorem vtUnwatch_calm {h : Nat} (hs : Calm q z s) : Calm q z (vtUnwatch s h) := by
  unfold vtUnwatch
  refine runCmd_calm (fun _ _ _ ha => ?_) hs
  dsimp only
  split
  · exact done_calm ha
  · exact .ite ha (done_calm (finish_calm (unitTook_calm (dropWatch_calm ha))))

theorem apxCreate_calm {h : Nat} (hs : Calm q z s) : Calm q z (apxCreate s h) := by
  unfold apxCreate
  refine runCmd_calm (fun _ _ _ ha => .ite ha (.ite (done_calm ha) (.ite (done_calm ha) ?_))) hs
  split
  · exact done_calm ha
  · exact .ite (done_calm ha) (done_calm (outWrite_calm (setBar_calm (unitTook_calm ha))))

theorem apxDestroy_calm {h : Nat} (hs : Calm q z s) : Calm q z (apxDestroy s h) :=
  runCmd_calm (fun _ _ _ ha => .ite (done_calm ha) (.ite ha (done_calm (barDestroy_calm (unitTook_calm ha))))) hs

theorem apxArrive_calm {h : Nat} (hs : Calm q z s) : Calm q z (apxArrive s h) :=
  runCmd_calm (fun _ _ _ ha => .ite (done_calm ha) (.ite ha (.ite (done_calm ha) (.ite (done_calm ha) (barCheck_calm (setBar_calm (barCompare_calm
    (waitOn_calm (unitTook_calm ha))))))))) hs

/-! ### Machine/Post -/

theorem atAcceptance_calm {d : Descriptor} {h : Nat} (hs : Calm q z s) : Calm q z (atAcceptance s d h) :=
  .ite (arm_calm hs) (.ite (recordSample_calm hs) hs)

theorem settleNew_calm {i : Nat} {d : Descriptor} (hs : Calm q z s) : Calm q z (settleNew s i d) :=
  .ite (.ite (finish_calm hs) hs) (.ite (finish_calm (unarmSlot_calm hs)) hs)

theorem post_calm {k key : Nat} {bytes : List Byte} (hs : Calm q z s) : Calm q z (post s k key bytes).2.2 := by
  unfold post
  extract_lets w host d st
  split
  · exact hs
  · split
    · exact hs
    · split
      · exact hs
      · split
        · exact hs
        · exact settleNew_calm (atAcceptance_calm (allocSlot_calm (takeId_calm hs)))

theorem badWrite_calm (hs : Calm q z s) : Calm q z (badWrite s) := count32_calm hs

theorem openWindow_calm {ref : WinRef} {hub sec : Nat} (hs : Calm q z s) : Calm q z (openWindow s ref hub sec) := setWin_calm (.upd (takeId_calm hs))

theorem setControl_calm {ref : WinRef} {hub v : Nat} (hs : Calm q z s) : Calm q z (setControl s ref hub v) :=
  .ite (.ite hs (openWindow_calm hs)) (.ite (tearDown_calm hs) (setWin_calm hs))

theorem coreControl_calm {core : Fin 16} {n v : Nat} (hs : Calm q z s) : Calm q z (coreControl s core n v) :=
  .ite (setControl_calm hs) (badWrite_calm hs)

theorem corePost_calm {core : Fin 16} {n : Nat} {bytes : List Byte} (hs : Calm q z s) : Calm q z (corePost s core n bytes) :=
  .ite (badWrite_calm hs) (.ite (setWin_calm hs) (setWin_calm (post_calm hs)))

theorem popResponse_calm {core : Fin 16} {n : Nat} (hs : Calm q z s) : Calm q z (popResponse s core n).2 := by
  unfold popResponse
  extract_lets
  refine .ite_snd (badWrite_calm hs) ?_
  split
  · exact hs
  · exact setWin_calm hs

theorem readControl_calm {core : Fin 16} {n : Nat} (hs : Calm q z s) : Calm q z (readControl s core n).2 :=
  .ite_snd (badWrite_calm hs) (setWin_calm hs)

theorem retire_calm {ctx h : Nat} (hs : Calm q z s) : Calm q z (retire s ctx h).2 := .ite_snd (freeSlot_calm hs) hs

theorem coreRetire_calm {core : Fin 16} {n h : Nat} (hs : Calm q z s) : Calm q z (coreRetire s core n h) :=
  .ite (badWrite_calm hs) (.ite (retire_calm hs) hs)

theorem hostControl_calm {hub : Fin 2} {n v : Nat} (hs : Calm q z s) : Calm q z (hostControl s hub n v).2 :=
  .ite_snd hs (.ite_snd hs (setControl_calm hs))

theorem hostPost_calm {n : Nat} {bytes : List Byte} (hs : Calm q z s) : Calm q z (hostPost s n bytes).2 :=
  .ite_snd hs (.ite (setWin_calm (post_calm hs)) (post_calm hs))

theorem hostRetire_calm {n h : Nat} (hs : Calm q z s) : Calm q z (hostRetire s n h).2 := .ite_snd (retire_calm hs) hs

theorem answer_calm {w : WinRef} {v : Nat} (hs : Calm q z s) : Calm q z (answer s w v) := .upd hs

theorem coreWindowWrite_calm {core : Fin 16} {n offset : Nat} {data : List Byte} (hs : Calm q z s) :
    Calm q z (coreWindowWrite s core n offset data) :=
  .ite (badWrite_calm hs) (.ite (.ite (corePost_calm hs) (badWrite_calm hs)) (.ite (coreRetire_calm hs) (.ite (coreControl_calm hs) hs)))

theorem coreWindowRead_calm {core : Fin 16} {n offset len : Nat} (hs : Calm q z s) : Calm q z (coreWindowRead s core n offset len).2 :=
  .ite_snd (badWrite_calm hs) (.ite_snd (.ite_snd hs (badWrite_calm hs)) (.ite_snd (popResponse_calm hs) (.ite_snd (readControl_calm hs) hs)))

theorem coreAt_calm {core : Fin 16} {a' : Nat} {op : CoreOp} (hs : Calm q z s) : Calm q z (coreAt s core a' op) := by
  unfold coreAt
  extract_lets
  refine .ite (.ite hs ?_) (coreAccess_calm hs)
  split
  · exact coreWindowWrite_calm hs
  · exact toGuest_calm (coreWindowRead_calm hs)

theorem engineStart_calm {hub : Nat} {eng : Engine} (hs : Calm q z s) : Calm q z (engineStart s hub eng) := by
  unfold engineStart
  refine .ite hs ?_
  split
  · exact hs
  · exact .ite (finish_calm hs) (.ite (peBegin_calm (setSlot_calm hs)) (setSlot_calm hs))

theorem completeCmd_calm {i status : Nat} {result : Word} (hs : Calm q z s) : Calm q z (completeCmd s i status result) :=
  .ite (.foldl (fun _ _ ha => finish_calm (unarmSlot_calm ha)) (tearDownAll_calm (finishOne_calm hs))) (finish_calm hs)

theorem peRelease_calm {x : Slot} {status : Nat} (hs : Calm q z s) : Calm q z (peRelease s x status) := .ite (setPeBuf_calm hs) hs

theorem engineComplete_calm {h : Nat} {internalFault : Bool} (hs : Calm q z s) : Calm q z (engineComplete s h internalFault) := by
  unfold engineComplete
  extract_lets
  refine .ite hs ?_
  split
  · exact completeCmd_calm (peRelease_calm hs)
  · exact .ite (completeCmd_calm hs) hs
  · exact hs

theorem cmdFence_calm {h : Nat} (hs : Calm q z s) : Calm q z (cmdFence s h) := .ite (.ite (waitOn_calm hs) (done_calm hs)) hs

/-! ### Machine/Axbel -/

theorem regrid_calm {old : State} (hs : Calm q z s) : Calm q z (regrid old s) := .upd hs

theorem numEffect_calm {old : State} {i : Nat} (hs : Calm q z s) : Calm q z (numEffect old s i) :=
  .ite (followClocks_calm hs) (.ite (.upd (regrid_calm hs)) (.ite (regrid_calm hs) (.ite (.upd hs) hs)))

theorem writeNum_calm {i sub : Nat} {t : EType} {v : List Byte} (hs : Calm q z s) : Calm q z (writeNum s i sub t v).2 :=
  .ite_snd hs (.ite_snd hs (.ite_snd hs (numEffect_calm (setNum_calm hs))))

theorem writeOct_calm {i sub : Nat} {t : EType} {v : List Byte} (hs : Calm q z s) : Calm q z (writeOct s i sub t v).2 :=
  .ite_snd hs (.ite_snd hs (setOcts_calm hs))

theorem writeRoot_calm {v : List Byte} (hs : Calm q z s) : Calm q z (writeRoot s v).2 :=
  .ite_snd hs (.ite_snd hs (.upd (grantMasters_calm (setSec_calm (freeMasters_calm hs)))))

theorem writeSuspect_calm {d : Nat} {v : List Byte} (hs : Calm q z s) : Calm q z (writeSuspect s d v).2 :=
  .ite (.upd (writeOct_calm hs)) (writeOct_calm hs)

theorem destWrite_calm {v : List Byte} (hs : Calm q z s) : Calm q z (destWrite s v).2 :=
  .ite (.ite (.ite (writeOct_calm hs) (.foldl (fun _ _ ha => pushRecord_calm ha) (writeOct_calm hs))) (.foldl (fun _ _ ha => pushRecord_calm ha) (.ite
    (writeOct_calm hs) (.foldl (fun _ _ ha => pushRecord_calm ha) (writeOct_calm hs))))) (writeOct_calm hs)

theorem nimAckWrite_calm {ring q' : Nat} (hs : Calm q z s) : Calm q z (nimAckWrite s ring q').2 :=
  .ite_snd hs (.ite_snd hs (.ite (raiseIbi_calm (.upd hs)) (.upd hs)))

theorem recCommand_calm {hub v : Nat} (hs : Calm q z s) : Calm q z (recCommand s hub v).2 :=
  .ite_snd hs (.ite_snd (recVerify_calm hs) (.ite_snd hs (.ite_snd (modHub_calm hs) hs)))

theorem writeEntry_calm {hub : Fin 2} {via : Option Nat} {r : EntryRow} {i sub : Nat} {v : List Byte} (hs : Calm q z s) :
    Calm q z (writeEntry s hub via r i sub v).2 := by
  unfold writeEntry
  extract_lets
  split
  · exact .ite_snd (hostControl_calm hs) hs
  · exact hostPost_calm hs
  · exact .ite_snd (hostRetire_calm hs) hs
  · exact .ite_snd (strWrite_calm hs) hs
  · exact .ite_snd (fusWrite_calm hs) hs
  · exact .ite_snd (calWrite_calm hs) hs
  · exact .ite_snd (calWrite_calm hs) hs
  · exact writeRoot_calm hs
  · exact writeSuspect_calm hs
  · exact keyWrite_calm hs
  · exact recData_calm hs
  · exact .ite_snd (recCommand_calm hs) hs
  · exact .ite_snd hs (qbvWrite_calm hs)
  · exact .ite_snd (nimAckWrite_calm hs) hs
  · exact destWrite_calm hs
  · exact .ite_snd (writeNum_calm hs) (writeOct_calm hs)

theorem directWrite_calm {hub : Fin 2} {i sub : Nat} {v : List Byte} (hs : Calm q z s) : Calm q z (directWrite s hub i sub v) := by
  unfold directWrite
  split
  · exact hs
  · exact .upd (.ite_snd hs (writeEntry_calm hs))

theorem forwardTwoK_calm {hub i sub v : Nat} {session : Option (Option (Nat × Nat × Nat))} {seq : Nat} (hs : Calm q z s) :
    Calm q z (forwardTwoK s hub i sub v session seq) :=
  .upd (takeId_calm hs)

theorem putSession_calm {x : Session} (hs : Calm q z s) : Calm q z (putSession s x) := .upd hs

theorem openSession_calm {hub : Nat} {key : Option (Nat × Nat × Nat)} (hs : Calm q z s) : Calm q z (openSession s hub key) := by
  unfold openSession
  refine .ite hs (putSession_calm (.ite ?_ hs))
  split
  · exact hs
  · exact .upd hs

theorem deliver_calm {hub : Nat} {key : Option (Nat × Nat × Nat)} {unit : List Byte} (hs : Calm q z s) : Calm q z (deliver s hub key unit) := by
  unfold deliver
  split
  · exact sendUdp_calm hs
  · exact putSession_calm hs

theorem keepAnswer_calm {hub : Nat} {key : Option (Nat × Nat × Nat)} {q' : Request} {unit : List Byte} (hs : Calm q z s) :
    Calm q z (keepAnswer s hub key q' unit) :=
  putSession_calm hs

theorem answerKept_calm {hub : Nat} {key : Option (Nat × Nat × Nat)} {q' : Request} {unit : List Byte} (hs : Calm q z s) :
    Calm q z (answerKept s hub key q' unit) :=
  deliver_calm (keepAnswer_calm hs)

theorem answerTwoK_calm {w : TwoK} {status : Nat} (hs : Calm q z s) : Calm q z (answerTwoK s w status) := by
  unfold answerTwoK
  split
  · exact hs
  · split
    · exact hs
    · split
      · exact hs
      · exact .foldl (fun _ _ ha => deliver_calm (count64_calm ha)) (answerKept_calm (putSession_calm hs))

theorem failTwoK_calm {w : TwoK} {status : Nat} (hs : Calm q z s) : Calm q z (failTwoK s w status) := answerTwoK_calm (.upd hs)

theorem makePending_calm {w : TwoK} (hs : Calm q z s) : Calm q z (makePending s w) :=
  .ite (failTwoK_calm hs) (.ite (failTwoK_calm hs) (.ite (failTwoK_calm hs) (answerTwoK_calm (.upd hs))))

theorem countersign_calm {hub id : Nat} (hs : Calm q z s) : Calm q z (countersign s hub id) := by
  unfold countersign
  split
  · exact hs
  · exact .ite hs (.ite (failTwoK_calm hs) (.ite (failTwoK_calm hs) (.ite (makePending_calm (.upd hs)) (.upd hs))))

theorem countersignLate_calm {id : Nat} (hs : Calm q z s) : Calm q z (countersignLate s id) := by
  unfold countersignLate
  split
  · exact hs
  · exact .ite hs (failTwoK_calm hs)

theorem askTwoK_calm {hub i v : Nat} (hs : Calm q z s) : Calm q z (askTwoK s hub i v) := .ite (forwardTwoK_calm hs) hs

theorem authFail_calm {hub slot addr port : Nat} (hs : Calm q z s) : Calm q z (authFail s hub slot addr port) :=
  .ite (count64_calm hs) (nimWarn_calm (.upd (count64_calm hs)))

theorem takeCtr_calm {slot ctr : Nat} (hs : Calm q z s) : Calm q z (takeCtr s slot ctr) := setKeySlot_calm hs

theorem doWrite_calm {hub : Fin 2} {key : Option (Nat × Nat × Nat)} {q' : Request} {r : EntryRow} (hs : Calm q z s) :
    Calm q z (doWrite s hub key q' r) := by
  unfold doWrite
  refine .ite (.ite (answerKept_calm hs) (forwardTwoK_calm (putSession_calm hs))) ?_
  split
  · exact answerKept_calm (writeEntry_calm hs)
  · exact .ite (udpOut_calm (keepAnswer_calm (writeEntry_calm hs))) (answerKept_calm (writeEntry_calm hs))

theorem doRequest_calm {hub : Fin 2} {key : Option (Nat × Nat × Nat)} {q' : Request} (hs : Calm q z s) : Calm q z (doRequest s hub key q') := by
  unfold doRequest
  extract_lets
  refine .ite (answerKept_calm hs) (.ite (answerKept_calm hs) (.ite (answerKept_calm hs) (.ite (.ite (answerKept_calm hs) (answerKept_calm hs)) ?_)))
  split
  · exact answerKept_calm hs
  · exact doWrite_calm hs

theorem takeRequest_calm {hub : Fin 2} {key : Option (Nat × Nat × Nat)} {pdu : List Byte} (hs : Calm q z s) :
    Calm q z (takeRequest s hub key pdu) := by
  unfold takeRequest
  extract_lets s1 x0 s2
  have h2 : Calm q z s2 := putSession_calm (openSession_calm (count64_calm hs))
  refine .ite (deliver_calm (count64_calm h2)) ?_
  split
  · exact .ite (deliver_calm (count64_calm h2)) (deliver_calm h2)
  · split
    · exact .ite (putSession_calm h2) (deliver_calm h2)
    · exact doRequest_calm h2

theorem stampRequest_calm {hub : Fin 2} {key : Option (Nat × Nat × Nat)} {pdu : List Byte} (hs : Calm q z s) :
    Calm q z (stampRequest s hub key pdu) := by
  unfold stampRequest
  extract_lets s1 n t
  have h1 : Calm q z s1 := openSession_calm hs
  have hn : s.now = s1.now := (openSession_calm (q := q) (.refl s)).now.symm
  have h2 : Calm q { s1 with now := t } { s1 with now := t, host := { s1.host with lastReq := (t, hub.val, n) } } :=
    (Calm.refl { s1 with now := t }).upd
  exact h1.restamp (takeRequest_calm h2) hn

theorem hdrExit_calm {hub : Nat} (hs : Calm q z s) : Calm q z (hdrExit s hub) := .upd hs

theorem arriveRequest_calm {hub : Fin 2} {src : AxSource} {bytes : List Byte} (hs : Calm q z s) : Calm q z (arriveRequest s hub src bytes) := by
  unfold arriveRequest
  refine .ite hs ?_
  split
  · exact .ite hs (.ite (hdrExit_calm hs) (stampRequest_calm (hdrExit_calm hs)))
  · refine .ite hs ?_
    split
    · exact authFail_calm hs
    · exact .ite (count64_calm (takeCtr_calm hs)) (stampRequest_calm (takeCtr_calm hs))

theorem registerEntry_calm {hub : Fin 2} {i sub : Nat} {v : List Byte} (hs : Calm q z s) : Calm q z (registerEntry s hub i sub v) := by
  unfold registerEntry
  split
  · exact hs
  · exact .ite hs (.ite (.ite (askTwoK_calm hs) hs) (writeEntry_calm hs))

theorem accessKxpid_calm {core priv : Nat} {write : Bool} {v : Nat} (hs : Calm q z s) : Calm q z (accessKxpid s core priv write v) :=
  .ite hs (.ite (.ite (.upd (toGuest_calm hs)) (toGuest_calm hs)) (toGuest_calm hs))

theorem i3cOut_calm {hub : Nat} {bytes : List Byte} (hs : Calm q z s) : Calm q z (i3cOut s hub bytes) := .upd hs

theorem privateRead_calm {hub maxlen : Nat} (hs : Calm q z s) : Calm q z (privateRead s hub maxlen) := by
  unfold privateRead
  refine .ite hs ?_
  split
  · exact hdrExit_calm hs
  · split
    · exact hdrExit_calm hs
    · exact .ite (count64_calm (i3cOut_calm (putSession_calm (hdrExit_calm hs)))) (i3cOut_calm (putSession_calm (hdrExit_calm hs)))

theorem modTarget_calm {hub : Nat} {g : I3c → I3c} (hs : Calm q z s) : Calm q z (s.modTarget hub g) := .upd hs

theorem cccRun_calm {hub : Nat} {c : Ccc} (hs : Calm q z s) : Calm q z (cccRun s hub c) := by
  unfold cccRun
  extract_lets
  split
  · exact modTarget_calm hs
  · exact modTarget_calm hs
  · exact .ite (modTarget_calm hs) hs
  · exact .ite (modTarget_calm hs) hs
  · exact modTarget_calm hs
  · exact i3cOut_calm hs
  · exact i3cOut_calm hs
  · exact i3cOut_calm hs
  · exact i3cOut_calm (takeFree_calm hs)
  · exact modTarget_calm hs
  · exact i3cOut_calm hs
  · exact modTarget_calm hs
  · exact i3cOut_calm hs
  · exact i3cOut_calm (takeFree_calm hs)
  · exact modTarget_calm hs
  · exact modTarget_calm hs
  · exact hs

theorem cccArrive_calm {hub : Nat} {c : Ccc} (hs : Calm q z s) : Calm q z (cccArrive s hub c) :=
  .ite hs (.ite (hdrExit_calm hs) (cccRun_calm (hdrExit_calm hs)))

theorem ibiDelivered_calm {h : Nat} (hs : Calm q z s) : Calm q z (ibiDelivered s h) := .ite (freeSlot_calm hs) hs

theorem hotJoin_calm {hub : Nat} {ack : Bool} (hs : Calm q z s) : Calm q z (hotJoin s hub ack) := .ite hs (toGuest_calm (modTarget_calm hs))

theorem raiseQueued_calm {hub : Nat} {ack : Bool} (hs : Calm q z s) : Calm q z (raiseQueued s hub ack) := by
  unfold raiseQueued
  extract_lets
  refine .ite hs (.ite (hotJoin_calm hs) ?_)
  split
  · exact hs
  · refine .ite hs ?_
    split
    · exact i3cOut_calm (.upd hs)
    · exact ibiDelivered_calm (i3cOut_calm (.upd hs))

theorem retransmit_calm {hub : Nat} (hs : Calm q z s) : Calm q z (retransmit s hub) := .ite hs (.foldl (fun _ _ ha => pushRecord_calm ha) hs)

theorem telemetry_calm (hs : Calm q z s) : Calm q z (telemetry s) := .ite hs (nim_calm (.upd hs))

/-! ### Machine/Close -/

theorem lateRelease_calm {o : Occ} (hs : Calm q z s) : Calm q z (lateRelease s o) := .ite hs (.ite (abandon_calm hs) (shed_calm hs))

theorem carryOverruns_calm {o : Occ} (hs : Calm q z s) : Calm q z (carryOverruns s o) :=
  .ite hs (.foldl (fun _ _ ha => raiseFault_calm (modOcc_calm (lastEvent_calm ha))) hs)

theorem onOccs_calm {g : State → Occ → State} (hg : ∀ a x1, Calm q z a → Calm q z (g a x1)) (hs : Calm q z s) : Calm q z (onOccs s g) := by
  unfold onOccs
  refine .foldl (fun _ _ ha => ?_) hs
  split
  · exact ha
  · exact hg _ _ ha

theorem watchdogs_calm (hs : Calm q z s) : Calm q z (watchdogs s) :=
  onOccs_calm (fun _ _ ha => carryOverruns_calm ha) (onOccs_calm (fun _ _ ha => .ite (windowFault_calm ha) ha) (onOccs_calm (fun _ _ ha =>
    lateRelease_calm ha) (.foldl (fun _ _ ha => budgetClose_calm ha) hs)))

theorem exchangeFault_calm {o : Occ} {t : TaskOut} (hs : Calm q z s) : Calm q z (exchangeFault s o t) :=
  .ite hs (raiseFault_calm (raiseFault_calm hs))

theorem commitTask_calm {o : Occ} {h : Nat} (hs : Calm q z s) : Calm q z (commitTask s o h) := by
  unfold commitTask
  extract_lets s1
  have h1 : Calm q z s1 := by
    unfold s1
    split
    · exact hs
    · exact modSlice_calm hs
  exact modTask_calm (releaseViewOf_calm h1)

theorem conclude_calm {o : Occ} (hs : Calm q z s) : Calm q z (conclude s o) := by
  unfold conclude
  extract_lets verdict good again lost s1 s2 s3 mark
  have h1 : Calm q z s1 := .ite (trySettle_calm hs) (.foldl (fun _ _ ha => exchangeFault_calm ha) hs)
  have h3 : Calm q z s3 := .foldl (fun _ _ ha => releaseViewOf_calm ha) (.foldl (fun _ _ ha => commitTask_calm ha) h1)
  exact .ite (modOcc_calm h3) (.ite (modOcc_calm (settle_calm h3)) (modOcc_calm h3))

theorem replayOverrun_calm {o : Occ} {h : Nat} (hs : Calm q z s) : Calm q z (replayOverrun s o h) :=
  .ite (failReplay_calm (raiseFault_calm (lastEvent_calm hs))) (failTask_calm (raiseFault_calm (lastEvent_calm hs)))

theorem commitReplay_calm {o : Occ} (hs : Calm q z s) : Calm q z (commitReplay s o) := by
  unfold commitReplay
  extract_lets
  split
  · exact .foldl (fun _ _ ha => .ite (commitTask_calm ha) (replayOverrun_calm ha)) hs
  · exact .ite (modOcc_calm (.foldl (fun _ _ ha => .ite (commitTask_calm ha) (replayOverrun_calm ha)) hs)) (.foldl (fun _ _ ha => .ite
    (commitTask_calm ha) (replayOverrun_calm ha)) hs)

theorem concludeOcc_calm {o : Occ} (hs : Calm q z s) : Calm q z (concludeOcc s o) := by
  unfold concludeOcc
  refine .ite hs ?_
  split
  · exact conclude_calm hs
  · exact conclude_calm hs
  · exact commitReplay_calm hs
  · exact hs

theorem closeTick_calm (hs : Calm q z s) : Calm q z (closeTick s) := .upd (onOccs_calm (fun _ _ ha => concludeOcc_calm ha) (watchdogs_calm hs))

theorem afterClose_calm (hs : Calm q z s) : Calm q z (afterClose s) := .ite (closeTick_calm hs) hs

/-! ### Machine/Boundary -/

theorem rejoin_calm (hs : Calm q z s) : Calm q z (rejoin s) := .upd hs

theorem recoverState_calm (hs : Calm false z s) : Calm false z (recoverState s) := .ite (setDevState_calm hs) hs

theorem releaseSafe_calm (hs : Calm q z s) : Calm q z (releaseSafe s) := .upd hs

theorem heartbeat_calm (hs : Calm q z s) : Calm q z (heartbeat s) := .upd hs

theorem ringLife_calm (hs : Calm q z s) : Calm q z (ringLife s) := .foldl (fun _ _ ha => .ite ha (.upd (setNum_calm (count32_calm ha)))) hs

theorem rearm_calm (hs : Calm q z s) : Calm q z (rearm s) := .upd hs

theorem breakSpans_calm (hs : Calm q z s) : Calm q z (breakSpans s) := .foldl (fun _ _ ha => barBreak_calm ha) hs

theorem applySplit_calm (hs : Calm q z s) : Calm q z (applySplit s) := breakSpans_calm (.upd (setNum_calm hs))

theorem placeChecker_calm {h : Nat} (hs : Calm q z s) : Calm q z (placeChecker s h) := .ite hs (.ite (placeTask_calm hs) hs)

theorem applyJoin_calm (hs : Calm q z s) : Calm q z (applyJoin s) :=
  .upd (.foldl (fun _ _ ha => placeChecker_calm ha) (copyMirrors_calm (setNum_calm hs)))

theorem applyMode_calm {v : Nat} (hs : Calm q z s) : Calm q z (applyMode s v) :=
  .ite (.ite (breakSpans_calm (setNum_calm hs)) (setNum_calm hs)) (.ite hs (.ite (applySplit_calm hs) (.ite (applyJoin_calm hs) hs)))

theorem deviceMode_calm (hs : Calm q z s) : Calm q z (deviceMode s) := by
  unfold deviceMode
  split
  · exact hs
  · exact .ite hs (applyMode_calm (.upd hs))

theorem stepJoin_calm (hs : Calm q z s) : Calm q z (stepJoin s) := by
  unfold stepJoin
  split
  · exact .upd (nimWarn_calm (count32_calm (applySplit_calm hs)))
  · exact .upd hs
  · exact hs

theorem orderReplays_calm (hs : Calm q z s) : Calm q z (orderReplays s) := .upd hs

theorem rotateDie_calm {d : Nat} {fresh : List Nat} (hs : Calm q z s) : Calm q z (rotateDie s d fresh) := by
  unfold rotateDie
  split
  · exact hs
  · refine .ite hs ?_
    split
    · exact hs
    · exact nim_calm (.upd (count64_calm (moveTask_calm hs)))

theorem moveTasks_calm (hs : Calm q z s) : Calm q z (moveTasks s) := .ite hs (.foldl (fun _ _ ha => rotateDie_calm ha) (bringSpares_calm hs))

theorem clearSites_calm (hs : Calm q z s) : Calm q z (clearSites s) := .upd hs

theorem enterTask_calm {h : Nat} (hs : Calm q z s) : Calm q z (enterTask s h) := by
  unfold enterTask
  split
  · exact hs
  · exact initialCopies_calm (.ite (.ite (placeTask_calm (.ite (placeTask_calm (.upd hs)) (.upd hs))) (.ite (placeTask_calm (.upd hs)) (.upd hs)))
    (.ite (placeTask_calm (.upd hs)) (.upd hs)))

theorem trainPorts_calm (hs : Calm q z s) : Calm q z (trainPorts s) :=
  .upd (.foldl (fun _ _ ha => setNum_calm ha) (.foldl (fun _ _ ha => setNum_calm ha) hs))

theorem enterOperational_calm (hs : Calm false z s) : Calm false z (enterOperational s) :=
  setDevState_calm (checkBindings_calm (trainPorts_calm (.foldl (fun _ _ ha => startLap_calm ha) (.upd (.foldl (fun _ _ ha => enterTask_calm ha)
    (.foldl (fun _ _ ha => formPrism_calm ha) (clearSites_calm hs)))))))

theorem endOcc_calm {o : Occ} (hs : Calm q z s) : Calm q z (endOcc s o) := abandon_calm (.foldl (fun _ _ ha => raiseAt_calm ha) hs)

theorem enterConfig_calm (hs : Calm q z s) : Calm q z (enterConfig s) := setDevState_calm (.upd (onOccs_calm (fun _ _ ha => endOcc_calm ha) hs))

theorem applyRequest_calm {v : Nat} (hs : Calm false z s) : Calm false z (applyRequest s v) :=
  .ite (enterOperational_calm (setNum_calm hs)) (.ite (enterConfig_calm (setNum_calm hs)) hs)

theorem commitSvn_calm {v : Nat} (hs : Calm q z s) : Calm q z (commitSvn s v) := nimWarn_calm (.foldl (fun _ _ ha => modHub_calm ha) hs)

theorem revokeKey_calm {k : Nat} (hs : Calm q z s) : Calm q z (revokeKey s k) := nimWarn_calm (setNum_calm (.foldl (fun _ _ ha => modHub_calm ha) hs))

theorem applyTwoK_calm {w : TwoK} (hs : Calm false z s) : Calm false z (applyTwoK s w) := by
  unfold applyTwoK
  extract_lets
  split
  · exact applyRequest_calm (.upd hs)
  · exact applyMode_calm (.upd hs)
  · exact commitSvn_calm (.upd hs)
  · exact revokeKey_calm (.upd hs)

theorem applyPending_calm (hs : Calm false z s) : Calm false z (applyPending s) := .foldl (fun _ _ ha => .ite (applyTwoK_calm ha) ha) hs

theorem fusionAll_calm (hs : Calm q z s) : Calm q z (fusionAll s) := .foldl (fun _ _ ha => fusionBoundary_calm ha) hs

theorem pruneOccs_calm (hs : Calm q z s) : Calm q z (pruneOccs s) := .upd hs

theorem openTick_calm (hs : Calm false z s) : Calm false z (openTick s) := by
  unfold openTick
  extract_lets s1 s2 s3 s4 s5 s6 s7
  have h2 : Calm false z s2 := rejoin_calm (rearm_calm (fusionAll_calm hs))
  have h4 : Calm false z s4 := applyPending_calm (deviceMode_calm (stepJoin_calm (orderReplays_calm (moveTasks_calm (.ite (saveSlices_calm h2) h2)))))
  have h5 : Calm false z s5 := .ite (startSwitches_calm h4) h4
  have h6 : Calm false z s6 := .ite (applyEnables_calm h5) h5
  exact .upd (ringLife_calm (heartbeat_calm (releaseSafe_calm (recoverState_calm (pruneOccs_calm h6)))))

theorem tickBoundary_calm (hs : Calm false z s) : Calm false z (tickBoundary s) := .ite hs (openTick_calm (afterClose_calm hs))

/-! ### Machine/Flits -/

theorem takeSafe_calm {end_ : Nat} {u : LinkUnit} (hs : Calm q z s) : Calm q z (takeSafe s end_ u) := by
  unfold takeSafe
  extract_lets
  split
  · exact .ite (takeRecord_calm (.ite hs (afterClose_calm hs))) hs
  · exact .ite (takeFault_calm hs) hs
  · exact .ite (takeFault_calm hs) hs
  · exact hs

theorem deliverLine_calm {end_ : Nat} {u : LinkUnit} (hs : Calm q z s) : Calm q z (deliverLine s end_ u) := by
  unfold deliverLine
  split
  · split
    · exact wrIssued_calm hs
    · exact hs
  · split
    · exact rretIssued_calm hs
    · exact hs
  · split
    · exact msgArrive_calm hs
    · exact hs
  · exact fwdArrive_calm hs
  · exact takeSafe_calm hs

theorem deliverShort_calm {u : LinkUnit} (hs : Calm q z s) : Calm q z (deliverShort s u) := by
  unfold deliverShort
  split
  · split
    · exact rdIssued_calm (takeFree_calm hs)
    · exact hs
  · exact maskArrive_calm hs
  · split
    · exact vopArrive_calm hs
    · exact hs
  · split
    · exact vrspArrive_calm hs
    · exact hs
  · split
    · exact wackIssued_calm hs
    · exact hs
  · split
    · exact rderrIssued_calm hs
    · exact hs
  · exact hs

theorem rejectUnit_calm {u : LinkUnit} (hs : Calm q z s) : Calm q z (rejectUnit s u) :=
  .ite (.ite (toGuest_calm (takeMask_calm (takeMask_calm (fwReject_calm hs)))) (fwReject_calm hs)) (.ite (toGuest_calm (fwReject_calm hs)) (.ite
    (keepMask_calm (fwReject_calm hs)) (fwReject_calm hs)))

theorem guestUnit_calm {u : LinkUnit} (hs : Calm q z s) : Calm q z (guestUnit s u) := by
  unfold guestUnit
  extract_lets
  refine .ite (.ite (rejectUnit_calm hs) (.ite (guestWrite_calm hs) (guestResponse_calm hs))) (.ite (rejectUnit_calm hs) ?_)
  split
  · exact hs
  · exact rdArrive_calm (takeFree_calm hs)
  · exact maskArrive_calm hs
  · exact guestResponse_calm hs
  · exact guestResponse_calm hs
  · exact evtArrive_calm hs
  · exact rejectUnit_calm hs

theorem deliverUnit_calm {l d : Nat} {u : LinkUnit} (hs : Calm q z s) : Calm q z (deliverUnit s l d u) :=
  .ite (.ite (guestUnit_calm hs) hs) (.ite (deliverLine_calm hs) (deliverShort_calm hs))

theorem unbuffer_calm {l d : Nat} {u : LinkUnit} (hs : Calm q z s) : Calm q z (unbuffer s l d u) := modDir_calm hs

theorem drainHead_calm {l d vc : Nat} (hs : Calm q z s) : Calm q z (drainHead s l d vc) := by
  unfold drainHead
  split
  · exact hs
  · exact .ite (deliverUnit_calm (unbuffer_calm hs)) hs

theorem drainDir_calm {l d : Nat} (hs : Calm q z s) : Calm q z (drainDir s l d) :=
  .foldl (fun _ _ ha => .foldl (fun _ _ hb => drainHead_calm hb) ha) hs

theorem drainLinks_calm (hs : Calm q z s) : Calm q z (drainLinks s) := .foldl (fun _ _ ha => drainDir_calm ha) hs

theorem forwarded_calm {l d : Nat} {b : List Byte} (hs : Calm q z s) : Calm q z (forwarded s l d b) := .foldl (fun _ _ ha => unbuffer_calm ha) hs

theorem takeAck_calm {l d h : Nat} (hs : Calm q z s) : Calm q z (takeAck s l d h) := .ite (retry_calm (modDir_calm hs)) (modDir_calm hs)

theorem flitTaken_calm {l d : Nat} {b : List Byte} (hs : Calm q z s) : Calm q z (flitTaken s l d b) :=
  drainDir_calm (.ite (fwReject_calm (takeAck_calm (modDir_calm hs))) (takeAck_calm (modDir_calm hs)))

theorem sendFlit_calm {l d : Nat} {b : List Byte} {good : Bool} (hs : Calm q z s) : Calm q z (sendFlit s l d b good) := by
  unfold sendFlit
  exact modDir_calm (.ite (forwarded_calm hs) hs)

theorem flitReceive_calm {l d : Nat} {b : List Byte} (hs : Calm q z s) : Calm q z (flitReceive s l d b) :=
  .ite hs (.ite (refuse_calm (sendFlit_calm hs)) (.ite (linkDown_calm hs) (.ite (flitTaken_calm (sendFlit_calm hs)) (refuse_calm (sendFlit_calm
    hs)))))

/-! ### Machine/Requests -/

theorem settled_calm (hs : Calm false z s) : Calm false z (settled s) := .ite (tickBoundary_calm hs) hs

/-! ### Machine/Vector -/

theorem runVec2_calm {op : VOp} {site : Nat} {rd rs1 rs2 : BitVec 5} (hs : Calm q z s) : Calm q z (runVec2 op site rd rs1 rs2 s) := runEngine_calm hs

theorem runVec1_calm {g : Nat → Nat → Facet → Eng} {site : Nat} {rd rs1 : BitVec 5} (hs : Calm q z s) : Calm q z (runVec1 g site rd rs1 s) :=
  runEngine_calm hs

/-! ### Machine/Sequencer -/

theorem ecallRun_calm {site : Nat} (hs : Calm q z s) : Calm q z (ecallRun s site) := .ite hs (.ite (raise_calm hs) (setFacet_calm hs))

theorem ebreakRun_calm {site : Nat} (hs : Calm q z s) : Calm q z (ebreakRun s site) := .ite (raise_calm hs) (setFacet_calm hs)

theorem csrRun_calm {site csr : Nat} {rd : BitVec 5} (hs : Calm q z s) : Calm q z (csrRun s site csr rd) := by
  unfold csrRun
  extract_lets
  refine .ite hs ?_
  split
  · exact raise_calm hs
  · exact setFacet_calm hs

/-! ### Machine/Upsets -/

theorem handoverFails_calm {st : Store} {line : Nat} (hs : Calm q z s) : Calm q z (handoverFails s st line) := by
  unfold handoverFails
  split
  · exact dramSetPoison_calm (tileFail_calm hs)
  · exact modFacet_calm (tileFail_calm hs)
  · exact sramSetPoison_calm (tileFail_calm hs)

theorem stageFails_calm {hub place h : Nat} (hs : Calm q z s) : Calm q z (stageFails s hub place h) := .upd (tileFail_calm hs)

theorem accEvent_calm {site word : Nat} (hs : Calm q z s) : Calm q z (accEvent s site word) := integrityEvent_calm (takeFree_calm hs)

theorem twinFlip_calm {st : Store} {line : Nat} {second : Bool} (hs : Calm q z s) : Calm q z (twinFlip s st line second) := by
  unfold twinFlip
  split
  · exact hs
  · exact modFacet_calm hs
  · exact .upd hs

/-! ## The commands -/

/-- A result that answers a state which is calm from `z`. -/
def CalmRes (q : Bool) (z : State) (r : Res) : Prop := ∀ t, r = .next t → Calm q z t

theorem Calm.next (h : Calm q z s) : CalmRes q z (ok s) := fun _ e => Host.Outcome.next.inj e ▸ h

/-- An extension word's meaning, where it has one, is a command of a site that keeps what every command does (R57). -/
def CalmOp (o : Option (Nat → State → Res)) : Prop :=
  ∀ g ∈ o, ∀ (q : Bool) (z s : State) (site : Nat), Calm q z s → CalmRes q z (g site s)

theorem CalmOp.none : CalmOp none := fun _ h => nomatch h

theorem CalmOp.some {g : Nat → State → Res} (h : ∀ {q z s} site, Calm q z s → CalmRes q z (g site s)) : CalmOp (some g) :=
  fun _ e _ _ _ _ hs => Option.some.inj e ▸ h _ hs

theorem CalmOp.ite {p : Prop} [Decidable p] {o o' : Option (Nat → State → Res)} (h : CalmOp o) (h' : CalmOp o') : CalmOp (if p then o else o') := by
  split <;> assumption

theorem custom0_calm (w : Nat) : CalmOp (custom0 w) := by
  unfold custom0
  extract_lets
  split
  · exact .ite (.some fun _ hs => .next (runEngine_calm hs)) .none
  · exact .ite (.some fun _ hs => .next (runEngine_calm hs)) .none
  · exact .ite (.some fun _ hs => .next (runEngine_calm hs)) .none
  · exact .ite (.some fun _ hs => .next (runEngine_calm hs)) .none
  · exact .some fun _ hs => .next (runEngine_calm hs)
  · exact .some fun _ hs => .next (runEngine_calm hs)
  · exact .some fun _ hs => .next (runEngine_calm hs)
  · exact .ite (.some fun _ hs => .next (runEngine_calm hs)) .none
  · exact .some fun _ hs => .next (runEngine_calm hs)
  · exact .some fun _ hs => .next (runEngine_calm hs)
  · exact .none

theorem custom1_calm (w : Nat) : CalmOp (custom1 w) := by
  unfold custom1
  extract_lets rd r1 r2 one
  have one_calm {g : Nat → BitVec 5 → BitVec 5 → State → Res} (h : ∀ {q z s} site, Calm q z s → CalmRes q z (g site rd r1 s)) :
      CalmOp (one g) := .ite (.some h) .none
  split
  · exact .some fun _ hs => .next (runVec2_calm hs)
  · exact .some fun _ hs => .next (runVec2_calm hs)
  · exact .some fun _ hs => .next (runVec2_calm hs)
  · exact .some fun _ hs => .next (runVec2_calm hs)
  · exact .some fun _ hs => .next (runVec2_calm hs)
  · exact one_calm fun _ hs => .next (runVec1_calm hs)
  · exact one_calm fun _ hs => .next (runVec1_calm hs)
  · exact one_calm fun _ hs => .next (runVec1_calm hs)
  · exact one_calm fun _ hs => .next (runVec1_calm hs)
  · exact one_calm fun _ hs => .next (runVec1_calm hs)
  · exact .some fun _ hs => .next (runEngine_calm hs)
  · exact .some fun _ hs => .next (runEngine_calm hs)
  · exact one_calm fun _ hs => .next (runVec1_calm hs)
  · exact one_calm fun _ hs => .next (runVec1_calm hs)
  · exact one_calm fun _ hs => .next (runEngine_calm hs)
  · exact one_calm fun _ hs => .next (runEngine_calm hs)
  · exact .none

theorem custom2_calm (w : Nat) : CalmOp (custom2 w) := by
  unfold custom2
  extract_lets rd r1 r2 ch mover
  have mover_calm {g : Nat → BitVec 4 → BitVec 5 → BitVec 5 → State → Res}
      (h : ∀ {q z s} site, Calm q z s → CalmRes q z (g site ch rd r1 s)) : CalmOp (mover g) := .ite (.some h) .none
  split
  · exact mover_calm fun _ hs => .next (moveRun_calm hs)
  · exact mover_calm fun _ hs => .next (moveRun_calm hs)
  · exact .ite (.some fun _ hs => .next (waitRun_calm hs)) .none
  · exact mover_calm fun _ hs => .next (kvRun_calm hs)
  · exact .ite (.some fun _ hs => .next (sendRun_calm hs)) .none
  · exact .ite (.some fun _ hs => .next (recvRun_calm hs)) .none
  · exact .ite (.some fun _ hs => .next (recvRun_calm hs)) .none
  · exact .ite (.some fun _ hs => .next (ackRun_calm hs)) .none
  · exact .some fun _ hs => .next (vtRun_calm hs)
  · exact .some fun _ hs => .next (vtRun_calm hs)
  · exact .ite (.some fun _ hs => .next (vtRun_calm hs)) .none
  · exact .ite (.some fun _ hs => .next (vtRun_calm hs)) .none
  · exact .ite (.some fun _ hs => .next (vtRun_calm hs)) .none
  · exact .none

theorem customOp_calm (w : Nat) : CalmOp (customOp w) := by
  unfold customOp
  split
  · exact custom0_calm w
  · exact custom1_calm w
  · exact custom2_calm w
  · exact .none

theorem CalmRes.ite {p : Prop} [Decidable p] {r r' : Res} (h : CalmRes q z r) (h' : CalmRes q z r') : CalmRes q z (if p then r else r') := by
  split <;> assumption

theorem sequencerRun_calm {site : Nat} (hs : Calm q z s) : CalmRes q z (sequencerRun s site) := by
  unfold sequencerRun
  extract_lets f
  refine .ite (.next hs) ?_
  split
  · exact .next (raise_calm hs)
  · split
    · exact .next (raise_calm hs)
    · split
      · next hg => exact customOp_calm _ _ hg _ _ _ _ hs
      · refine .ite (.next (ecallRun_calm hs)) (.ite (.next (ebreakRun_calm hs)) (.ite (.next hs) ?_))
        split
        · exact .next (raise_calm hs)
        · exact .next (setFacet_calm hs)

/-- Every command but the two of the power rail keeps the time, the queue and the form of the stores, and a quiet device quiet, where the boundary's own
transitions do (R38, R446). -/
theorem exec_calm (c : Instr) (hs : Calm q z s) (hz : Calm q z (settled s)) (hb : c = .tickBoundary → Calm q z (tickBoundary s))
    (hp : c ≠ .pwrgdAssert) (hp' : c ≠ .pwrgdDeassert) : CalmRes q z (exec c s) := by
  cases c with
  | sequencerInstruction _ => exact sequencerRun_calm hs
  | fxstatRead _ _ => exact .next (csrRun_calm hs)
  | fxtimeRead _ _ => exact .next (csrRun_calm hs)
  | ecall _ => exact .next (ecallRun_calm hs)
  | stepComplete _ => exact .next (.ite (stepDone_calm (afterClose_calm hs)) (afterClose_calm hs))
  | carryWriteComplete _ => exact .next (carryComplete_calm (afterClose_calm hs))
  | lxDld _ _ _ => exact .next (runEngine_calm hs)
  | lxDst _ _ _ => exact .next (runEngine_calm hs)
  | lxDbase _ _ _ => exact .next (runEngine_calm hs)
  | lxWld _ _ => exact .next (runEngine_calm hs)
  | lxMm _ _ _ _ => exact .next (runEngine_calm hs)
  | lxDg _ _ _ _ => exact .next (runEngine_calm hs)
  | lxCvt _ _ _ _ => exact .next (runEngine_calm hs)
  | lxAcz _ _ _ => exact .next (runEngine_calm hs)
  | wnMax _ _ _ _ => exact .next (runEngine_calm hs)
  | wnAvg _ _ _ _ => exact .next (runEngine_calm hs)
  | vxAdd _ _ _ _ => exact .next (runVec2_calm hs)
  | vxSub _ _ _ _ => exact .next (runVec2_calm hs)
  | vxMul _ _ _ _ => exact .next (runVec2_calm hs)
  | vxMax _ _ _ _ => exact .next (runVec2_calm hs)
  | vxMin _ _ _ _ => exact .next (runVec2_calm hs)
  | vxCvt _ _ _ => exact .next (runVec1_calm hs)
  | vxRelu _ _ _ => exact .next (runVec1_calm hs)
  | vxExp2 _ _ _ => exact .next (runVec1_calm hs)
  | vxRcp _ _ _ => exact .next (runVec1_calm hs)
  | vxRsq _ _ _ => exact .next (runVec1_calm hs)
  | vxAdds _ _ _ _ => exact .next (runEngine_calm hs)
  | vxMuls _ _ _ _ => exact .next (runEngine_calm hs)
  | vxRsum _ _ _ => exact .next (runVec1_calm hs)
  | vxRmax _ _ _ => exact .next (runVec1_calm hs)
  | vxAld _ _ _ => exact .next (runEngine_calm hs)
  | vxAacc _ _ _ => exact .next (runEngine_calm hs)
  | dmGet _ _ _ _ => exact .next (moveRun_calm hs)
  | dmPut _ _ _ _ => exact .next (moveRun_calm hs)
  | dmWait _ _ => exact .next (waitRun_calm hs)
  | dmKv _ _ _ _ => exact .next (kvRun_calm hs)
  | msSend _ _ => exact .next (sendRun_calm hs)
  | msRecv _ _ => exact .next (recvRun_calm hs)
  | msPoll _ _ => exact .next (recvRun_calm hs)
  | msAck _ => exact .next (ackRun_calm hs)
  | vtPostInsn _ _ _ _ => exact .next (vtRun_calm hs)
  | vtSetInsn _ _ _ _ => exact .next (vtRun_calm hs)
  | vtRead _ _ _ => exact .next (vtRun_calm hs)
  | vtWatchInsn _ _ _ => exact .next (vtRun_calm hs)
  | vtBar _ _ _ => exact .next (vtRun_calm hs)
  | messageDeposit _ => exact .next (deposit_calm hs)
  | tickBoundary => exact .next (hb rfl)
  | sensorOutExpiry _ _ => exact .next (outExpiry_calm hs)
  | nimTelemetry => exact .next (telemetry_calm hs)
  | entryDue _ => exact .next (entryDue_calm hs)
  | entryRelease _ => exact .next (entryRelease_calm hs)
  | replayRelease _ _ => exact .next (replayRelease_calm hs)
  | releaseWindowClose _ => exact .next (windowClose_calm hs)
  | budgetExpiry _ => exact .next (budgetStop_calm (afterClose_calm hs))
  | stageWindowClose _ _ => exact .next (stageClose_calm hs)
  | referenceFigureRun _ _ _ => exact .next (figureRun_calm hs)
  | selfTestSlotStart _ => exact .next (slotStart_calm hs)
  | selfTestSlotEnd _ => exact .next (slotEnd_calm hs)
  | sliceSwitchComplete _ => exact .next (switchDone_calm hs)
  | rotationCopyComplete _ => exact .next (modFacet_calm hs)
  | joinCopyComplete =>
    refine .next ?_
    split
    · exact .upd hs
    · exact hs
  | replayBoundExpiry _ _ => exact .next (boundExpiry_calm hs)
  | lapDeadline _ => exact .next (lapDeadline_calm hs)
  | cmdNop _ => exact .next (runCmd_calm (fun _ _ _ ha => done_calm ha) hs)
  | cmdFence _ => exact .next (cmdFence_calm hs)
  | engineStart _ _ => exact .next (engineStart_calm hs)
  | windowControlWrite _ _ _ =>
    refine .next ?_
    split
    · exact .ite (coreControl_calm hs) hs
    · exact .ite (hostControl_calm hs) hs
  | responseRead _ _ _ => exact .next (.ite (answer_calm (popResponse_calm hs)) hs)
  | handleRetire _ _ _ =>
    refine .next ?_
    split
    · exact .ite (coreRetire_calm hs) hs
    · exact .ite (hostRetire_calm hs) hs
  | registerWrite _ _ =>
    refine .next ?_
    split
    · exact registerEntry_calm hz
    · exact .ite (coreWindowWrite_calm hs) hs
    · exact accessKxpid_calm hs
  | secCreate _ => exact .next (secCreate_calm hs)
  | secDestroy _ => exact .next (secDestroy_calm hs)
  | secReset _ => exact .next (secReset_calm (afterClose_calm hs))
  | drainEnd _ => exact .next (drainEnd_calm hs)
  | drainTimeout _ => exact .next (drainTimeout_calm hs)
  | secInval _ => exact .next (secInval_calm hs)
  | secDirtyStart _ => exact .next (dirtyCmd_calm (fun _ _ _ _ ha => done_calm (setSec_calm (clearDirty_calm ha))) hs)
  | secDirtyHarvest _ => exact .next (dirtyCmd_calm (fun _ _ _ _ ha => .ite (done_calm ha) (done_calm (outWrite_calm (clearDirty_calm ha)))) hs)
  | secDirtyStop _ => exact .next (dirtyCmd_calm (fun _ _ _ _ ha => done_calm (setSec_calm ha)) hs)
  | imgLoad _ => exact .next (imgLoad_calm hs)
  | imgUnload _ => exact .next (imgUnload_calm hs)
  | kvPoolCreate _ => exact .next (poolCreate_calm hs)
  | kvPoolDestroy _ => exact .next (poolDestroy_calm hs)
  | kvAlloc _ => exact .next (kvAlloc_calm hs)
  | kvMap _ => exact .next (kvMap_calm hs)
  | kvFree _ => exact .next (kvFree_calm hs)
  | kvSeqOpen _ => exact .next (kvSeq_calm hs)
  | kvSeqClose _ => exact .next (kvSeq_calm hs)
  | kvSeqCloseFree _ => exact .next (kvSeq_calm hs)
  | kvSeqSetGlobals _ => exact .next (kvSeq_calm hs)
  | kvHeldApply _ =>
    refine .next ?_
    split
    · exact hs
    · exact applyHeld_calm hs
  | kvPageFree _ _ => exact .next (kvPageFree_calm hs)
  | vtAlloc _ => exact .next (vtAlloc_calm hs)
  | vtFree _ => exact .next (vtFree_calm hs)
  | vtFreeUnitApply _ _ => exact .next (vtFreeUnit_calm hs)
  | vtPost _ => exact .next (vtSignal_calm (fun _ _ _ _ ha => vtPostOn_calm ha) hs)
  | vtSet _ => exact .next (vtSignal_calm (fun _ _ _ _ ha => vtSetOn_calm ha) hs)
  | vtWatch _ => exact .next (vtWatch_calm hs)
  | vtUnwatch _ => exact .next (vtUnwatch_calm hs)
  | apxCreate _ => exact .next (apxCreate_calm hs)
  | apxDestroy _ => exact .next (apxDestroy_calm hs)
  | apxArrive _ => exact .next (apxArrive_calm hs)
  | schTrigger _ => exact .next (runCmd_calm (fun _ _ _ ha => waitOn_calm ha) hs)
  | schEnable _ => exact .next (schEnable_calm hs)
  | intProbe _ => exact .next (intProbe_calm hs)
  | strSet _ => exact .next (strSet_calm hs)
  | strEntryWrite _ _ _ => exact .next (directWrite_calm hs)
  | strTx _ => exact .next (runCmd_calm (fun _ _ _ ha => waitOn_calm ha) hs)
  | strTxFrameSend _ => exact .next (txSend_calm hs)
  | peLift _ => exact .next (peRun_calm hs)
  | peVoxel _ => exact .next (peRun_calm hs)
  | asSolve _ => exact .next (asSolve_calm hs)
  | updVerify _ => exact .next (updVerify_calm hs)
  | updWrite _ _ => exact .next (updWrite_calm hs)
  | attReport _ => exact .next (attReport_calm hs)
  | calRecWrite _ _ _ _ => exact .next (directWrite_calm hs)
  | fusBindWrite _ _ _ => exact .next (directWrite_calm hs)
  | pxModeWrite _ _ => exact .next (askTwoK_calm hz)
  | devRequestOperational _ => exact .next (askTwoK_calm hz)
  | devRequestConfig _ => exact .next (askTwoK_calm hz)
  | bsSvnCommit _ _ => exact .next (askTwoK_calm hz)
  | bsKeyRevoke _ _ => exact .next (askTwoK_calm hz)
  | bsAxKey _ _ _ _ => exact .next (keyWrite_calm hs)
  | bsRecData _ _ => exact .next (recData_calm hs)
  | bsRecCmdVerify _ => exact .next (recVerify_calm hs)
  | bsRecCmdFlash _ _ => exact .next (recFlash_calm hs)
  | bsRecCmdDiscard _ => exact .next (.ite (modHub_calm hs) hs)
  | nimAck _ _ _ => exact .next (.ite (nimAckWrite_calm hz) hz)
  | nimRetransmit _ => exact .next (retransmit_calm hs)
  | gwQbvWrite _ _ => exact .next (directWrite_calm hs)
  | gateListSwitch _ => exact .next (gateSwitch_calm hs)
  | axbelRead _ _ _ => exact .next (.ite (arriveRequest_calm hz) hs)
  | axbelWrite _ _ _ => exact .next (.ite (arriveRequest_calm hz) hs)
  | axbelEcho _ _ _ => exact .next (.ite (arriveRequest_calm hz) hs)
  | meridianCountersign _ _ => exact .next (countersign_calm hs)
  | countersignTimeout _ => exact .next (countersignLate_calm hs)
  | i3cPrivateRead _ _ => exact .next (privateRead_calm hs)
  | i3cCcc _ _ => exact .next (cccArrive_calm hs)
  | i3cIbi _ _ => exact .next (raiseQueued_calm hs)
  | flitReceive _ _ _ => exact .next (flitReceive_calm hs)
  | nakTimeout _ _ => exact .next (nakTimeout_calm hs)
  | ackTimeout _ _ => exact .next (ackTimeout_calm hs)
  | moduleTrainedStateLost _ => exact .next (linkDown_calm hs)
  | linkTrainingDone _ _ _ => exact .next (linkTrained_calm hs)
  | wr _ _ => exact .next (wrArrive_calm hs)
  | rd _ _ => exact .next (rdArrive_calm hs)
  | mask _ _ => exact .next (maskArrive_calm hs)
  | rret _ _ =>
    refine .next ?_
    split
    · exact rretIssued_calm hs
    · exact guestResponse_calm hs
  | rderr _ _ =>
    refine .next ?_
    split
    · exact rderrIssued_calm hs
    · exact guestResponse_calm hs
  | wack _ =>
    refine .next ?_
    split
    · exact wackIssued_calm hs
    · exact guestResponse_calm hs
  | msg _ => exact .next (msgArrive_calm hs)
  | fwd _ => exact .next (fwdArrive_calm hs)
  | vop _ => exact .next (vopArrive_calm hs)
  | vrsp _ => exact .next (vrspArrive_calm hs)
  | evt _ _ => exact .next (evtArrive_calm hs)
  | signatureRecord _ _ => exact .next (.ite (takeRecord_calm (.ite hs (afterClose_calm hs))) hs)
  | faultRecord _ _ => exact .next (.ite (takeFault_calm hs) hs)
  | faultRecordForward _ _ => exact .next (.ite (takeFault_calm hs) hs)
  | scopeReady _ =>
    refine .next ?_
    split
    · exact prismReady_calm hs
    · exact halfReady_calm hs
    · exact deviceReady_calm hs
  | meridianComparatorFault _ => exact .next (comparatorFault_calm hs)
  | gnomonTickMismatch => exact .next (.ite hs (dieFault_calm (dieFault_calm hs)))
  | pllLossOfLock _ => exact .next (pllLost_calm hs)
  | pwrgdAssert => exact absurd rfl hp
  | pwrgdDeassert => exact absurd rfl hp'
  | rstinNAssert _ => exact .next (resetIn_calm hs)
  | rstinNDeassert => exact .next (.upd hs)
  | dieLeavesReset _ _ => exact .next (leaveReset_calm hs)
  | firmwareImageVerify _ _ => exact .next (verifyFlash_calm hs)
  | hubImageExchange => exact .next (imageExchange_calm hs)
  | stackTrainingDone _ _ _ _ _ _ => exact .next (stackTrained_calm hs)
  | trstNAssert _ => exact .next (.ite hs (.upd hs))
  | debugHalt _ => exact .next (.ite (debugAnswer_calm hs) (modFacet_calm hs))
  | debugLocalStoreWrite _ _ _ => exact .next (debugWrite_calm hs)
  | regulatorWindow => exact .next (regulatorWindow_calm hs)
  | panicEnter _ _ => exact .next (panicEnter_calm hs)
  | panicExit _ _ => exact .next (panicExit_calm hs)
  | panicSustained _ => exact .next (panicSustained_calm hs)
  | memctlIssue _ _ => exact .next (memctlIssue_calm hs)
  | refresh _ _ _ => exact .next (refreshBank_calm hs)
  | actTableClear _ _ _ => exact .next (actTableClear_calm hs)
  | rowIdleClose _ _ _ => exact .next (rowIdleClose_calm hs)
  | scrubRead _ _ _ => exact .next (scrubRead_calm hs)
  | correctiveWriteBack _ _ => exact .next (writeBack_calm hs)
  | remapCopy _ _ => exact .next (remapCopy_calm hs)
  | scrubLapLimit _ => exact .next (scrubLapLimit_calm hs)
  | frameStart _ _ _ => exact .next (frameStart_calm hs)
  | longPacket _ _ => exact .next (longPacket_calm hs)
  | lineStart _ _ => exact .next (.ite (countShort_calm hs) hs)
  | lineEnd _ _ => exact .next (.ite (countShort_calm hs) hs)
  | frameEnd _ _ => exact .next (frameEnd_calm hs)
  | frameTimeout _ => exact .next (expireFrame_calm hs)
  | frameRecordFinal _ => exact .next (frameFinal_calm hs)
  | ethFrameReceive _ _ _ _ => exact .next (ethReceive_calm hs)
  | txQueueScan _ _ => exact .next (txScan_calm hs)
  | ethTxComplete _ _ _ => exact .next (txComplete_calm hs)
  | ptpSync _ _ _ => exact .next (ptpSync_calm hs)
  | canFrameReceive _ _ => exact .next (canReceive_calm hs)
  | canFrameTransmit _ => exact .next (canSend_calm hs)
  | bridgeTransitExpiry _ => exact .next (bridgeExpiry_calm hs)
  | powerSample _ => exact .next (powerSample_calm hs)
  | avsStep _ _ => exact .next (avsStep_calm hs)
  | railReadback _ _ => exact .next (railReadback_calm hs)
  | railOutOfTolerance _ => exact .next (railOut_calm hs)
  | droopDetect _ => exact .next (.upd hs)
  | tempConversion _ => exact .next (tempConversion_calm hs)
  | sensorPairSuspect _ => exact .next (pairSuspect_calm hs)
  | sensorPairClear _ => exact .next (pairClear_calm hs)
  | sensorConversionTimeout _ _ => exact .next (conversionTimeout_calm hs)
  | tripComparator _ => exact .next (trip_calm hs)
  | thermtripCheck _ => exact .next (thermtripCheck_calm hs)
  | tachPulse => exact .next (tachPulse_calm hs)
  | riseRateEval => exact .next (riseEval_calm hs)
  | tachZeroFlow => exact .next (zeroFlow_calm hs)
  | coolantStageChange => exact .next (stageChange_calm (evalCoolant_calm hs))
  | tachDisagree => exact .next (tachDisagree_calm (evalCoolant_calm hs))
  | survivalExit => exact .next (survivalExit_calm hs)
  | survivalTimeout => exact .next (survivalTimeout_calm hs)
  | engineCommandComplete _ _ => exact .next (engineComplete_calm hs)
  | applicationCoreAccess _ _ _ => exact .next (coreAt_calm hs)
  | windowControlRead _ _ =>
    refine .next ?_
    split
    · exact .ite (answer_calm (readControl_calm hs)) hs
    · exact .ite (answer_calm hs) hs
  | droopRecovery _ => exact .next (.upd hs)
  | tckRisingEdge _ _ => exact .next (tckEdge_calm hs)

/-! ## Time that passes -/

theorem nanosecond_calm (s : State) : Calm q { s with now := s.now + 1 } (nanosecond s) :=
  drainGates_calm (drainLinks_calm (drainScan_calm ((Calm.refl { s with now := s.now + 1 }).upd (hd := rfl) (hm := rfl))))

theorem befall_calm {u : Config.Upset} (hs : Calm q z s) : Calm q z (befall s u) := by
  unfold befall
  split
  · exact .ite (codeFound_calm hs) hs
  · exact .ite (accEvent_calm (modFacet_calm hs)) hs
  · exact .ite (twinFlip_calm hs) hs
  · exact .ite (handoverFails_calm hs) hs
  · split
    · exact .ite (stageFails_calm hs) hs
    · exact hs
  · dsimp only
    split
    · exact .ite (stageFails_calm hs) hs
    · exact hs
  · exact .ite (setBar_calm hs) hs
  · exact setOcts_calm hs

theorem elapse_calm (s : State) : Calm q { s with now := s.now + 1 } (elapse s) := by
  obtain ⟨-, h⟩ | ⟨u, -, h⟩ := elapse_cases s
  · exact h ▸ nanosecond_calm s
  · exact h ▸ befall_calm (nanosecond_calm s)

/-! ## The power rail -/

theorem unpowered_stores (s : State) : storesCanonical (unpowered s) = true := rfl

theorem powerOn_stores (h : storesCanonical s = true) : storesCanonical (powerOn s) = true := by
  unfold powerOn
  split
  · exact h
  · rfl

theorem powerOn_now (s : State) : (powerOn s).now = s.now ∨ (powerOn s).now = 0 := by
  unfold powerOn
  split
  · exact .inl rfl
  · exact .inr rfl

theorem powerOn_operating (h : s.operating = false) : (powerOn s).operating = false := by
  unfold powerOn
  split
  · exact h
  · rfl

/-! ## A boundary that has nothing to open -/

theorem tickBoundary_away (h : s.atBoundary = false) : tickBoundary s = s := by simp [tickBoundary, h]

theorem settled_away (h : s.atBoundary = false) : settled s = s := by simp [settled, tickBoundary_away h]

/-- Where no transition of the boundary comes, a device that does not operate does not begin to. -/
theorem exec_operating {t : State} (c : Instr) (hz : settled s = s) (hb : c = .tickBoundary → tickBoundary s = s) (ho : s.operating = false)
    (he : exec c s = .next t) : t.operating = false := by
  by_cases hp : c = .pwrgdAssert
  · subst hp
    exact Host.Outcome.next.inj he ▸ powerOn_operating ho
  by_cases hp' : c = .pwrgdDeassert
  · subst hp'
    obtain rfl : (if s.dev.pwrgd then unpowered s else s) = t := Host.Outcome.next.inj he
    split
    · rfl
    · exact ho
  have h : Calm true s t := exec_calm c (.refl s) (hz.symm ▸ .refl s) (fun hc => (hb hc).symm ▸ .refl s) hp hp' t he
  exact Bool.eq_false_iff.2 fun ht => Bool.eq_false_iff.1 ho (h.operating rfl ht)

/-- Every command keeps the canonical form of the stores. -/
theorem exec_stores {t : State} (c : Instr) (h : storesCanonical s = true) (he : exec c s = .next t) : storesCanonical t = true := by
  by_cases hp : c = .pwrgdAssert
  · subst hp
    exact Host.Outcome.next.inj he ▸ powerOn_stores h
  by_cases hp' : c = .pwrgdDeassert
  · subst hp'
    obtain rfl : (if s.dev.pwrgd then unpowered s else s) = t := Host.Outcome.next.inj he
    split
    · exact unpowered_stores s
    · exact h
  exact (exec_calm (q := false) c (.refl s) (settled_calm (.refl s)) (fun _ => tickBoundary_calm (.refl s)) hp hp' t he).stores h

/-- Settles O4: every part of a command, and of time that passes, keeps the form that a byte write keeps. -/
theorem stepKeepsStoresCanonical : Obligations.StepKeepsStoresCanonical := by
  unfold Obligations.StepKeepsStoresCanonical
  intro s t h he
  unfold step at he
  split at he
  · obtain rfl := Host.Outcome.next.inj he
    unfold idle
    split
    · exact h
    · exact (elapse_calm (q := false) s).stores h
  · next c r _ => exact exec_stores (s := s.withPending r) c h he

/-- Settles O5: only the boundary's own transitions begin operation, and they come with `TICK_BOUNDARY` or with a request that finds them still to come. -/
theorem operationBeginsAtATickBoundary : Obligations.OperationBeginsAtATickBoundary := by
  unfold Obligations.OperationBeginsAtATickBoundary
  exact ⟨fun c s t hc hz ho he => exec_operating c hz (fun h => absurd h hc) ho he,
    fun c s t hb ho he => exec_operating c (settled_away hb) (fun _ => tickBoundary_away hb) ho he⟩

/-- Settles O6: no part of a command keeps another time than it found; the power rail alone starts it again. -/
theorem onlyPowerMovesTimeBack : Obligations.OnlyPowerMovesTimeBack := by
  unfold Obligations.OnlyPowerMovesTimeBack
  intro c s t he
  by_cases hp : c = .pwrgdAssert
  · subst hp
    obtain rfl : powerOn s = t := Host.Outcome.next.inj he
    exact (powerOn_now s).imp id fun h => ⟨h, by simp⟩
  by_cases hp' : c = .pwrgdDeassert
  · subst hp'
    obtain rfl : (if s.dev.pwrgd then unpowered s else s) = t := Host.Outcome.next.inj he
    split
    · exact .inr ⟨rfl, by simp⟩
    · exact .inl rfl
  exact .inl (exec_calm (q := false) c (.refl s) (settled_calm (.refl s)) (fun _ => tickBoundary_calm (.refl s)) hp hp' t he).now

end Sys2Proof.Machine
end

section
/-! PROOFS. The device without power and its way back, and the boundary that opens (00, 23). -/

namespace Sys2Proof.Machine

variable {s : State}

/-- Settles O7: the fields of `State.reset`, as they are written down. -/
theorem resetIsOff : Obligations.ResetIsOff := by
  unfold Obligations.ResetIsOff
  exact ⟨rfl, rfl, rfl, rfl, rfl, rfl, rfl, rfl, rfl, rfl⟩

/-! ## The tick boundary (R13, R38) -/

theorem tickBoundary_opens (hp : s.dev.st ≠ .off) (hb : s.atBoundary = true) (ht : s.sched.tick < s.tickNow) :
    tickBoundary s = openTick (afterClose s) := by
  simp [tickBoundary, hp, hb, Nat.not_le.2 ht]

theorem tickBoundary_open (ht : s.tickNow ≤ s.sched.tick) : tickBoundary s = s := by simp [tickBoundary, ht]

/-- Settles O59: the window's number against the tick's decides which branch of `tickBoundary` runs. -/
theorem tickBoundaryOpensOnce : Obligations.TickBoundaryOpensOnce := by
  unfold Obligations.TickBoundaryOpensOnce
  exact fun s hp hb => ⟨fun ht => congrArg ok (tickBoundary_opens hp hb ht), fun ht => congrArg ok (tickBoundary_open ht)⟩

/-! ## The supply and RSTIN_N (R4, R5, R569) -/

theorem powerOn_off (h : s.dev.pwrgd = false) :
    powerOn s = { unpowered s with
      dev := { (unpowered s).dev with st := .boot, pwrgd := true, lowAt := [0, 1, 2, 3, 6].map fun k => (k, (unpowered s).now),
                                      scopes := List.replicate 6 { st := 1, since := 0, ready := false } },
      plant := { (unpowered s).plant with keys := recoverySlot (unpowered s) } } := by
  simp [powerOn, h]

theorem lowAsserts_long {lowNs : Nat} (h : 10000 ≤ lowNs) : lowAsserts s lowNs = true := by simp [lowAsserts, h]

/-- A low of `RSTIN_N` that is taken as asserted, in a powered device that no trip has ended: at the survival level the dies go into reset. -/
theorem resetIn_survival {lowNs : Nat} (hl : 10000 ≤ lowNs) (hp : s.dev.st ≠ .off) (ht : s.dev.thermtrip = false)
    (hs : s.plant.coolant.survival ≠ none) :
    resetIn s lowNs = resetAll { s.takeFree 1 with dev := { s.dev with rstin := true } } := by
  have hs' : s.plant.coolant.survival.isSome = true := Option.isSome_iff_ne_none.2 hs
  unfold resetIn
  rw [lowAsserts_long hl]
  simp only [Bool.not_true, Bool.false_eq_true, if_false, hp, ht, decide_false, Bool.or_self, State.takeFree_dev, State.takeFree_plant, hs', if_true]

theorem resetIn_restart {lowNs : Nat} (hl : 10000 ≤ lowNs) (hp : s.dev.st ≠ .off) (ht : s.dev.thermtrip = false)
    (hs : s.plant.coolant.survival = none) :
    let a := restartDevice { s.takeFree 1 with dev := { s.dev with rstin := true } }
    resetIn s lowNs = { a with plant := { a.plant with keys := recoverySlot a } } := by
  unfold resetIn
  rw [lowAsserts_long hl]
  simp only [Bool.not_true, Bool.false_eq_true, if_false, hp, ht, decide_false, Bool.or_self, State.takeFree_dev, State.takeFree_plant, hs,
    Option.isSome_none]

/-- Settles O50: PWRGD leaves the state of `unpowered`, whose parts are those of `State.reset`, and a long low of RSTIN_N takes `resetIn` to its end. -/
theorem supplyAndReset : Obligations.SupplyAndReset := by
  unfold Obligations.SupplyAndReset
  refine ⟨fun s h => ⟨_, congrArg ok (powerOn_off h), rfl, rfl, rfl, rfl, rfl, rfl, rfl, rfl, rfl, rfl⟩,
    fun s h => ⟨_, congrArg ok (if_pos h), rfl, rfl, rfl, rfl, rfl, rfl, rfl, rfl, rfl⟩,
    fun s lowNs hl hp ht => ⟨fun hs => congrArg ok (resetIn_restart hl hp ht hs), fun hs => congrArg ok (resetIn_survival hl hp ht hs)⟩,
    fun s => rfl⟩

end Sys2Proof.Machine
end

section
/-! PROOFS. What a step reports (R44, R148, R391, R392), a posted command whose input or buffer is not there (R219, R331), and the record of a
frame that closes (R344, R345, R351, R352). -/

namespace Sys2Proof.Machine

variable {s : State}

/-! ## Signature records (R391, R392) -/

/-- A record that pairs with none of its unit waits. -/
theorem takeRecord_waits {u : Nat} {r : BitVec 512}
    (h : ∀ p ∈ s.safety.records, p.1 = u → sameCheckpoint p.2 r = false ∧ recPair s p.2 r = false) :
    takeRecord s u r = { s with safety := { s.safety with records := s.safety.records ++ [(u, r)] } } := by
  have hmem : ∀ p ∈ s.safety.records.filter (fun p => p.1 == u), sameCheckpoint p.2 r = false ∧ recPair s p.2 r = false := fun p hp =>
    h p (List.mem_filter.1 hp).1 (beq_iff_eq.1 (List.mem_filter.1 hp).2)
  have hany : ((s.safety.records.filter fun p => p.1 == u).any fun p => sameCheckpoint p.2 r && recChecker p.2 == recChecker r) = false :=
    List.any_eq_false.2 fun p hp => by simp [hmem p hp]
  have hpair : ((s.safety.records.filter fun p => p.1 == u).filter fun p => recPair s p.2 r) = [] :=
    List.filter_eq_nil_iff.2 fun p hp => by simp [hmem p hp]
  have hboth : ((s.safety.records.filter fun p => p.1 == u).filter fun p => recPair s p.2 r && sameCheckpoint p.2 r) = [] :=
    List.filter_eq_nil_iff.2 fun p hp => by simp [hmem p hp]
  unfold takeRecord
  simp only [hany, hpair, hboth, Bool.false_eq_true, if_false, List.append_nil]

/-- The records of a unit that a record may meet, where only one does. -/
theorem partner_unique {u : Nat} {m r : BitVec 512}
    (h : s.safety.records.filter (fun p => p.1 == u && (sameCheckpoint p.2 r || recPair s p.2 r)) = [(u, m)]) (p : Nat × BitVec 512) :
    (p ∈ s.safety.records.filter (fun p => p.1 == u) ∧ (sameCheckpoint p.2 r = true ∨ recPair s p.2 r = true)) ↔ p = (u, m) := by
  have hm : p ∈ [(u, m)] ↔ p = (u, m) := List.mem_singleton
  rw [← hm, ← h]
  simp only [List.mem_filter, Bool.and_eq_true, Bool.or_eq_true, and_assoc]

/-- A record whose one partner of its unit waits is judged with it. -/
theorem takeRecord_judges {u : Nat} {m r : BitVec 512}
    (h : s.safety.records.filter (fun p => p.1 == u && (sameCheckpoint p.2 r || recPair s p.2 r)) = [(u, m)]) (hc : recChecker m ≠ recChecker r) :
    takeRecord s u r = judgePair { s with safety := { s.safety with records := s.safety.records.erase (u, m) } } u
      (if recChecker r then m else r) (if recChecker r then r else m) := by
  obtain ⟨hmine, hmeet⟩ := (partner_unique h (u, m)).2 rfl
  have hpair : recPair s m r = true := hmeet.elim (fun hs => by simp [recPair, hs, hc]) id
  have hany : ((s.safety.records.filter fun p => p.1 == u).any fun p => sameCheckpoint p.2 r && recChecker p.2 == recChecker r) = false :=
    List.any_eq_false.2 fun p hp hb => by
      obtain ⟨hs, he⟩ := Bool.and_eq_true_iff.1 hb
      obtain rfl := (partner_unique h p).1 ⟨hp, .inl hs⟩
      exact hc (beq_iff_eq.1 he)
  unfold takeRecord
  extract_lets mine
  rw [if_neg (by rw [hany]; exact Bool.false_ne_true)]
  split
  next hnil =>
    have hin : (u, m) ∈ mine.filter fun p => recPair s p.2 r := List.mem_filter.2 ⟨hmine, hpair⟩
    rw [(List.append_eq_nil_iff.1 hnil).2] at hin
    exact absurd hin List.not_mem_nil
  next p l hcons =>
    have hin : p ∈ (mine.filter fun p => recPair s p.2 r && sameCheckpoint p.2 r) ++ mine.filter fun p => recPair s p.2 r :=
      hcons ▸ List.mem_cons_self
    have hp : p ∈ mine ∧ recPair s p.2 r = true := by
      rcases List.mem_append.1 hin with hm | hm
      · exact ⟨(List.mem_filter.1 hm).1, (Bool.and_eq_true_iff.1 (List.mem_filter.1 hm).2).1⟩
      · exact List.mem_filter.1 hm
    obtain rfl := (partner_unique h p).1 ⟨hp.1, .inr hp.2⟩
    cases recChecker r <;> rfl

/-- The carry write of a completed step that is acknowledged is accounted to its task. -/
theorem carryComplete_accounts {f : Nat} {st : Step} (hst : (s.facet f).step = some st) (hr : (s.facet f).run = .completed)
    (hc : (s.facet f).cause = none) (ht : (s.facet f).carryTags = []) :
    carryComplete s f = trySettle (modTask s st.entry st.tick st.home fun t =>
      if st.checker then { t with chkCarryDone := true } else { t with carryDone := true }) st.entry st.tick := by
  simp [carryComplete, hst, hr, hc, ht]

/-- Settles O21: each report is one branch of its command after the close. -/
theorem stepReports : Obligations.StepReports := by
  unfold Obligations.StepReports
  refine ⟨fun s f hq => congrArg ok (if_pos hq), fun s f st hst hr hc ht => congrArg ok (carryComplete_accounts hst hr hc ht), fun s u r => ?_⟩
  intro b hl
  have hrun : exec (.signatureRecord u r) s = ok (takeRecord b u.val r) := congrArg ok (if_pos hl)
  exact ⟨fun h => hrun.trans (congrArg ok (takeRecord_waits h)), fun m h hc => hrun.trans (congrArg ok (takeRecord_judges h hc))⟩

/-! ## Commands whose input or buffer is not there (R219, R331) -/

theorem runCmd_poisoned {h code i : Nat} {x : Slot} {g : State → Nat → Slot → State} (hs : startedCmd s h code = some (i, x)) (hb : x.bad = true) :
    runCmd s h code g = done s i 0x010D 0 := by
  simp [runCmd, runSlot, hs, hb]

theorem runCmd_cut {h code i : Nat} {x : Slot} {g : State → Nat → Slot → State} (hs : startedCmd s h code = some (i, x)) (hb : x.bad = false)
    (hc : cmdCut s x = true) : runCmd s h code g = done s i 0x010E 0 := by
  simp [runCmd, runSlot, hs, hb, hc]

theorem runCmd_none {h code : Nat} {g : State → Nat → Slot → State} (hs : startedCmd s h code = none) (ht : tornCmd s h code = none) :
    runCmd s h code g = s := by
  simp [runCmd, hs, ht]

/-- The command runs as a row of the table of posted commands: through `runCmd`, with the row's code. -/
def RunsRow (h : Nat) (c : Instr × Nat) : Prop := ∃ g, ∀ s, exec c.1 s = .next (runCmd s h c.2 g)

theorem RunsRow.of_runCmd {h code : Nat} {c : Instr} {g : State → Nat → Slot → State} (e : ∀ s, exec c s = .next (runCmd s h code g)) :
    RunsRow h (c, code) := ⟨g, e⟩

/-- Settles O25: every row named runs through `runCmd`, which looks at the input and the buffers first. -/
theorem poisonedCommandsHaveNoEffect : Obligations.PoisonedCommandsHaveNoEffect := by
  unfold Obligations.PoisonedCommandsHaveNoEffect
  intro s h c hc
  have hrow : RunsRow h c := by
    simp only [List.mem_cons, List.not_mem_nil, or_false] at hc
    rcases hc with rfl | rfl | rfl | rfl | rfl | rfl | rfl | rfl | rfl | rfl | rfl | rfl | rfl | rfl | rfl | rfl | rfl | rfl | rfl | rfl | rfl | rfl |
      rfl | rfl | rfl | rfl | rfl | rfl | rfl <;> exact .of_runCmd fun _ => rfl
  obtain ⟨g, hg⟩ := hrow
  rw [hg]
  exact ⟨fun i x hs hb => congrArg ok (runCmd_poisoned hs hb), fun i x hs hb hc => congrArg ok (runCmd_cut hs hb hc),
    fun hs ht => congrArg ok (runCmd_none hs ht)⟩

/-! ## The record of a frame that closes (R344, R345, R351, R352) -/

theorem markDirty_frame (o : Nat) : ∃ m, markDirty s o = { s with mem := m } := by
  unfold markDirty
  split <;> exact ⟨_, rfl⟩

/-- A request that the controller takes changes the marks of the stores only. -/
theorem accepted_frame (o : Nat) : ∃ m, accepted s o = { s with mem := m } := by
  unfold accepted
  extract_lets n x
  split <;> exact markDirty_frame o

theorem dramLine_frame (o : Nat) (data : List Byte) (mask : Option Nat) (poison : Bool) : ∃ m, dramLine s o data mask poison = { s with mem := m } := by
  obtain ⟨m, h⟩ := accepted_frame (s := { s with mem := { s.mem with
    dram := mwritem s.mem.dram (64 * (o / 64)) (mask.getD (2 ^ 64 - 1)) data,
    dramPoison := tset s.mem.dramPoison (o / 64) (poison || (mask.isSome && tget s.mem.dramPoison (o / 64) false)) false } }) o
  exact ⟨m, h⟩

@[simp] theorem dramLine_sense (o : Nat) (data : List Byte) (mask : Option Nat) (poison : Bool) : (dramLine s o data mask poison).sense = s.sense := by
  obtain ⟨m, h⟩ := dramLine_frame (s := s) o data mask poison
  rw [h]

@[simp] theorem dramLine_host (o : Nat) (data : List Byte) (mask : Option Nat) (poison : Bool) : (dramLine s o data mask poison).host = s.host := by
  obtain ⟨m, h⟩ := dramLine_frame (s := s) o data mask poison
  rw [h]

@[simp] theorem enqueue_sense (o : Nat) (write : Bool) (master source : Nat) : (enqueue s o write master source).sense = s.sense := rfl

@[simp] theorem enqueue_host (o : Nat) (write : Bool) (master source : Nat) : (enqueue s o write master source).host = s.host := rfl

/-- A stream's entry is another index of the dictionary than its last record. -/
theorem stream_setOcts_last {t : State} (ht : t.host = s.host) (n : Nat) (v : List Byte) : (t.setOcts 0x2102 n v).stream n = s.stream n := by
  have hk : tget (tput s.host.oct (0x2102 * 256 + n) v) (0x2100 * 256 + n) [] = tget s.host.oct (0x2100 * 256 + n) [] := tget_tput_ne _ _ _ (by omega)
  simp only [State.stream, State.octs, State.setOcts_host, ht, hk]

/-- The state in which the hub has stored the record of the closing frame `f`, place `i` of the list, and published it (R345, R351). -/
def recorded (s : State) (n i : Nat) (f : Frame) : State :=
  let o := slotAt f 0
  let s1 := enqueue (dramLine s o (frameRecord n f true) none false) o true (frameHub f) (0x40000 + n)
  let s2 := { s1 with sense := { s1.sense with closing := s.sense.closing.eraseIdx i } }.setOcts 0x2102 n (frameRecord n f true)
  if f.old = false ∧ s.stream n / 2 = f.raw / 2 then s2.setNum 0x2101 n ((f.fseq + 1) % 2 ^ 64) else s2

/-- What the final record of a frame does: the frame's oldest closing is recorded, and the notify object that its hub reaches is set (R352). -/
theorem frameFinal_records {n m i : Nat} {f : Frame} (hf : s.sense.closing.find? (fun p => p.1 == n) = some (m, f))
    (hi : lfind (fun p : Nat × Frame => p.1 == n) s.sense.closing = some i) (hb : ∀ l ∈ s.sense.inbuf, l.entry ≠ n ∨ l.tfs ≠ f.tfs)
    (hr : hubReach s (frameHub f) (slotAt f 0) = true) (hq : roomFor (s.queue (queueOf (slotAt f 0))) (frameHub f) = true)
    (ht : strNotify f.raw = 0 ∨ routeUp s (4 + frameHub f) (refUnit (strNotify f.raw)) = false ∨
      unitTakes s (refUnit (strNotify f.raw)) (0xC00 + n) = true) :
    let v := vtSetOn (unitTook (recorded s n i f) (refUnit (strNotify f.raw)) (0xC00 + n)) (strSector f.raw) (strNotify f.raw)
      ((f.fseq + 1) % 2 ^ 64 % 2 ^ 32)
    frameFinal s n = if strNotify f.raw = 0 ∨ routeUp s (4 + frameHub f) (refUnit (strNotify f.raw)) = false then recorded s n i f
      else if v.1 = 0 then v.2 else v.2.count32 0x2103 n 1 := by
  have hbuf : s.sense.inbuf.any (fun l => l.entry == n && l.tfs == f.tfs) = false :=
    List.any_eq_false.2 fun l hl => by
      rcases hb l hl with h | h <;> simp [h]
  have hwait : (decide (strNotify f.raw ≠ 0) && routeUp s (4 + frameHub f) (refUnit (strNotify f.raw)) &&
      !unitTakes s (refUnit (strNotify f.raw)) (0xC00 + n)) = false := by
    rcases ht with h | h | h <;> simp [h]
  have hstream (v : List Byte) (l : List (Nat × Frame)) :
      State.stream (State.setOcts { enqueue (dramLine s (slotAt f 0) (frameRecord n f true) none false) (slotAt f 0) true (frameHub f) (0x40000 + n) with
        sense := { s.sense with closing := l } } 0x2102 n v) n = s.stream n :=
    stream_setOcts_last (by simp) n v
  unfold frameFinal recorded
  simp only [hf, hbuf, hr, hq, hwait, Bool.not_true, Bool.or_self, Bool.false_eq_true, if_false, enqueue_sense, dramLine_sense, hi, Option.getD_some,
    ← List.eraseIdx_eq_take_drop_succ, hstream, Bool.and_eq_true, Bool.not_eq_true', decide_eq_true_eq, Bool.or_eq_true]

/-- Settles O45: the clauses are the two outcomes of `frameFinal_records`. -/
theorem frameRecordFinalCompletes : Obligations.FrameRecordFinalCompletes := by
  unfold Obligations.FrameRecordFinalCompletes
  intro s n m i f o unit next hf hi hb hr hq s1 s2 s3 v
  refine ⟨fun h => congrArg ok ?_, fun h0 hu ht => congrArg ok ?_⟩
  · exact (frameFinal_records hf hi hb hr hq (h.imp_right .inl)).trans (if_pos h)
  · exact (frameFinal_records hf hi hb hr hq (.inr (.inr ht))).trans (if_neg fun h => h.elim h0 fun h => Bool.noConfusion (hu.symm.trans h))

end Sys2Proof.Machine
end

section
/-! PROOFS. The fixed routes between Prisms (R27), and the links: what a receiver does with a flit, the link timers, and links and PLLs that are
lost (R32, R324, R329-R332). -/

namespace Sys2Proof.Machine

/-! ## The fixed routes (R26, R27) -/

/-- Only a seat's route to itself has no link. -/
theorem route_eq_nil_iff (a b : Nat) : route a b = [] ↔ a = b := by
  by_cases h : a = b
  · exact iff_of_true (if_pos h) h
  · refine iff_of_false ?_ h
    unfold route
    rw [if_neg h]
    repeat' split
    all_goals exact List.cons_ne_nil _ _

/-- A route between two Prisms keeps to the links between Prisms, 0 to 3. -/
theorem route_prisms_lt : ∀ a < 4, ∀ b < 4, ∀ l ∈ route a b, l < 4 := by decide

/-- Links 0 to 3 end at Prisms. -/
theorem linkEnds_prisms : ∀ l < 4, (linkEnds l).1 < 4 ∧ (linkEnds l).2 < 4 := by decide

/-- Settles O42: a route between Prisms uses links 0 to 3 alone, which end at Prisms; the two-hop routes are rows of the table. -/
theorem fixedRoutes : Obligations.FixedRoutes := by
  unfold Obligations.FixedRoutes
  exact ⟨fun a ha b hb => ⟨route_eq_nil_iff a b, fun l hl => linkEnds_prisms l (route_prisms_lt a ha b hb l hl)⟩, rfl, rfl, rfl, rfl⟩

/-! ## Flits that arrive (R324, R329) -/

/-- The check of a flit agrees with its contents (R324). -/
def flitSound (b : List Byte) : Bool := crc64 (b.take 248) == leAt b 248 8

/-- A flit carries the sequence that its receiver expects, or, where it is idle, the last one again (R329). -/
abbrev flitDue (s : State) (l d : Nat) (b : List Byte) : Prop :=
  nbits (flitHead b) 36 12 = if flitIdle b then ((s.dir l d).expect + 4095) % 4096 else (s.dir l d).expect

section Arrival

variable {s : State} {l d : Nat} {b : List Byte}

/-- The guest's direction of its link, as the model asks for it. -/
theorem guestWay_iff : (decide (l = 13) && decide (d = 1)) = true ↔ l = 13 ∧ d = 1 := by
  rw [Bool.and_eq_true, decide_eq_true_eq, decide_eq_true_eq]

/-- A flit with a reserved bit stops its link unless the guest sent it. -/
theorem reservedStops_iff :
    (flitReserved b && !(decide (l = 13) && decide (d = 1))) = true ↔ flitReserved b = true ∧ ¬ (l = 13 ∧ d = 1) := by
  rw [Bool.and_eq_true, Bool.not_eq_true', ← Bool.not_eq_true, guestWay_iff]

/-- A flit of another direction than the guest's raises nothing at the firewall. -/
theorem flitTaken_inner (hg : ¬ (l = 13 ∧ d = 1)) :
    flitTaken s l d b = drainDir (takeAck (s.modDir l d fun y =>
      if flitIdle b then { y with fresh := false }
      else { y with expect := (nbits (flitHead b) 36 12 + 1) % 4096, nak := none, fresh := false, fails := 0, sendNak := false,
                    buffer := y.buffer ++ flitUnits b }) l d (flitHead b)) l d := by
  have hr : ¬ ((decide (l = 13) && decide (d = 1) && headReserved (flitHead b)) = true) := fun h =>
    hg (guestWay_iff.1 (Bool.and_eq_true_iff.1 h).1)
  exact congrArg (drainDir · l d) (if_neg hr)

variable (hu : linkUp s l = true) (hl : b.length = 256) (hs : sendable s l d b (flitSound b) = true)
include hu hl hs

/-- A flit that its sender sends, on a link that is up, is judged by its check, its reserved bits and its sequence, in this order
(R329); one out of its order is no failure of the expected one (log entry 45). -/
theorem flitReceive_sent :
    flitReceive s l d b =
      if !flitSound b then refuse (sendFlit s l d b (flitSound b)) l d true
      else if flitReserved b && !(l = 13 && d = 1) then linkDown s l
      else if flitDue s l d b then flitTaken (sendFlit s l d b (flitSound b)) l d b
      else refuse (sendFlit s l d b (flitSound b)) l d false := by
  have hn : ¬ ((!linkUp s l || decide (b.length ≠ 256) || !sendable s l d b (flitSound b)) = true) := by
    rw [hu, hl, hs]
    decide
  exact if_neg hn

theorem flitReceive_refused (hc : flitSound b = false) : flitReceive s l d b = refuse (sendFlit s l d b (flitSound b)) l d true := by
  rw [flitReceive_sent hu hl hs, hc, Bool.not_false, if_pos rfl]

theorem flitReceive_reserved (hc : flitSound b = true) (hr : flitReserved b = true) (hg : ¬ (l = 13 ∧ d = 1)) :
    flitReceive s l d b = linkDown s l := by
  rw [flitReceive_sent hu hl hs, hc, Bool.not_true, if_neg Bool.false_ne_true, if_pos (reservedStops_iff.2 ⟨hr, hg⟩)]

/-- A sound flit without a reserved bit is judged by its sequence, and so is every sound flit of the guest (R338). -/
theorem flitReceive_sound (hc : flitSound b = true) (hr : flitReserved b = false ∨ (l = 13 ∧ d = 1)) :
    flitReceive s l d b =
      if flitDue s l d b then flitTaken (sendFlit s l d b (flitSound b)) l d b
      else refuse (sendFlit s l d b (flitSound b)) l d false := by
  have hn : ¬ (flitReserved b = true ∧ ¬ (l = 13 ∧ d = 1)) := fun h => hr.elim (fun hf => Bool.eq_false_iff.1 hf h.1) h.2
  rw [flitReceive_sent hu hl hs, hc, Bool.not_true, if_neg Bool.false_ne_true, if_neg (mt reservedStops_iff.1 hn)]

end Arrival

/-! ## Timers and losses (R32, R329-R332) -/

section Losses

variable {s : State} {l d : Nat}

/-- A refusal that has gone unanswered for 2,000 ns is repeated (R329). -/
theorem nakTimeout_repeats {t : Nat} (hn : (s.dir l d).nak = some t) (hu : linkUp s l = true) (ht : t + 2000 ≤ s.now) :
    nakTimeout s l d = s.modDir l d fun y => { y with nak := some s.now, fresh := true, sendNak := true } := by
  simp [nakTimeout, hn, hu, Nat.not_lt.2 ht]

/-- A sender without progress for 2,000 ns replays all that it keeps, which is a retry (R329). -/
theorem ackTimeout_retries (hu : linkUp s l = true) (hk : (s.dir l d).unacked ≠ []) (ht : (s.dir l d).ackAt + 2000 ≤ s.now) :
    ackTimeout s l d = retry (s.modDir l d fun y => { y with ackAt := s.now, replay := y.unacked.map Prod.fst }) l := by
  simp [ackTimeout, hu, hk, Nat.not_lt.2 ht]

/-- Both ends of a link of the device report it (R331). -/
theorem linkDown_inner (hu : linkUp s l = true) (hg : l ≠ 13) :
    linkDown s l = dieFault (dieFault (linkStop s l) 0x15 l (linkEnds l).1) 0x15 l (linkEnds l).2 := by
  simp [linkDown, hu, hg]

/-- The guest link is lost with a reset of the guest and a warning (R332). -/
theorem linkDown_guest (hu : linkUp s 13 = true) :
    linkDown s 13 = nimWarn (dieFault (assertGrst (linkStop s 13)) 0x15 13 (linkEnds 13).1) 5 0x0104 [0] := by
  simp [linkDown, hu]

/-- The clock fault of a PLL that loses its lock in a device that has power (R32). -/
theorem pllLost_locked (hp : s.dev.st ≠ .off) (hk : nbit s.dev.pll d = true) :
    let a := raiseFault { s with dev := { s.dev with pll := s.dev.pll - 2 ^ d } } s.now 0 0x14 (domainSeat d) 0x1FF d none
    pllLost s d = if d < 20 && d % 5 = 3 then
      ((List.range 14).filter fun l => (linkEnds l).1 == d / 5 || (linkEnds l).2 == d / 5).foldl linkDown a else a := by
  simp [pllLost, hp, hk]

end Losses

/-- A link and a direction are the guest's towards the device as numbers where they are in their types. -/
theorem guestWay_val {l : Fin 14} {d : Fin 2} : (l.val = 13 ∧ d.val = 1) ↔ (l = 13 ∧ d = 1) :=
  ⟨fun ⟨hl, hd⟩ => ⟨Fin.ext hl, Fin.ext hd⟩, fun ⟨hl, hd⟩ => ⟨congrArg Fin.val hl, congrArg Fin.val hd⟩⟩

/-- Settles O41: the arrival of a flit by its branches (`flitReceive_sent`), each timer past its 2,000 ns, and each loss by its report. -/
theorem linkCommands : Obligations.LinkCommands := by
  unfold Obligations.LinkCommands
  refine ⟨?flits,
    fun s l d t hn hu ht => congrArg ok (nakTimeout_repeats hn hu ht),
    fun s l d hu hk ht => congrArg ok (ackTimeout_retries hu hk ht),
    fun s l hu hg => congrArg ok (linkDown_inner hu fun h => hg (Fin.ext h)),
    fun s hu => congrArg ok (linkDown_guest hu),
    fun s d hp hk => congrArg ok (pllLost_locked hp hk)⟩
  intro s l d b x h q good s1 due hu hl hs
  refine ⟨?refused, ?reserved, ?taken, ?guest, ?outOfOrder⟩
  case refused => exact fun hc => congrArg ok (flitReceive_refused hu hl hs hc)
  case reserved => exact fun hc hr hg => congrArg ok (flitReceive_reserved hu hl hs hc hr (mt guestWay_val.1 hg))
  case taken =>
    intro hc hr hg hd
    have ht := (flitReceive_sound hu hl hs hc (.inl hr)).trans (if_pos hd)
    exact congrArg ok (ht.trans (flitTaken_inner (mt guestWay_val.1 hg)))
  case guest =>
    rintro hc rfl rfl hd
    exact congrArg ok ((flitReceive_sound hu hl hs hc (.inr ⟨rfl, rfl⟩)).trans (if_pos hd))
  case outOfOrder =>
    exact fun hc hr hd => congrArg ok ((flitReceive_sound hu hl hs hc (hr.imp_right guestWay_val.2)).trans (if_neg hd))

end Sys2Proof.Machine
end

section
/-! PROOFS. What an integer product leaves in the accumulator (R50, R58, R59, R85): one write of each covered word, and no other. -/

namespace Sys2Proof.Machine

/-! ## An accumulator word after a write (R50, R93) -/

section Words

variable (f : Facet) (k j : Nat)

theorem accWord_accPut (v : Word) : accWord (accPut f k v) j = if k = j then v else accWord f j := by
  unfold accWord accPut
  cases f.accFree with
  | none => exact tget_tset _ _ _ _ _
  | some b => exact tget_tput _ _ _ _ _

@[simp] theorem accWord_countStat (sat nan : Nat) : accWord (countStat f sat nan) j = accWord f j := rfl

@[simp] theorem accWord_heldPut (v : Word) : accWord (heldPut f k v) j = accWord f j := rfl

/-- The word that an integer sum leaves over, or adds into, an old one (R85). -/
def summed (acc : Bool) (old : Word) (p : Int) : Word := BitVec.ofInt 32 (sat32 (if acc then old.toInt + p else p)).1

theorem accWord_accInt (acc : Bool) (p : Int) : accWord (accInt f k acc p) j = if k = j then summed acc (accWord f j) p else accWord f j := by
  simp only [accInt, accWord_countStat, accWord_accPut]
  split
  next h => rw [h, summed]
  next => rfl

end Words

/-! ## The rows of a control word (R58) -/

section Places

variable {c : Ctl} {p : Nat × Nat × Nat}

theorem mem_places : p ∈ c.places ↔ p.1 = c.row + p.2.2 * c.ow + p.2.1 ∧ p.2.1 < c.ow ∧ p.2.2 < c.oh := by
  obtain ⟨r, ox, oy⟩ := p
  simp only [Ctl.places, List.mem_flatMap, List.mem_map, List.mem_range, Prod.mk.injEq]
  constructor
  · rintro ⟨_, hy, _, hx, rfl, rfl, rfl⟩
    exact ⟨rfl, hx, hy⟩
  · rintro ⟨rfl, hx, hy⟩
    exact ⟨oy, hy, ox, hx, rfl, rfl, rfl⟩

theorem place_row_covered (h : p ∈ c.places) : c.row ≤ p.1 ∧ p.1 < c.row + c.m := by
  obtain ⟨hr, hx, hy⟩ := mem_places.1 h
  have hm : (p.2.2 + 1) * c.ow ≤ c.oh * c.ow := Nat.mul_le_mul_right _ hy
  rw [Ctl.m, Nat.mul_comm c.ow]
  rw [Nat.succ_mul] at hm
  omega

/-- The rows of the positions rise in the order of the list: along a line by one, and from line to line by the width at least. -/
theorem places_rows_rise (c : Ctl) : c.places.Pairwise fun p q => p.1 < q.1 := by
  refine List.pairwise_flatMap.2 ⟨fun oy _ => ?line, List.pairwise_lt_range.imp fun {a b} hab => ?lines⟩
  case line =>
    exact List.pairwise_map.2 (List.pairwise_lt_range.imp fun h => Nat.add_lt_add_left h _)
  case lines =>
    intro p hp q hq
    obtain ⟨i, hi, rfl⟩ := List.mem_map.1 hp
    obtain ⟨j, -, rfl⟩ := List.mem_map.1 hq
    have hiw : i < c.ow := List.mem_range.1 hi
    have hline : (a + 1) * c.ow ≤ b * c.ow := Nat.mul_le_mul_right _ hab
    rw [Nat.succ_mul] at hline
    show c.row + a * c.ow + i < c.row + b * c.ow + j
    omega

/-- The words that a product covers: each position with each of the 64 columns (R50). -/
def Ctl.words (c : Ctl) : List ((Nat × Nat × Nat) × Nat) := c.places.flatMap fun p => (List.range 64).map fun n => (p, n)

/-- The key of a covered word: the row of its position, and its column. -/
def wordKey (w : (Nat × Nat × Nat) × Nat) : Nat := accKey w.1.1 w.2

theorem mem_words {w : (Nat × Nat × Nat) × Nat} : w ∈ c.words ↔ w.1 ∈ c.places ∧ w.2 < 64 := by
  obtain ⟨p, n⟩ := w
  simp only [Ctl.words, List.mem_flatMap, List.mem_map, List.mem_range, Prod.mk.injEq]
  constructor
  · rintro ⟨_, hp, _, hn, rfl, rfl⟩
    exact ⟨hp, hn⟩
  · rintro ⟨hp, hn⟩
    exact ⟨p, hp, n, hn, rfl, rfl⟩

/-- The keys of the covered words rise in the order of the list, so that none comes twice. -/
theorem words_keys_rise (c : Ctl) : c.words.Pairwise fun w v => wordKey w < wordKey v := by
  refine List.pairwise_flatMap.2 ⟨fun p _ => ?row, (places_rows_rise c).imp fun {p q} hpq => ?rows⟩
  case row =>
    exact List.pairwise_map.2 (List.pairwise_lt_range.imp fun h => Nat.add_lt_add_left h _)
  case rows =>
    intro w hw v hv
    obtain ⟨n, hn, rfl⟩ := List.mem_map.1 hw
    obtain ⟨m, -, rfl⟩ := List.mem_map.1 hv
    have hn64 : n < 64 := List.mem_range.1 hn
    show 64 * p.1 + n < 64 * q.1 + m
    omega

theorem word_key_covered {w : (Nat × Nat × Nat) × Nat} (h : w ∈ c.words) :
    64 * c.row ≤ wordKey w ∧ wordKey w < 64 * (c.row + c.m) := by
  obtain ⟨hp, hn⟩ := mem_words.1 h
  have hrow := place_row_covered hp
  unfold wordKey accKey
  omega

end Places

/-! ## A pass of writes, each to the word of its own key -/

section Pass

variable {α : Type} {step : Facet → α → Facet} {key : α → Nat} {val : α → Word → Word}
  (hstep : ∀ g a k, accWord (step g a) k = if key a = k then val a (accWord g k) else accWord g k)
include hstep

theorem accWord_foldl_of_ne {l : List α} {k : Nat} (hk : ∀ a ∈ l, key a ≠ k) (f : Facet) : accWord (l.foldl step f) k = accWord f k := by
  induction l generalizing f with
  | nil => rfl
  | cons a l ih =>
    obtain ⟨ha, hl⟩ := List.forall_mem_cons.1 hk
    rw [List.foldl_cons, ih hl, hstep, if_neg ha]

/-- Where the keys rise, each word is written once, from what it held before the pass. -/
theorem accWord_foldl_of_mem {l : List α} (hl : l.Pairwise fun a b => key a < key b) {a : α} (ha : a ∈ l) (f : Facet) :
    accWord (l.foldl step f) (key a) = val a (accWord f (key a)) := by
  induction l generalizing f with
  | nil => exact absurd ha List.not_mem_nil
  | cons b l ih =>
    obtain ⟨hb, hl⟩ := List.pairwise_cons.1 hl
    rw [List.foldl_cons]
    rcases List.mem_cons.1 ha with rfl | ha
    · rw [accWord_foldl_of_ne hstep fun d hd => Nat.ne_of_gt (hb d hd), hstep, if_pos rfl]
    · rw [ih hl ha, hstep, if_neg (Nat.ne_of_lt (hb a ha))]

end Pass

/-! ## The integer product (R59, R85) -/

section Product

variable {x : Facet} {t : Tensor} {tl : Tile}

/-- The exact sum of a column at the input position that a tap reads; a tap outside the input contributes 0 (R59, R85). -/
def tapSum (x : Facet) (t : Tensor) (tl : Tile) (pos : Option (Nat × Nat)) (n : Nat) : Int :=
  match pos with
  | some (i, j) => intColumn x t tl i j n
  | none => 0

/-- The step of a product at a covered word. -/
def productStep (x : Facet) (t : Tensor) (tl : Tile) (tap : Word) (c : Ctl) (g : Facet) (w : (Nat × Nat × Nat) × Nat) : Facet :=
  mmWord x t tl c (tapPos t tap w.1.2.1 w.1.2.2) g w.1.1 w.2

/-- What an integer product leaves in a covered word that held `old`. -/
def productWord (x : Facet) (t : Tensor) (tl : Tile) (tap : Word) (c : Ctl) (w : (Nat × Nat × Nat) × Nat) (old : Word) : Word :=
  summed c.acc old (tapSum x t tl (tapPos t tap w.1.2.1 w.1.2.2) w.2)

/-- The two loops of a product are one pass over the covered words. -/
theorem mmPass_eq_foldl_words (tap : Word) (c : Ctl) : mmPass x t tl tap c = c.words.foldl (productStep x t tl tap c) x := by
  simp only [mmPass, Ctl.words, List.foldl_flatMap, List.foldl_map, productStep]

variable (hi : mmInt t tl = true)
include hi

/-- In integer mode a word of a product is a sum into the accumulator; the held contributions lie beside it (R85, R93). -/
theorem accWord_mmWord (c : Ctl) (pos : Option (Nat × Nat)) (g : Facet) (r n k : Nat) :
    accWord (mmWord x t tl c pos g r n) k = accWord (accInt g (accKey r n) c.acc (tapSum x t tl pos n)) k := by
  cases pos <;> simp only [mmWord, tapSum, hi, if_true]
  all_goals
    split
    · rw [accWord_heldPut]
    · split
      · rfl
      · rw [accWord_heldPut]

theorem accWord_productStep (tap : Word) (c : Ctl) (g : Facet) (w : (Nat × Nat × Nat) × Nat) (k : Nat) :
    accWord (productStep x t tl tap c g w) k = if wordKey w = k then productWord x t tl tap c w (accWord g k) else accWord g k :=
  (accWord_mmWord hi ..).trans (accWord_accInt ..)

variable (tap : Word) {c : Ctl}

theorem accWord_mmPass_covered {w : (Nat × Nat × Nat) × Nat} (hw : w ∈ c.words) :
    accWord (mmPass x t tl tap c) (wordKey w) = productWord x t tl tap c w (accWord x (wordKey w)) := by
  rw [mmPass_eq_foldl_words]
  exact accWord_foldl_of_mem (accWord_productStep hi tap c) (words_keys_rise c) hw x

theorem accWord_mmPass_outside {k : Nat} (hk : k < 64 * c.row ∨ 64 * (c.row + c.m) ≤ k) :
    accWord (mmPass x t tl tap c) k = accWord x k := by
  rw [mmPass_eq_foldl_words]
  refine accWord_foldl_of_ne (accWord_productStep hi tap c) (fun w hw => ?_) x
  have hcov := word_key_covered hw
  omega

end Product

/-- Settles O9: the keys of the covered words rise along the pass, so that each is written once, from its old value, and the rows outside never. -/
theorem integerProductWords : Obligations.IntegerProductWords := by
  unfold Obligations.IntegerProductWords
  intro x t tl tap c hi
  refine ⟨fun p hp n hn => ?_, fun k hk => accWord_mmPass_outside hi tap hk⟩
  exact accWord_mmPass_covered hi tap (mem_words.2 ⟨hp, hn⟩ : (p, n) ∈ c.words)

end Sys2Proof.Machine
end

section
/-! PROOFS. The commands of KV pools (R118-R142): a started one reaches its row's effect, which its checks let through. -/

namespace Sys2Proof.Machine

open Sys2Proof.Safety

variable {s : State} {h code i n : Nat} {x : Slot} {p : Pool}

/-! ## A started command reaches its row (R130, R142, R219) -/

/-- A started command whose input is sound and whose buffers its hub reaches runs its row's effect on its slot. -/
theorem runCmd_started {g : State → Nat → Slot → State} (hs : started s h code i x) : runCmd s h code g = g s i x := by
  obtain ⟨hcmd, hbad, hcut⟩ := hs
  simp [runCmd, runSlot, hcmd, hbad, hcut]

/-- A started KV command whose turn it is on a pool of its sector runs its row's effect on the pool. -/
theorem poolCmd_started {g : State → Nat → Slot → Nat → Pool → State} (hs : startedKv s h code i n x p) :
    poolCmd s h code g = g s i x n p := by
  obtain ⟨hcmd, hturn, rfl, hpool, hsec⟩ := hs
  unfold poolCmd
  rw [runCmd_started hcmd]
  simp [hturn, hpool, hsec]

/-! ## The checks of a row that pass (R132, R139, R140) -/

theorem poolCreate_keeps (hs : started s h 0x60 i x) (hturn : poolWaits s x = false) (hnone : s.pool (fld x.body 0 4) = none)
    (hgrant : (s.sec x.sector).record.getLsbD (32 + fld x.body 0 4) = true) (halign : ∀ b ∈ (newPool s.now x).bases, b % 64 = 0)
    (hapart : planesApart (newPool s.now x).bases ((newPool s.now x).pages * (2 * pageHalf (newPool s.now x))) (newPool s.now x).caddr
      (controlBytes (newPool s.now x).pages (newPool s.now x).seqs) = true) :
    poolCreate s h = done (s.keepPool (fld x.body 0 4) (newPool s.now x)) i 0 0 := by
  have haligned : ((newPool s.now x).bases.any fun b => b % 64 != 0) = false :=
    List.any_eq_false.2 fun b hb => by simp [halign b hb]
  unfold poolCreate
  rw [runCmd_started hs]
  simp [hturn, hnone, hgrant, haligned, hapart]

/-- A pool that no task binds, with no page pinned and no command of it held or waiting for frees, is removed. -/
theorem poolDestroy_removes (hs : startedKv s h 0x61 i n x p) (hbind : ∀ t ∈ s.work.tasks, ∀ b, t.2.bind = some b → b.pool ≠ n)
    (hpins : ∀ e ∈ p.page, e.2.pins = 0) (hheld : p.held = []) (hfreeing : p.freeing = []) :
    poolDestroy s h = done { s with kv := tdel s.kv n } i 0 0 := by
  unfold poolDestroy
  rw [poolCmd_started hs]
  refine if_neg ?_
  simp only [hheld, hfreeing, List.isEmpty_nil, Bool.not_true, Bool.or_false, Bool.not_eq_true, Bool.or_eq_false_iff]
  refine ⟨List.any_eq_false.2 fun t ht => ?unbound, List.any_eq_false.2 fun e he => ?unpinned⟩
  case unbound =>
    cases hb : t.2.bind with
    | none => simp
    | some b => simpa using hbind t ht b hb
  case unpinned => simp [hpins e he]

theorem kvAlloc_pops (hs : startedKv s h 0x62 i n x p) (hfree : fld x.body 53 11 ≤ freeCount p) :
    kvAlloc s h = done (outWrite (s.keepPool n (popPages (fld x.body 53 11) p).2) x (fld x.body 320 64)
      ((popPages (fld x.body 53 11) p).1.flatMap (toBytes 4))) i 0 0 := by
  unfold kvAlloc
  rw [poolCmd_started hs]
  exact if_neg (Nat.not_lt.2 hfree)

/-- Distinct pages that are LIVE and unmapped are dropped; the command waits for those that are still pinned. -/
theorem kvFree_drops (hs : startedKv s h 0x64 i n x p)
    (hlive : ∀ w ∈ inWords x (fld x.body 53 11), w < p.pages ∧ (pageAt p w).maps = 0 ∧ (pageAt p w).st = .live)
    (hdistinct : (inWords x (fld x.body 53 11)).eraseDups.length = (inWords x (fld x.body 53 11)).length) :
    let ps := inWords x (fld x.body 53 11)
    let p1 := (sortBy (fun w => p.pages - w) ps).foldl (fun a w => dropPage a s.now w) p
    kvFree s h = if (stillFreeing p1 ps).isEmpty then done (s.keepPool n p1) i 0 0
      else waitOn (s.keepPool n { p1 with freeing := p1.freeing ++ [(h, stillFreeing p1 ps)] }) i := by
  intro ps p1
  have hrange : (ps.any fun w => decide (p.pages ≤ w)) = false := List.any_eq_false.2 fun w hw => by simp [(hlive w hw).1]
  have hunmapped : (ps.any fun w => decide (0 < (pageAt p w).maps)) = false := List.any_eq_false.2 fun w hw => by simp [(hlive w hw).2.1]
  have hall : (ps.any fun w => (pageAt p w).st != .live) = false := List.any_eq_false.2 fun w hw => by simp [(hlive w hw).2.2]
  unfold kvFree
  rw [poolCmd_started hs]
  refine (if_neg (Bool.eq_false_iff.1 hrange)).trans ((if_neg (Bool.eq_false_iff.1 hunmapped)).trans (if_neg ?_))
  simp [hall, ps, hdistinct]

theorem kvSeq_takes {op : Nat} (hs : startedKv s h 0x65 i n x p) (hop : fld x.body 4 2 = op) :
    kvSeq s h op = takeSeq s i n p
      { handle := h, op := op, seq := fld x.body 24 12, first := 0, items := inWords x (fld x.body 53 11) } := by
  unfold kvSeq
  rw [poolCmd_started hs]
  exact if_neg (not_not_intro hop)

/-- The rows of `KV_SEQ`, each with its operation. -/
theorem exec_kvSeq {c : Instr × Nat} (hc : c ∈ [(Instr.kvSeqOpen h, 0), (.kvSeqClose h, 1), (.kvSeqCloseFree h, 2), (.kvSeqSetGlobals h, 3)]) :
    exec c.1 s = .next (kvSeq s h c.2) := by
  simp only [List.mem_cons, List.not_mem_nil, or_false] at hc
  rcases hc with rfl | rfl | rfl | rfl <;> rfl

theorem execKvHeldApply_applies (hpool : s.pool n = some p) : execKvHeldApply n s = ok (applyHeld s n p.held []) := by
  unfold execKvHeldApply
  rw [hpool]

/-- A released page without pins becomes FREE, and the commands that wait for no other page complete. -/
theorem kvPageFree_frees {g : Nat} (hpool : s.pool n = some p) (hst : (pageAt p g).st = .freeing) (hpins : (pageAt p g).pins = 0) :
    let p1 := pageFree p s.now g
    let fr := p1.freeing.map fun e => (e.1, e.2.filter (· != g))
    kvPageFree s n g = ((fr.filter fun e => e.2.isEmpty).map Prod.fst).foldl (fun a h => finishH a h 0 0 s.now)
      (s.keepPool n { p1 with freeing := fr.filter fun e => !e.2.isEmpty }) := by
  unfold kvPageFree
  simp only [hpool]
  exact if_neg (by simp [hst, hpins])

/-- Settles O30: a started row reaches its effect (`runCmd_started`, `poolCmd_started`), whose refusals the conditions on the pool exclude. -/
theorem kvCommands : Obligations.KvCommands := by
  unfold Obligations.KvCommands
  refine ⟨?create, ?destroy, ?alloc, ?map, ?free, ?seq, ?held, ?page⟩
  case create => exact fun s h i x hs hturn hnone hgrant halign hapart => congrArg ok (poolCreate_keeps hs hturn hnone hgrant halign hapart)
  case destroy => exact fun s h i n x p hs hbind hpins hheld hfreeing => congrArg ok (poolDestroy_removes hs hbind hpins hheld hfreeing)
  case alloc => exact fun s h i n x p hs hfree => congrArg ok (kvAlloc_pops hs hfree)
  case map => exact fun s h i n x p hs => congrArg ok (poolCmd_started hs)
  case free => exact fun s h i n x p hs hlive hdistinct => congrArg ok (kvFree_drops hs hlive hdistinct)
  case seq => exact fun s h i n x p c hc hs hop => (exec_kvSeq hc).trans (congrArg ok (kvSeq_takes hs hop))
  case held => exact fun s n p hpool => execKvHeldApply_applies hpool
  case page => exact fun s n g p hpool hst hpins => congrArg ok (kvPageFree_frees hpool hst hpins)

end Sys2Proof.Machine
end

section
/-! PROOFS. Self-test slots, reference figures, laps, the ends of copies and switches, and the debugger (R154, R239, R246, R403, R406, R408-R410,
R438). -/

namespace Sys2Proof.Machine

variable {s : State} {d e f : Nat}

/-! ## Self-test slots (R246) -/

/-- The sites `fs` of die `d` under the self-test of entry `e` from now to `stop`; the die's next slot goes on after the first of them. -/
def takeSites (s : State) (e d stop : Nat) (fs : List Nat) : State :=
  let s1 := fs.foldl (fun a f => a.modFacet f fun y => { y with testing := some (e, s.now, stop) }) s
  match fs with
  | [] => s1
  | f :: _ => { s1 with sched := { s1.sched with testStart := tput s1.sched.testStart d (f % 128) } }

/-- The end of an entry's slot in the tick that runs. -/
def slotStop (s : State) (r : BitVec 256) : Nat := tickStart s s.tickNow + (fld r 80 16 + fld r 96 16) * 1000

/-- A self-test entry does nothing, or takes the next standby sites of its die to the end of its slot. -/
theorem slotRun_cases (s : State) (e : Nat) :
    slotRun s e = s ∨
    ∃ x, s.ent e = some x ∧ slotRun s e = takeSites s e (entDie x.raw) (slotStop s x.raw) (testSites s (entDie x.raw) (fld x.raw 160 4)) := by
  unfold slotRun
  cases he : s.ent e with
  | none => exact .inl rfl
  | some x =>
    dsimp only
    split
    · exact .inl rfl
    · exact .inr ⟨x, rfl, rfl⟩

theorem slotRun_takes {x : SchEntry} (he : s.ent e = some x) (hk : entKind x.raw = 2) (hen : x.en = true)
    (hslot : s.tickNow % s.num 0x2801 0 = entSlot x.raw) (hopen : tickOpened s = true) (hticks : ticks s (entSector x.raw) s.tickNow = true)
    (hup : s.dieUp (entDie x.raw) = true) (hroom : overfull s (entDie x.raw) = false)
    (hfirst : ∀ p ∈ s.work.facets, p.2.testing.map Prod.fst ≠ some e) :
    slotRun s e = takeSites s e (entDie x.raw) (slotStop s x.raw) (testSites s (entDie x.raw) (fld x.raw 160 4)) := by
  have hnone : (s.work.facets.any fun p => (p.2.testing.map Prod.fst) == some e) = false :=
    List.any_eq_false.2 fun p hp => by simp [hfirst p hp]
  unfold slotRun
  rw [he]
  exact if_neg (by simp [hk, hen, hslot, hopen, hticks, hup, hroom, hnone])

theorem slotStart_runs (hnow : s.now = tickStart s s.tickNow + fld (s.entRaw e) 80 16 * 1000)
    (hswitch : tfind s.work.switching (entDie (s.entRaw e)) = none) : slotStart s e = slotRun s e :=
  if_neg (by simp [← hnow, hswitch])

/-! ## Reference figures (R239, R402, R403) -/

/-- A figure whose time (log entry 58) fits in its site's reservation runs where its data is clean, and is reloaded where it is not. -/
theorem figureRun_runs {out : List (Nat × Word)} {cause : Bool} (hres : reservedUntil s f = some e) (hop : s.operating = true)
    (hrun : (s.facet f).run ≠ .running) (hend : (s.facet f).run ≠ .ended) (hup : s.dieUp (dieOf f) = true) (hswitch : switchDelays s f = false)
    (hreload : (s.facet f).reload ≤ s.now) (hfits : s.now + figureNs s f ≤ e) :
    let ordered := s.safety.findings.any fun q => findsOn f q && ((s.facet f).finding.isSome || decide (q.stamp < reservedSince s f))
    let k := figureNo s f ordered
    let t := figureLoad s f k out
    figureRun s f out cause =
      if figureClean s f k then (if ordered then findingFigure t f (figurePass k out cause) else periodicFigure t f (figurePass k out cause))
      else figureReload s f k e := by
  intro ordered k t
  have hruns : ¬ (!s.operating || (s.facet f).run == .running || (s.facet f).run == .ended || !s.dieUp (dieOf f) || switchDelays s f ||
      decide (s.now < (s.facet f).reload) || decide (e < s.now + figureNs s f)) = true := by
    simp [hop, hrun, hend, hup, hswitch, hreload, hfits]
  unfold figureRun
  rw [hres]
  refine (if_neg hruns).trans ?_
  cases hclean : figureClean s f k
  · exact if_pos (by rw [hclean]; rfl)
  · exact if_neg (by rw [hclean]; exact Bool.false_ne_true)

/-! ## The latent-fault lap (R438) -/

theorem lapDeadline_misses {t : Nat} (hlap : tfind s.safety.lapStart d = some t) (hend : lapEnd s t ≤ s.now) (hroom : overfull s d = false) :
    lapDeadline s d = missLap s d t := by
  unfold lapDeadline
  rw [hlap]
  exact if_neg (by simp [hend, hroom])

/-! ## Slice switches (R154) -/

/-- The switches that are under way and the resident slices. -/
def State.slices (s : State) : Tab Nat × Tab Nat := (s.work.switching, s.work.slice)

/-- A fold keeps what each of its steps keeps of the state. -/
theorem foldl_keeps {α β : Type} {g : State → β} {step : State → α → State} (hstep : ∀ a y, g (step a y) = g a) (l : List α) (s : State) :
    g (l.foldl step s) = g s :=
  l.foldlRecOn step (motive := fun t => g t = g s) rfl fun a ha y _ => (hstep a y).trans ha

theorem takeSites_slices (s : State) (e d stop : Nat) (fs : List Nat) : (takeSites s e d stop fs).slices = s.slices := by
  have hsites := foldl_keeps (g := State.slices) (step := fun a f => a.modFacet f fun y => { y with testing := some (e, s.now, stop) })
    (fun _ _ => rfl) fs s
  cases fs with
  | nil => exact hsites
  | cons f l => exact hsites

theorem slotRun_slices (s : State) (e : Nat) : (slotRun s e).slices = s.slices := by
  rcases slotRun_cases s e with hs | ⟨x, _, hs⟩
  · rw [hs]
  · rw [hs, takeSites_slices]

theorem lateSlots_slices (s : State) (d : Nat) : (lateSlots s d).slices = s.slices :=
  foldl_keeps (fun a (p : Nat × SchEntry) => slotRun_slices a p.1) _ s

/-- A switch that ends is under way no longer, and its slice is resident. -/
theorem switchIn_slices (s : State) (d j : Nat) :
    ∃ a : State, (switchIn s d j).slices = (tdel a.work.switching d, tput a.work.slice d j) := by
  unfold switchIn
  extract_lets ts s1 work s2 since late sites
  refine ⟨s1, (lateSlots_slices _ d).trans (foldl_keeps (fun a f => ?_) sites s2)⟩
  dsimp only
  split <;> rfl

theorem switching_switchIn (s : State) (d j : Nat) : tfind (switchIn s d j).work.switching d = none := by
  obtain ⟨a, hs⟩ := switchIn_slices s d j
  rw [show (switchIn s d j).work.switching = tdel a.work.switching d from congrArg Prod.fst hs, tfind_tdel, if_pos rfl]

theorem slice_switchIn (s : State) (d j : Nat) : tfind (switchIn s d j).work.slice d = some j := by
  obtain ⟨a, hs⟩ := switchIn_slices s d j
  rw [show (switchIn s d j).work.slice = tput a.work.slice d j from congrArg Prod.snd hs, tfind_tput, if_pos rfl]

theorem switchDone_ends {j : Nat} (hswitch : tfind s.work.switching d = some j) : switchDone s d = switchIn s d j := by
  unfold switchDone
  rw [hswitch]

/-! ## The join's copy (R406) -/

theorem execJoinCopyComplete_ends {t : Nat} (hjoin : s.safety.join = .copying t) :
    execJoinCopyComplete s = ok { s with safety := { s.safety with join := .trial (s.tickNow + 1) } } := by
  unfold execJoinCopyComplete
  rw [hjoin]

/-! ## The debugger's writes (R410) -/

/-- A write that fits in the local store: a checker copy is unavailable, a full log is an error, and a paired main copy's write is logged. -/
theorem debugWrite_writes {a : Nat} {data : List Byte} (hsome : data ≠ []) (hlen : data.length ≤ 64) (hfits : a + data.length ≤ 0x300000) :
    debugWrite s f a data =
      if checkerSite s f then debugAnswer s (.debugUnavailable f)
      else if debugLogs s f && decide (64 ≤ (s.facet f).debugLog.length) then debugAnswer s (.debugError f)
      else s.setFacet f (if debugLogs s f then { lsWrite (s.facet f) a data with debugLog := (s.facet f).debugLog ++ [(a, data)] }
        else lsWrite (s.facet f) a data) := by
  have hlegal : ¬ (data.isEmpty || decide (64 < data.length) || decide (0x300000 < a + data.length)) = true := by
    simp [hsome, hlen, hfits]
  refine (if_neg hlegal).trans (ite_congr rfl (fun _ => rfl) fun _ => ?_)
  cases debugLogs s f
  case false => rfl
  case true => exact (if_neg Bool.false_ne_true).trans (ite_congr decide_eq_true_eq.symm (fun _ => rfl) fun _ => rfl)

/-- Settles O24: each command's conditions choose one branch of it; a switch that ends keeps its slice through the late slots (`switchIn_slices`). -/
theorem selfTestsAndCopies : Obligations.SelfTestsAndCopies := by
  unfold Obligations.SelfTestsAndCopies
  refine ⟨?slotStart, fun _ _ => rfl, ?figure, ?lap, fun _ _ => rfl, ?switch, ?join, fun _ _ => rfl, ?write⟩
  case slotStart =>
    intro s e x he hk hen hnow hswitch hslot hopen hticks hup hroom hfirst
    have hraw : s.entRaw e = x.raw := by simp [State.entRaw, he]
    rw [← hraw] at hnow hswitch
    exact congrArg ok ((slotStart_runs hnow hswitch).trans (slotRun_takes he hk hen hslot hopen hticks hup hroom hfirst))
  case figure =>
    exact fun s f e out cause hres hop hrun hend hup hswitch hreload hfits =>
      congrArg ok (figureRun_runs hres hop hrun hend hup hswitch hreload hfits)
  case lap => exact fun s d t hlap hend hroom => congrArg ok (lapDeadline_misses hlap hend hroom)
  case switch =>
    exact fun s d j hswitch => ⟨congrArg ok (switchDone_ends hswitch), switching_switchIn s d.val j, slice_switchIn s d.val j⟩
  case join => exact fun s t hjoin => execJoinCopyComplete_ends hjoin
  case write => exact fun s f a data hsome hlen hfits => congrArg ok (debugWrite_writes hsome hlen hfits)

end Sys2Proof.Machine
end

section
/-! PROOFS. The loading and unloading of images (R169-R171, R233). -/

namespace Sys2Proof.Machine

open Sys2Proof.Safety

variable {s : State} {h i : Nat} {x : Slot}

/-- An image that is read clean and passes every check is applied, and its entries stay where they are placed when none breaks a rule. -/
theorem imgLoad_applies (hs : started s h 0x50 i x) (hnew : tfind s.work.images x.sector = none) :
    let va := fld x.body 320 64
    let n := imgSpan (ofBytes (pagedRead s x.pages va 64))
    let img := pagedRead s x.pages va n
    let placed := (imgEntries img).zip (freeIndices s (imgEntries img).length)
    let t := placed.foldl (fun a p => placeEntry a x.sector p.2 p.1.2) (imgApply (countPaged s x.pages va n 8 false) x.sector img)
    pagedBad s x.pages va n = false → imgCheck s x.hub x.sector img = 0 → firstBad t x.sector placed = none → imgLoad s h = done t i 0 0 := by
  intro va n img placed t hclean hcheck hentries
  have hnone : ¬ (tfind s.work.images x.sector).isSome = true := by simp [hnew]
  unfold imgLoad
  rw [runCmd_started hs]
  refine (if_neg hnone).trans ((if_neg (Bool.eq_false_iff.1 hclean)).trans ((if_neg (not_not_intro hcheck)).trans ?_))
  dsimp only
  split
  next hbad => exact nomatch hentries.symm.trans hbad
  next => rfl

/-- Settles O29: a started row runs its effect (`runCmd_started`), whose refusals the checks exclude. -/
theorem imageCommands : Obligations.ImageCommands := by
  unfold Obligations.ImageCommands
  refine ⟨?load, ?unload⟩
  case load => exact fun s h i x hs hnew hclean hcheck hentries => congrArg ok (imgLoad_applies hs hnew hclean hcheck hentries)
  case unload =>
    intro s h i x im hs him t
    refine congrArg ok ((runCmd_started hs).trans ?_)
    rw [him]

end Sys2Proof.Machine
end

section
/-! PROOFS. Signals on Vertex objects and their watches (R176, R177), and the commands of objects and barriers (R174-R201). -/

namespace Sys2Proof.Machine

open Sys2Proof.Safety

/-! ## Signals (R176, R177) -/

section Signals

variable {s : State} {sec r v : Nat}

@[simp] theorem watchesOn_setVobj (k : Nat) (o : VObj) : watchesOn (s.setVobj k o) r = watchesOn s r := rfl

/-- A post on a usable reference whose sum fits adds to the object's value and releases the earliest watch that holds for the sum. -/
theorem vtPostOn_adds (hlive : refStatus s sec r = 0) (hfits : (s.vobj (refKey r)).value.toNat + v < 2 ^ 32) :
    let n := (s.vobj (refKey r)).value.toNat + v
    let t := s.setVobj (refKey r) { s.vobj (refKey r) with value := BitVec.ofNat 32 n }
    vtPostOn s sec r v = match (watchesOn s r).find? (watchHolds · n) with
      | none => (0, t)
      | some w => (0, releaseWatch t w 1 n) := by
  intro n t
  exact (if_neg (not_not_intro hlive)).trans (if_neg (Nat.not_le.2 hfits))

theorem vtPostOn_overflow (hlive : refStatus s sec r = 0) (hover : 2 ^ 32 ≤ (s.vobj (refKey r)).value.toNat + v) :
    vtPostOn s sec r v = (0x0505, s) :=
  (if_neg (not_not_intro hlive)).trans (if_pos hover)

/-- A set on a usable reference writes the object's value and releases every watch that holds for it, in order of registration. -/
theorem vtSetOn_writes (hlive : refStatus s sec r = 0) (hword : v < 2 ^ 32) :
    vtSetOn s sec r v = (0, ((watchesOn s r).filter (watchHolds · v)).foldl (fun a w => releaseWatch a w 2 v)
      (s.setVobj (refKey r) { s.vobj (refKey r) with value := BitVec.ofNat 32 v })) := by
  refine (if_neg (not_not_intro hlive)).trans ?_
  simp only [Nat.mod_eq_of_lt hword, watchesOn_setVobj]

/-- Settles O32: of the watches on the object, a post looks for the first that holds (`vtPostOn_adds`), a set takes all (`vtSetOn_writes`). -/
theorem signalsFollowTheirRules : Obligations.SignalsFollowTheirRules := by
  unfold Obligations.SignalsFollowTheirRules
  intro s sec r v hlive o n put
  refine ⟨?quiet, ?release, vtPostOn_overflow hlive, vtSetOn_writes hlive⟩
  case quiet =>
    intro hfits hquiet
    have hnone : (watchesOn s r).find? (watchHolds · n) = none := List.find?_eq_none.2 fun w hw => Bool.eq_false_iff.1 (hquiet w hw)
    rw [vtPostOn_adds hlive hfits, hnone]
  case release =>
    intro hfits w hfirst
    rw [vtPostOn_adds hlive hfits, hfirst]

end Signals

/-! ## Objects by command (R174, R186, R200) -/

section Commands

variable {s : State} {h i j k : Nat} {x : Slot}

theorem vtAlloc_allocates (hs : started s h 0x70 i x) (hfwd : awaitsFwd x (fld x.body 16 3) = false)
    (hbusy : unitBusy s x (fld x.body 16 3) = false)
    (hquota : liveOn s x.sector (fld x.body 16 3) + fld x.body 24 8 ≤ fld (s.sec x.sector).record (800 + 16 * fld x.body 16 3) 16)
    (hroom : fld x.body 24 8 ≤ (takeObjs s (fld x.body 16 3) (fld x.body 24 8)).length) :
    let u := fld x.body 16 3
    let ks := takeObjs s u (fld x.body 24 8)
    let t := ks.foldl (fun a k => a.setVobj k { st := .live, gen := ((a.vobj k).gen + 1) % 65536, value := 0, owner := x.ctx, sector := x.sector })
      (unitTook s u x.key)
    vtAlloc s h = done (outWrite t x (fld x.body 320 64)
      ((ks.map fun k => pack [(29, 3, u), (12, 16, (t.vobj k).gen), (0, 12, k % 4096)]).flatMap (toBytes 4))) i 0 0 := by
  intro u ks t
  unfold vtAlloc
  rw [runCmd_started hs]
  exact (if_neg (by simp [hfwd, hbusy])).trans ((if_neg (Nat.not_lt.2 hquota)).trans (if_neg (Nat.not_lt.2 hroom)))

theorem vtFree_waits (hs : started s h 0x71 i x) (hown : ∀ r ∈ inWords x (fld x.body 24 8), freeStatus s x r = 0) :
    vtFree s h = waitOn s i := by
  have hnone : ((inWords x (fld x.body 24 8)).find? fun r => freeStatus s x r != 0) = none :=
    List.find?_eq_none.2 fun r hr => by simp [hown r hr]
  unfold vtFree
  rw [runCmd_started hs, hnone]

/-- A free whose context stands is applied by its unit to the slot that its handle names. -/
theorem vtFreeUnit_standing (hctx : tornCmd s h 0x71 = none) : vtFreeUnit s h j = vtFreeIn s h j := by
  unfold vtFreeUnit
  rw [hctx]

/-- A unit whose turn it is frees the object of a reference not yet applied; the command is done with its last one. -/
theorem vtFreeIn_frees (hholds : s.holds h = true) :
    let x := s.slot (slotOf h)
    let r := inWord x j
    let ws := lset (inWords x (fld x.body 24 8)) j 0xFFFFFFFF
    let t0 := freeObj (unitTook s (refUnit r) x.key) (refKey r)
    let t := t0.setSlot (slotOf h) { t0.slot (slotOf h) with input := ws.flatMap (toBytes 4) }
    x.st = .inflight → x.cmd = .waiting → x.code = 0x71 → x.sgen = (s.sec x.sector).gen → j < fld x.body 24 8 → r ≠ 0xFFFFFFFF →
    freeStatus s x r = 0 → unitBusy s x (refUnit r) = false → cmdCut s x = false →
    vtFreeIn s h j = if ws.all (· == 0xFFFFFFFF) then done t (slotOf h) 0 0 else t := by
  intro x r ws t0 t hst hcmd hcode hgen hj hopen hown hbusy hcut
  unfold vtFreeIn
  refine (if_neg ?_).trans ?_
  · simp [x, r, hholds, hst, hcmd, hcode, hgen, hj, hopen, hbusy, hcut]
  · dsimp only
    rw [if_pos hown]

/-- The check of a command's unit before it applies a signal or a watch: it is passed when the command has arrived and its turn has come, and by
a reference that names no unit, which the operation itself refuses. -/
theorem unitTurn_passes {u : Nat} (hturn : (awaitsFwd x u = false ∧ unitBusy s x u = false) ∨ 6 ≤ u) :
    ¬ (decide (u < 6) && (awaitsFwd x u || unitBusy s x u)) = true := by
  rcases hturn with ⟨hfwd, hbusy⟩ | hnone
  · simp [hfwd, hbusy]
  · simp [Nat.not_lt.2 hnone]

/-- A signal command takes its status from the signal that its unit applies. -/
theorem vtSignal_applies {code : Nat} {f : State → Nat → Nat → Nat → Nat × State} (hs : started s h code i x)
    (hturn : (awaitsFwd x (refUnit (fld x.body 224 32)) = false ∧ unitBusy s x (refUnit (fld x.body 224 32)) = false) ∨
      6 ≤ refUnit (fld x.body 224 32)) :
    let r := fld x.body 224 32
    let a := f (unitTook s (refUnit r) x.key) x.sector r (fld x.body 288 32)
    vtSignal s h code f = done a.2 i a.1 0 := by
  intro r a
  unfold vtSignal
  rw [runCmd_started hs]
  exact if_neg (unitTurn_passes hturn)

/-- A watch that its unit registers leaves the command waiting for the release. -/
theorem vtWatch_registers (hs : started s h 0x74 i x)
    (hturn : (awaitsFwd x (refUnit (fld x.body 224 32)) = false ∧ unitBusy s x (refUnit (fld x.body 224 32)) = false) ∨
      6 ≤ refUnit (fld x.body 224 32)) :
    let b := x.body
    let r := fld b 224 32
    let a := vtRegister (waitOn (unitTook s (refUnit r) x.key) i)
      { id := 0, unit := 0, ref := r, cond := fld b 14 2, cmp := fld b 256 32, cookie := fld b 192 32, dkind := fld b 12 2,
        dest := fld b 0 9, sector := x.sector, site := none, handle := some h, wake := none }
    a.1 = 0 → vtWatch s h = a.2 := by
  intro b r a hstatus
  unfold vtWatch
  rw [runCmd_started hs]
  exact (if_neg (unitTurn_passes hturn)).trans (if_pos hstatus)

theorem vtUnwatch_cancels {w : Watch} (hs : started s h 0x75 i x) (hpending : pendingWatch s x.ctx (fld x.body 288 32) = some w)
    (hfwd : awaitsFwd x w.unit = false) (hbusy : unitBusy s x w.unit = false) :
    vtUnwatch s h = done (finish (unitTook (dropWatch s w.id) w.unit x.key) (slotOf (fld x.body 288 32)) 0x050C
      (s.vobj (refKey w.ref)).value s.now) i 0 0 := by
  unfold vtUnwatch
  rw [runCmd_started hs]
  simp only [hpending]
  exact if_neg (by simp [hfwd, hbusy])

/-! ## Barriers by command (R189-R195, R201) -/

/-- A barrier with participants that its sector may name takes the first free key of its Prism or root. -/
theorem apxCreate_creates (hs : started s h 0x78 i x) :
    let dev := x.body.getLsbD 19
    let u := fld x.body 16 3
    let nx := fld x.body 40 8
    let parts := bitmapHomes (leAt x.input 0 64)
    awaitsFwd x u = false → unitBusy s x u = false → (∀ p ∈ parts, homeGranted s x.sector p = true ∧ (dev = false → dieOf p = u)) →
    (parts ≠ [] ∨ nx ≠ 0) → (dev = true → s.num 0x4000 0 ≠ 1 ∨ spans parts nx u = false) → (barKeys dev u).find? (fun k => !(s.bar k).live) = some k →
    ((barKeys dev u).filter fun k => (s.bar k).live && (s.bar k).sector == x.sector).length < barQuota s x.sector dev u →
    let t := (unitTook s u x.key).setBar k
      { Barrier.never with live := true, gen := ((s.bar k).gen + 1) % 4096, parts := parts, nx := nx, owner := x.ctx, sector := x.sector }
    apxCreate s h = done (outWrite t x (fld x.body 320 64 + 64) (toBytes 4 (barRef t k))) i 0 0 := by
  intro dev u nx parts hfwd hbusy hgranted hsome hspan hfree hquota t
  have hparts : (parts.any fun p => !(homeGranted s x.sector p) || (!dev && dieOf p != u)) = false :=
    List.any_eq_false.2 fun p hp => by
      obtain ⟨hgrant, hdie⟩ := hgranted p hp
      cases hdev : dev <;> simp [hgrant, hdie, hdev]
  have hnonempty : (parts.isEmpty && decide (nx = 0)) = false := by
    rcases hsome with hp | hn
    · simp [hp]
    · simp [hn]
  have hhalf : (dev && s.num 0x4000 0 == 1 && spans parts nx u) = false := by
    cases hdev : dev with
    | false => rfl
    | true =>
      rcases hspan hdev with hmode | hone
      · simp [hmode]
      · simp [hone]
  unfold apxCreate
  rw [runCmd_started hs]
  refine (if_neg (by simp [u, hfwd, hbusy])).trans ((if_neg ?_).trans ((if_neg (Bool.eq_false_iff.1 hhalf)).trans ?_))
  · exact Bool.eq_false_iff.1 (Bool.or_eq_false_iff.2 ⟨hparts, hnonempty⟩)
  · simp only [dev, u] at hfree
    simp only [hfree]
    exact if_neg (Nat.not_le.2 hquota)

theorem apxDestroy_destroys (hs : started s h 0x79 i x) (hlive : barStatus s x.sector (fld x.body 224 32) = 0) :
    let k := barKey (fld x.body 224 32)
    awaitsFwd x (barSeat k) = false → unitBusy s x (barSeat k) = false →
    apxDestroy s h = done (barDestroy (unitTook s (barSeat k) x.key) k) i 0 0 := by
  intro k hfwd hbusy
  unfold apxDestroy
  rw [runCmd_started hs]
  exact (if_neg (not_not_intro hlive)).trans (if_neg (by simp [k, hfwd, hbusy]))

/-- Counters that agree with their copy pass the root's comparison. -/
theorem barCompare_agrees (hdup : (s.bar k).dup = countsOf (s.bar k)) : barCompare s k = s := if_pos hdup.symm

/-- An arrival that the round still has room for is counted in both copies; its command waits for the round. -/
theorem apxArrive_arrives (hs : started s h 0x7A i x) (hlive : barStatus s x.sector (fld x.body 224 32) = 0) :
    let k := barKey (fld x.body 224 32)
    let b := s.bar k
    awaitsFwd x (barSeat k) = false → unitBusy s x (barSeat k) = false → b.broken = false → b.narr < b.nx → b.dup = countsOf b →
    apxArrive s h = barCheck ((waitOn (unitTook s (barSeat k) x.key) i).setBar k
      { b with narr := b.narr + 1, handles := b.handles ++ [h], dup := (b.dup.1, b.dup.2 + 1) }) k := by
  intro k b hfwd hbusy hwhole hroom hdup
  have hsame : barCompare (waitOn (unitTook s (barSeat k) x.key) i) k = waitOn (unitTook s (barSeat k) x.key) i := barCompare_agrees hdup
  unfold apxArrive
  rw [runCmd_started hs, ← hsame]
  exact (if_neg (not_not_intro hlive)).trans ((if_neg (by simp [k, hfwd, hbusy])).trans
    ((if_neg (Bool.eq_false_iff.1 hwhole)).trans (if_neg (Nat.not_le.2 hroom))))

end Commands

/-- Settles O31: a started row runs its effect (`runCmd_started`), whose waits and refusals the conditions exclude; that a unit keeps and consults the
order of its operations (`unitTook`, `unitBusy`) is log entry 29. -/
theorem vertexCommands : Obligations.VertexCommands := by
  unfold Obligations.VertexCommands
  refine ⟨?alloc, ?free, ?freeUnit, ?signal, ?watch, ?unwatch, ?create, ?destroy, ?arrive⟩
  case alloc =>
    exact fun s h i x hs hfwd hbusy hquota hroom => congrArg ok (vtAlloc_allocates hs hfwd hbusy hquota hroom)
  case free => exact fun s h i x hs hown => congrArg ok (vtFree_waits hs hown)
  case freeUnit =>
    exact fun s h j hholds hst hcmd hcode hgen hj hopen hown hbusy hcut hctx =>
      congrArg ok ((vtFreeUnit_standing hctx).trans (vtFreeIn_frees hholds hst hcmd hcode hgen hj hopen hown hbusy hcut))
  case signal =>
    exact fun s h i x hturn => ⟨fun hs => congrArg ok (vtSignal_applies hs hturn), fun hs => congrArg ok (vtSignal_applies hs hturn)⟩
  case watch => exact fun s h i x hs hturn hstatus => congrArg ok (vtWatch_registers hs hturn hstatus)
  case unwatch => exact fun s h i x w hs hpending hfwd hbusy => congrArg ok (vtUnwatch_cancels hs hpending hfwd hbusy)
  case create =>
    exact fun s h i k x hs hfwd hbusy hgranted hsome hspan hfree hquota =>
      congrArg ok (apxCreate_creates hs hfwd hbusy hgranted hsome hspan hfree hquota)
  case destroy => exact fun s h i x hs hlive hfwd hbusy => congrArg ok (apxDestroy_destroys hs hlive hfwd hbusy)
  case arrive =>
    exact fun s h i x hs hlive hfwd hbusy hwhole hroom hdup => congrArg ok (apxArrive_arrives hs hlive hfwd hbusy hwhole hroom hdup)

end Sys2Proof.Machine
end

section
/-! PROOFS. The command engines (R219-R223) and the accesses of core windows (R203-R208, R215, R216, R255). -/

namespace Sys2Proof.Machine

open Sys2Proof.Safety

/-! ## Engines (R219, R220, R223) -/

section Engines

variable {s : State} {h hub i : Nat} {eng : Engine} {x : Slot}

/-- An idle engine of a hub that runs takes the first of its queued commands that may start, unless it needs a CONFIG that the device has left. -/
theorem engineStart_starts (hup : hubUp s hub = true) (hidle : engineBusy s hub eng = false)
    (hfirst : (sortBy (fun p : Nat × Slot => queuePlace p.2) ((queued s hub eng).filter fun p => eligible s p.2)).head? = some (i, x))
    (hconfig : configOnly x.code = true → s.dev.st = .config) :
    let s1 := s.setSlot i { x with cmd := .started }
    engineStart s hub eng = if eng = .plane then peBegin s1 x else s1 := by
  have hadmitted : ¬ (configOnly x.code && s.dev.st != .config) = true := by simpa using hconfig
  unfold engineStart
  rw [if_neg (by simp [hup, hidle]), hfirst]
  exact if_neg hadmitted

/-- The guard of a completion lets the handle of a command in flight through. -/
theorem inflight_not_refused (hholds : s.holds h = true) (hflight : (s.slot (slotOf h)).st = .inflight) :
    ¬ (!(s.holds h) || decide ((s.slot (slotOf h)).st ≠ .inflight)) = true := by
  simp [hholds, hflight]

/-- A command with its effect done completes with its own status, whatever befalls its engine. -/
theorem engineComplete_done {st : Nat} {r : Word} (fault : Bool) (hholds : s.holds h = true) (hflight : (s.slot (slotOf h)).st = .inflight)
    (hdone : (s.slot (slotOf h)).cmd = .done st r) :
    engineComplete s h fault = completeCmd (peRelease s (s.slot (slotOf h)) st) (slotOf h) st r := by
  unfold engineComplete
  refine (if_neg (inflight_not_refused hholds hflight)).trans ?_
  rw [hdone]

/-- An internal fault ends a started command without effect, where no flash write of it is under way. -/
theorem engineComplete_faults (hholds : s.holds h = true) (hflight : (s.slot (slotOf h)).st = .inflight)
    (hstarted : (s.slot (slotOf h)).cmd = .started) (hflash : ∀ b ∈ s.plant.hubs, b.writing ≠ some h) :
    engineComplete s h true = completeCmd s (slotOf h) 0x010E 0 := by
  have hquiet : (s.plant.hubs.any fun b => b.writing == some h) = false := List.any_eq_false.2 fun b hb => by simp [hflash b hb]
  unfold engineComplete
  refine (if_neg (inflight_not_refused hholds hflight)).trans ?_
  rw [hstarted]
  exact if_pos (by simp [hquiet])

theorem started_or_waiting_iff {c : CmdSt} : (c == .started || c == .waiting) = true ↔ c ∈ [CmdSt.started, .waiting] := by simp

/-- The descriptor of a command at work, of a current generation and over links that are up, is noted as arrived. -/
theorem fwdArrive_notes (hholds : s.holds h = true) (hflight : (s.slot (slotOf h)).st = .inflight)
    (hgen : (s.slot (slotOf h)).sgen = (s.sec (s.slot (slotOf h)).sector).gen) (hwork : (s.slot (slotOf h)).cmd ∈ [CmdSt.started, .waiting])
    (hreach : cmdCut s (s.slot (slotOf h)) = false) :
    fwdArrive s h = s.setSlot (slotOf h) { s.slot (slotOf h) with fwd := true } :=
  (if_neg (Bool.eq_false_iff.1 hreach)).trans (if_pos (by simp only [hholds, hflight, hgen, started_or_waiting_iff.2 hwork, beq_self_eq_true, Bool.and_self]))

/-- A fence at work waits while an earlier command of its context is open, and is then done. -/
theorem cmdFence_waits (hholds : s.holds h = true) (hflight : (s.slot (slotOf h)).st = .inflight)
    (hgen : (s.slot (slotOf h)).sgen = (s.sec (s.slot (slotOf h)).sector).gen) (hwork : (s.slot (slotOf h)).cmd ∈ [CmdSt.started, .waiting])
    (hcode : (s.slot (slotOf h)).code = 0x02) :
    cmdFence s h = if earlierOpen s (s.slot (slotOf h)) then waitOn s (slotOf h) else done s (slotOf h) 0 0 :=
  if_pos (by simp only [hholds, hflight, hcode, hgen, started_or_waiting_iff.2 hwork, beq_self_eq_true, Bool.and_self])

end Engines

/-- Settles O26: each clause is one branch of its command. That a done command keeps its own status whatever the fault flag, and that one with a
flash in writing is exempt from 0x010E, is the model's choice (log entry 103). -/
theorem engineCommands : Obligations.EngineCommands := by
  unfold Obligations.EngineCommands
  refine ⟨?start, ?complete, ?nop, ?fwdAndFence⟩
  case start => exact fun s hub eng i x hup hidle hfirst hconfig => congrArg ok (engineStart_starts hup hidle hfirst hconfig)
  case complete =>
    exact fun s h st r hholds hflight => ⟨fun hdone b => congrArg ok (engineComplete_done b hholds hflight hdone),
      fun hstarted hflash => congrArg ok (engineComplete_faults hholds hflight hstarted hflash)⟩
  case nop => exact fun s h i x hs => congrArg ok (runCmd_started hs)
  case fwdAndFence =>
    exact fun s h hholds hflight hgen hwork => ⟨fun hreach => congrArg ok (fwdArrive_notes hholds hflight hgen hwork hreach),
      fun hcode => congrArg ok (cmdFence_waits hholds hflight hgen hwork hcode)⟩

/-! ## Core windows (R203-R208, R215, R255) -/

/-- A core is of the hub that numbers it (R254). -/
@[simp] theorem coreHub_coreOf (hub : Fin 2) (c : Fin 8) : coreHub (coreOf hub c) = hub :=
  Fin.ext (show (8 * hub.val + c.val) / 8 = hub.val by omega)

section Windows

variable {s : State} {hub : Fin 2} {c : Fin 8} {n v : Nat}

/-- An allowed control write reaches the window. -/
theorem coreControl_sets (hallowed : ctlAllowed s hub.val n (corePid s (coreOf hub c)) (nbits v 0 6) = true) :
    coreControl s (coreOf hub c) n v = setControl s (.core hub n) hub.val v := by
  unfold coreControl
  rw [coreHub_coreOf]
  exact if_pos hallowed

/-- An allowed read of the control word clears `ovf` after it has read it. -/
theorem readControl_reads (hallowed : accessAllowed s hub.val n (corePid s (coreOf hub c)) false = true) :
    let k := winKey (.core hub n)
    readControl s (coreOf hub c) n = (controlWord s k, s.setWin k { s.win k with ovf := false }) := by
  unfold readControl
  rw [coreHub_coreOf]
  exact if_neg (by simp [hallowed])

/-- An allowed read of the response word takes the window's oldest response, where there is one. -/
theorem popResponse_pops (hallowed : accessAllowed s hub.val n (corePid s (coreOf hub c)) true = true) :
    let k := winKey (.core hub n)
    popResponse s (coreOf hub c) n = match (s.win k).fifo with
      | [] => (0xFFFFFFFF, s)
      | r :: rest => (responseWord r, s.setWin k { s.win k with fifo := rest }) := by
  unfold popResponse
  rw [coreHub_coreOf]
  exact if_neg (by simp [hallowed])

/-- A complete handle of the context is freed, unless it is a step's or one that a report frees. -/
theorem retire_frees {ctx h : Nat} (hgen : s.holdsGen h = true) (hcomplete : (s.slot (slotOf h)).st = .complete)
    (hctx : (s.slot (slotOf h)).ctx = ctx) (hkind : (s.slot (slotOf h)).kind ≠ 2) (hrep : (s.slot (slotOf h)).rep = 0) :
    retire s ctx h = (0, freeSlot s (slotOf h)) :=
  if_pos (by simp [hgen, hcomplete, hctx, hkind, hrep])

/-- An allowed retire through an open window is one by the window's context. -/
theorem coreRetire_retires (hallowed : accessAllowed s hub.val n (corePid s (coreOf hub c)) true = true)
    (hopen : (s.win (winKey (.core hub n))).isOpen = true) :
    coreRetire s (coreOf hub c) n v = (retire s (s.win (winKey (.core hub n))).ctx v).2 := by
  unfold coreRetire
  rw [coreHub_coreOf]
  exact (if_neg (by simp [hallowed])).trans (if_pos hopen)

/-! ### The rows at a hub that runs -/

theorem exec_windowControlWrite_core {w : Word} (hup : hubUp s hub.val = true) :
    exec (.windowControlWrite (.core hub n) c w) s = .next (coreControl s (coreOf hub c) n w.toNat) := congrArg ok (if_pos hup)

theorem exec_windowControlRead_core (hup : hubUp s hub.val = true) :
    exec (.windowControlRead (.core hub n) c) s =
      .next (answer (readControl s (coreOf hub c) n).2 (.core hub n) (readControl s (coreOf hub c) n).1) := congrArg ok (if_pos hup)

theorem exec_responseRead_core (hup : hubUp s hub.val = true) :
    exec (.responseRead hub n c) s =
      .next (answer (popResponse s (coreOf hub c) n).2 (.core hub n) (popResponse s (coreOf hub c) n).1) := congrArg ok (if_pos hup)

theorem exec_handleRetire_core {w : Word} (hup : hubUp s hub.val = true) :
    exec (.handleRetire (.core hub n) c w) s = .next (coreRetire s (coreOf hub c) n w.toNat) := congrArg ok (if_pos hup)

end Windows

/-- Settles O27: an access of a core that its hub numbers meets the checks of R255 with that hub (`coreHub_coreOf`) and passes them; what a read
returns goes to the outputs (log entry 11). -/
theorem windowAccesses : Obligations.WindowAccesses := by
  unfold Obligations.WindowAccesses
  intro s hub c n v k pid allowed hup
  refine ⟨?write, ?read, fun hallowed => ⟨?empty, ?oldest, ?retire⟩⟩
  case write => exact fun hallowed => (exec_windowControlWrite_core hup).trans (congrArg ok (coreControl_sets hallowed))
  case read =>
    intro hallowed
    rw [exec_windowControlRead_core hup, readControl_reads hallowed]
  case empty =>
    intro hempty
    rw [exec_responseRead_core hup, popResponse_pops hallowed, hempty]
  case oldest =>
    intro r rest hfifo
    rw [exec_responseRead_core hup, popResponse_pops hallowed, hfifo]
  case retire =>
    intro x hopen hgen hcomplete hctx hkind hrep
    rw [exec_handleRetire_core hup, coreRetire_retires hallowed hopen, retire_frees hgen hcomplete hctx hkind hrep]

end Sys2Proof.Machine
end

section
/-! PROOFS. The schedule's commands: entries that fall due, releases and replays, budgets and windows, triggers and enables (R234-R248, R399,
R429). -/

namespace Sys2Proof.Machine

open Sys2Proof.Safety

variable {s : State} {e f h i n : Nat} {o : Occ} {x : Slot}

/-! ## Due (R234, R237, R242, R399) -/

/-- No trigger of a removed entry completes before its due time. -/
theorem orphansDue_none (hlater : ∀ p ∈ s.sched.orphans, p.1 = e → s.now < p.2.2.1) : orphansDue s e = s := by
  have hdue : ∀ p ∈ s.sched.orphans, (p.1 == e && decide (p.2.2.1 ≤ s.now)) = false := fun p hp => Bool.eq_false_iff.2 fun hpast => by
    obtain ⟨hentry, htime⟩ := Bool.and_eq_true_iff.1 hpast
    exact absurd (of_decide_eq_true htime) (Nat.not_le.2 (hlater p hp (beq_iff_eq.1 hentry)))
  have hnone : (s.sched.orphans.filter fun p => p.1 == e && decide (p.2.2.1 ≤ s.now)) = [] :=
    List.filter_eq_nil_iff.2 fun p hp => Bool.eq_false_iff.1 (hdue p hp)
  have hall : (s.sched.orphans.filter fun p => !(p.1 == e && decide (p.2.2.1 ≤ s.now))) = s.sched.orphans :=
    List.filter_eq_self.2 fun p hp => congrArg (!·) (hdue p hp)
  unfold orphansDue
  dsimp only
  rw [hnone, hall]
  rfl

/-- An enabled periodic work entry that is due now opens its occurrence, which is shed at once where it cannot run (R399, R401). -/
theorem occDue_opens {x : SchEntry} (he : s.ent e = some x) (hkind : entKind x.raw = 0) (hslot : s.tickNow % s.num 0x2801 0 = entSlot x.raw)
    (hnow : s.now = tickStart s s.tickNow + fld x.raw 80 16 * 1000) (hnew : findOcc s e s.tickNow = none) (hspor : entSpor x.raw = false)
    (harm : armedFor x s.tickNow = none) (hopen : tickOpened s = true) (hop : s.operating = true) (hheld : entHeld s x.raw = false)
    (hen : x.en = true) (hticks : ticks s (entSector x.raw) s.tickNow = true) :
    let s1 := clearArm (addOcc s (newOcc s e s.tickNow .waiting none)) e
    occDue s e =
      if sliceHeld s x.raw || depState s e s.tickNow == .shed || awaitsReplay s x.raw then shed s1 e s.tickNow else s1 := by
  have hdue : ¬ (entKind x.raw ≠ 0 || s.tickNow % s.num 0x2801 0 ≠ entSlot x.raw || s.now ≠ tickStart s s.tickNow + fld x.raw 80 16 * 1000 ||
      !(tickOpened s) || (findOcc s e s.tickNow).isSome || (entSpor x.raw && (armedFor x s.tickNow).isNone)) = true := by
    simp [hkind, hslot, ← hnow, hopen, hnew, hspor]
  have hactive : ¬ (!(s.operating) || entHeld s x.raw || !(x.en)) = true := by simp [hop, hheld, hen]
  have hruns : ¬ (!(ticks s (entSector x.raw) s.tickNow)) = true := by simp [hticks]
  unfold occDue
  rw [he]
  refine (if_neg hdue).trans ((if_neg hactive).trans ((if_neg hruns).trans ?_))
  rw [harm]

/-- An occurrence that still waits after its release window is shed, unless its entry is held. -/
theorem windowClose_sheds
    (hlate : s.sched.occs.find? (fun o => o.entry == e && o.st == .waiting &&
      decide (tickStart s o.tick + fld (s.entRaw e) 112 16 * 1000 ≤ s.now)) = some o)
    (hheld : entHeld s (s.entRaw e) = false) : windowClose s e = shed s e o.tick := by
  unfold windowClose
  rw [hlate]
  exact if_neg (Bool.eq_false_iff.1 hheld)

/-! ## Release (R234, R236, R238) -/

/-- The first occurrence of an entry that waits is released on its sites, where it can run and comes first at them. -/
theorem entryRelease_releases (hwaits : s.sched.occs.find? (fun o => o.entry == e && o.st == .waiting) = some o) (hrun : canRun s o = true)
    (hfirst : firstInLine s o = true) :
    let a := issueHandle s e
    let trial := (pairing s (s.entRaw e) o.tick).2
    let s1 := modOcc a.1 e o.tick fun o => { o with st := .released, release := s.now, handle := a.2, attempts := 1 }
    entryRelease s e = (startHomes o).foldl (fun b h => releaseTask b o trial h) (if trial then restoreTrial s1 (startHomes o) else s1) := by
  unfold entryRelease
  rw [hwaits]
  exact if_neg (by simp [hrun, hfirst])

/-- An ordered replay that can run and comes first restarts its tasks. In a later tick than its own, that tick's occurrences of the
entries that step those with a carry set are shed (R238). -/
theorem replayRelease_restarts (hocc : findOcc s e n = some o) (hordered : o.st = .replayOrdered) (hrun : canRun s o = true)
    (hfirst : firstInLine s o = true) :
    let s1 := modOcc s e n fun o => { o with st := .replaying, release := s.now, attempts := 2 }
    let s2 := (startHomes o).foldl (fun a h => replayTask a o h) s1
    replayRelease s e n = if s.tickNow = n then s2 else (carryEntries s (startHomes o)).foldl (fun a k => shedOwn a k s.tickNow) s2 := by
  unfold replayRelease
  rw [hocc]
  exact if_neg (by simp [hordered, hrun, hfirst])

/-! ## Budgets and windows (R243, R244, R429) -/

/-- A step whose budget has run out is counted, is the last schedule event, and stops with `FX_STOPPED`. -/
theorem budgetStop_stops {st : Step} (hst : (s.facet f).step = some st) (hover : budgetOver s f = true) :
    budgetStop s f =
      { raiseAt { lastEvent (s.count32 0x2808 (dieOf f) 1) s.now st.entry 1 with now := s.now } f 0x0C (s.facet f).pc 0 with now := s.now } := by
  unfold budgetStop budgetStopAt
  rw [hst]
  exact if_neg (by simp [hover])

/-- A stage without a completion at its window's close is a fault stamped with the last instant before it. -/
theorem stageClose_faults (hocc : findOcc s e n = some o) (hmissed : windowMissed s o = true) :
    stageClose s e n = windowFault s e n (tickStart s n + fld (s.entRaw e) 144 16 * 1000 - 1) := by
  unfold stageClose
  rw [hocc]
  exact if_pos hmissed

/-- The replays of a withheld occurrence that are still open at its bound have failed; where none is open, nothing changes. -/
theorem boundExpiry_fails (hocc : findOcc s e n = some o) (hopen : o.st ∈ [OccSt.withheld, .replayOrdered, .replaying])
    (hbound : o.heldAt + 2 * s.tickNs ≤ s.now) :
    boundExpiry s e n =
      ((o.tasks.filter fun t => t.replay && !t.accepted && !t.failed).map TaskOut.home).foldl (fun a h => failReplay a e n h s.now) s := by
  have hst : (o.st == .withheld || o.st == .replayOrdered || o.st == .replaying) = true := by simpa [or_assoc] using hopen
  unfold boundExpiry
  rw [hocc]
  dsimp only
  rw [hst]
  cases (o.tasks.filter fun t => t.replay && !t.accepted && !t.failed).map TaskOut.home with
  | nil => rfl
  | cons k ks => exact if_neg (by simp [hbound])

/-! ## Enables (R248) -/

/-- Entry `e` replaced in the table. -/
def putEntry (s : State) (e : Nat) (z : SchEntry) : State := { s with sched := { s.sched with entries := tput s.sched.entries e z } }

/-- A started enable of a work entry of its sector takes effect at once in CONFIG, and waits for a boundary otherwise. -/
theorem schEnable_enables {y : SchEntry} (hs : started s h 0xC1 i x) (he : s.ent (fld x.body 0 10) = some y)
    (hsec : entSector y.raw = x.sector) (hkind : entKind y.raw = 0) :
    schEnable s h =
      if s.dev.st = .config then done (putEntry s (fld x.body 0 10) { y with en := x.body.getLsbD 16 }) i 0 0
      else waitOn (putEntry s (fld x.body 0 10) { y with change := y.change ++ [(x.body.getLsbD 16, h)] }) i := by
  unfold schEnable
  rw [runCmd_started hs]
  dsimp only
  rw [he]
  exact if_neg (by simp [hsec, hkind])

/-- Settles O23: the conditions of each command pass its checks, and its effect is what is left. -/
theorem scheduleCommands : Obligations.ScheduleCommands := by
  unfold Obligations.ScheduleCommands
  refine ⟨?due, ?release, ?window, ?replay, ?budget, ?stage, ?bound, ?trigger, ?enable⟩
  case due =>
    intro s e x he hkind hslot hnow hnew hspor harm hopen hlater hop hheld hen hticks
    have hdue : entryDue s e = occDue s e := congrArg (occDue · e) (orphansDue_none hlater)
    exact congrArg ok (hdue.trans (occDue_opens he hkind hslot hnow hnew hspor harm hopen hop hheld hen hticks))
  case release => exact fun s e o hwaits hrun hfirst => congrArg ok (entryRelease_releases hwaits hrun hfirst)
  case window => exact fun s e o hlate hheld => congrArg ok (windowClose_sheds hlate hheld)
  case replay => exact fun s e n o hocc hordered hrun hfirst => congrArg ok (replayRelease_restarts hocc hordered hrun hfirst)
  case budget => exact fun s f st hst hover => congrArg ok (budgetStop_stops hst hover)
  case stage => exact fun s e n o hocc hmissed => congrArg ok (stageClose_faults hocc hmissed)
  case bound => exact fun s e n o hocc hopen hbound => congrArg ok (boundExpiry_fails hocc hopen hbound)
  case trigger => exact fun s h i x hs => congrArg ok (runCmd_started hs)
  case enable =>
    intro s h i x y e put hs he hsec hkind
    have henable := schEnable_enables hs he hsec hkind
    exact ⟨fun hconfig => congrArg ok (henable.trans (if_pos hconfig)), fun hconfig => congrArg ok (henable.trans (if_neg hconfig))⟩

end Sys2Proof.Machine
end

section
/-! PROOFS. The commands of sectors and the ends of their drains (R258-R272). -/

namespace Sys2Proof.Machine

open Sys2Proof.Safety

variable {s : State} {h i n t : Nat} {x : Slot}

/-! ## Creation, reset and destruction (R259, R266, R269, R272) -/

/-- A record that passes its checks makes a FREE sector of the mode ACTIVE, with its masters granted and its wake logs at 0. -/
theorem secCreate_creates (hs : started s h 0x40 i x) :
    let n := fld x.body 0 6
    let r := BitVec.ofNat 1536 (ofBytes (x.input.take 192))
    n ≠ 0 → n ≤ maxSector s → (s.sec n).st = .free → recordStatus s n r = 0 →
    secCreate s h = done (grantMasters (freshLogs (s.setSec n
      { st := .active, gen := 0, record := r, dirtyOn := false, drain := none, timedOut := false, resume := 0 }) n) n r) i 0 0 := by
  intro n r hroot hmax hfree hlegal
  have hnumber : ¬ (n = 0 || maxSector s < n) = true := by simp [hroot, hmax]
  unfold secCreate
  rw [runCmd_started hs]
  exact (if_neg hnumber).trans ((if_neg (not_not_intro hfree)).trans (if_neg (not_not_intro hlegal)))

/-- An ACTIVE sector without an image and a pool is retired for its destruction, once nothing carries the generation to come. -/
theorem secDestroy_retires (hs : started s h 0x41 i x) :
    let n := fld x.body 0 6
    (s.sec n).st = .active → tfind s.work.images n = none → (∀ p ∈ s.kv, p.2.sector ≠ n) →
    genInUse s n (((s.sec n).gen + 1) % 65536) = false → secDestroy s h = waitOn (retireSector s n h true) i := by
  intro n hactive himage hpools hgen
  have hempty : ¬ ((tfind s.work.images n).isSome || s.kv.any fun p => p.2.sector == n) = true := by simpa [himage] using fun a p => hpools (a, p)
  unfold secDestroy
  rw [runCmd_started hs]
  exact (if_neg (not_not_intro hactive)).trans ((if_neg hempty).trans (if_neg (Bool.eq_false_iff.1 hgen)))

/-- An ACTIVE sector is retired for its reset, once nothing carries the generation to come. -/
theorem secReset_retires (hs : started s h 0x42 i x) :
    let n := fld x.body 0 6
    (s.sec n).st = .active → genInUse s n (((s.sec n).gen + 1) % 65536) = false → secReset s h = waitOn (retireSector s n h false) i := by
  intro n hactive hgen
  unfold secReset
  rw [runCmd_started hs]
  exact (if_neg (not_not_intro hactive)).trans (if_neg (Bool.eq_false_iff.1 hgen))

/-! ## Translations and dirty logging (R263, R270, R271) -/

theorem secInval_completes (hs : started s h 0x43 i x) (hactive : (s.sec (fld x.body 0 6)).st = .active) : secInval s h = done s i 0 0 := by
  unfold secInval
  rw [runCmd_started hs]
  exact if_pos hactive

/-- A started `SEC_DIRTY` with the row's operation on an ACTIVE sector runs the row's effect. -/
theorem dirtyCmd_started {op : Nat} {g : State → Nat → Slot → Nat → State} (hs : started s h 0x44 i x)
    (hactive : (s.sec (fld x.body 0 6)).st = .active) (hop : fld x.body 6 2 = op) : dirtyCmd s h op g = g s i x (fld x.body 0 6) := by
  unfold dirtyCmd
  rw [runCmd_started hs]
  exact (if_neg (not_not_intro hop)).trans (if_neg (not_not_intro hactive))

/-! ## Drains (R266-R269) -/

/-- No request of a retired generation of the sector is past its controller's acceptance (R266 step 6). -/
abbrev drained (s : State) (n : Nat) : Prop := ∀ r ∈ s.mem.reqs, oldPast s n r = false

theorem drained.not_held (hdrained : drained s n) : ¬ s.mem.reqs.any (oldPast s n) = true := by simpa using hdrained

/-- A drained sector that was destroyed becomes FREE; its streams and masters go at this instant (log entry 51). -/
theorem drainEnd_destroyed (hdrain : (s.sec n).drain = some (t, h, true)) (hdrained : drained s n) :
    drainEnd s n =
      doneH ((freeMasters (disableStreams s n) n).setSec n { s.sec n with st := .free, drain := none, dirtyOn := false }) h 0 0 := by
  unfold drainEnd
  dsimp only
  rw [hdrain]
  exact (if_neg hdrained.not_held).trans (if_pos rfl)

/-- A drained sector that was reset becomes ACTIVE with its tasks restored, and its resets are counted. -/
theorem drainEnd_reset (hdrain : (s.sec n).drain = some (t, h, false)) (hdrained : drained s n) :
    drainEnd s n =
      doneH (((restoreSector s n).setSec n { s.sec n with st := .active, drain := none, resume := nextFrame s }).count32 0x3012 n 1) h 0 0 := by
  unfold drainEnd
  dsimp only
  rw [hdrain]
  exact (if_neg hdrained.not_held).trans (if_neg Bool.false_ne_true)

/-- A drain past its 50 µs that has not been told faults each stack with an old request, and is told. -/
theorem drainTimeout_faults {d : Bool} (hdrain : (s.sec n).drain = some (t, h, d)) (hnew : (s.sec n).timedOut = false)
    (hlate : t + 50000 ≤ s.now) :
    drainTimeout s n =
      (((List.range 4).filter fun k => s.mem.reqs.any fun r => oldPast s n r && stackOf r.off == k).foldl
        (fun a k => raiseFault a a.now 0 0x12 k 0x1FF 0x3F (some n)) s).setSec n { s.sec n with timedOut := true } := by
  have hdue : ¬ ((s.sec n).timedOut || decide (s.now < t + 50000)) = true := by simp [hnew, hlate]
  unfold drainTimeout
  dsimp only
  rw [hdrain]
  exact if_neg hdue

/-- Settles O28: a started row runs its effect (`runCmd_started`), whose refusals the conditions exclude; a drained sector has nothing that holds
its drain up. That a destroyed sector's streams and masters (R292, R347) go as its drain ends is the model's choice (log entry 51), and so is what
retiring does at the command's own instant (log entry 52). -/
theorem sectorCommands : Obligations.SectorCommands := by
  unfold Obligations.SectorCommands
  refine ⟨?create, ?destroy, ?reset, ?inval, ?dirty, ?destroyed, ?restored, ?timeout⟩
  case create => exact fun s h i x hs hroot hmax hfree hlegal => congrArg ok (secCreate_creates hs hroot hmax hfree hlegal)
  case destroy => exact fun s h i x hs hactive himage hpools hgen => congrArg ok (secDestroy_retires hs hactive himage hpools hgen)
  case reset => exact fun s h i x hs hactive hgen => congrArg ok (secReset_retires hs hactive hgen)
  case inval => exact fun s h i x hs hactive => congrArg ok (secInval_completes hs hactive)
  case dirty =>
    intro s h i x n y hs hactive
    refine ⟨fun hop => congrArg ok (dirtyCmd_started hs hactive hop), fun hop hon => congrArg ok ?harvest,
      fun hop => congrArg ok (dirtyCmd_started hs hactive hop)⟩
    case harvest => exact (dirtyCmd_started hs hactive hop).trans (if_neg (by simp [y, n, hon]))
  case destroyed => exact fun s n t h hdrain hdrained => congrArg ok (drainEnd_destroyed hdrain hdrained)
  case restored => exact fun s n t h hdrain hdrained => congrArg ok (drainEnd_reset hdrain hdrained)
  case timeout => exact fun s n t h d hdrain hnew hlate => congrArg ok (drainTimeout_faults hdrain hnew hlate)

end Sys2Proof.Machine
end

section
/-! PROOFS. The front end: Axbel requests (R445-R458), register writes and a core's `kxpid` (R254, R445), the I3C target (R454-R456), and the
acknowledgment of Nimbusor records (R464). -/

namespace Sys2Proof.Machine

variable {s : State} {hub : Fin 2}

/-! ## Axbel requests (R445, R452, R457, R458) -/

/-- The rows of Axbel over I3C, each with its operation: one that carries its request takes it after a transition of this instant. -/
theorem exec_axbel_i3c {pdu : List Byte} {c : Instr × Nat}
    (hc : c ∈ [(Instr.axbelRead hub .i3c pdu, 1), (.axbelWrite hub .i3c pdu, 2), (.axbelEcho hub .i3c pdu, 4)])
    (hcarries : carriesPdu c.2 pdu = true) : exec c.1 s = .next (arriveRequest (settled s) hub .i3c pdu) := by
  simp only [List.mem_cons, List.not_mem_nil, or_false] at hc
  rcases hc with rfl | rfl | rfl <;> exact congrArg ok (if_pos hcarries)

theorem exec_axbelRead {src : AxSource} {bytes : List Byte} (hcarries : carries s 1 src bytes = true) :
    exec (.axbelRead hub src bytes) s = .next (arriveRequest (settled s) hub src bytes) := congrArg ok (if_pos hcarries)

/-- The guard of a front end that runs lets what arrives through. -/
theorem frontUp_not_refused (hup : frontUp s hub.val = true) : ¬ (!(frontUp s hub.val)) = true := by simp [hup]

theorem addressed_not_refused (haddr : addressed s hub.val = true) : ¬ (!(addressed s hub.val)) = true := by simp [haddr]

/-- A request over I3C at a target with an address whose session is free is taken, after the HDR exit that ends its transfer. -/
theorem arriveRequest_i3c_serves {pdu : List Byte} (hup : frontUp s hub.val = true) (haddr : addressed s hub.val = true)
    (hfree : sessionFull s hub.val none = false) : arriveRequest s hub .i3c pdu = stampRequest (hdrExit s hub.val) hub none pdu :=
  (if_neg (frontUp_not_refused hup)).trans ((if_neg (addressed_not_refused haddr)).trans (if_neg (Bool.eq_false_iff.1 hfree)))

section Datagrams

variable {addr port dport : Nat} {bytes : List Byte}

/-- A datagram to the device's port that does not open under its key slot is discarded. -/
theorem arriveRequest_udp_discards (hup : frontUp s hub.val = true) (hport : dport = s.num 0x5F08 0) (hclosed : openDatagram s bytes = none) :
    arriveRequest s hub (.udp addr port dport) bytes = authFail s hub.val (leAt bytes 0 1) addr port := by
  refine (if_neg (frontUp_not_refused hup)).trans ((if_neg (not_not_intro hport)).trans ?_)
  rw [hclosed]

/-- A datagram that opens has its counter recorded, and the unit of a requester with a free session is taken. -/
theorem arriveRequest_udp_serves {slot ctr : Nat} {pdu : List Byte} (hup : frontUp s hub.val = true) (hport : dport = s.num 0x5F08 0)
    (hopen : openDatagram s bytes = some (slot, ctr, pdu)) (hfree : sessionFull (takeCtr s slot ctr) hub.val (some (slot, addr, port)) = false) :
    arriveRequest s hub (.udp addr port dport) bytes = stampRequest (takeCtr s slot ctr) hub (some (slot, addr, port)) pdu := by
  refine (if_neg (frontUp_not_refused hup)).trans ((if_neg (not_not_intro hport)).trans ?_)
  rw [hopen]
  exact if_neg (Bool.eq_false_iff.1 hfree)

end Datagrams

/-! ## Register writes (R254, R445) -/

/-- A write that passes checks 3 to 6 has its entry's effect, unless the entry takes two keys. -/
theorem registerEntry_writes {i sub : Nat} {r : EntryRow} {v : List Byte} (hrow : findRow i = some r) (hup : frontUp s hub.val = true)
    (hchecks : entryStatus s hub.val none true i sub = 0) (hkeys : r.acc ≠ .rw2k) :
    registerEntry s hub i sub v = (writeEntry s hub none r i sub v).2 := by
  have hpass : ¬ (!(frontUp s hub.val) || decide (entryStatus s hub.val none true i sub ≠ 0)) = true := by simp [hup, hchecks]
  unfold registerEntry
  rw [hrow]
  exact (if_neg hpass).trans (if_neg hkeys)

section Kxpid

variable {core priv v : Nat}

/-- From S-mode and above the core gets its value, and a form that writes sets 20 bits. -/
theorem accessKxpid_answers (write : Bool) (hup : hubUp s (core / 8) = true) (hpriv : priv < 3) :
    let a := toGuest s (.coreData core (toBytes 4 (lget s.dev.kxpid core 0)))
    accessKxpid s core priv write v =
      if write then { a with dev := { a.dev with kxpid := lset a.dev.kxpid core (v % 2 ^ 20) } } else a :=
  (if_neg (by simp [hup])).trans (if_pos hpriv)

/-- From a virtual mode or U-mode the access traps. -/
theorem accessKxpid_traps (write : Bool) (hup : hubUp s (core / 8) = true) (hpriv : 3 ≤ priv) :
    accessKxpid s core priv write v = toGuest s (.coreTrap core (decide (priv < 5))) :=
  (if_neg (by simp [hup])).trans (if_neg (Nat.not_lt.2 hpriv))

end Kxpid

/-! ## The I3C target (R454-R456) -/

/-- A read of the target takes the oldest unread response; what it leaves of it is counted. -/
theorem privateRead_reads {maxlen : Nat} {x : Session} {u : List Byte} {rest : List (List Byte)} (hup : frontUp s hub.val = true)
    (haddr : addressed s hub.val = true) (hsession : findSession s hub.val none = some x) (hunread : x.unread = u :: rest) :
    let s1 := i3cOut (putSession (hdrExit s hub.val) { x with unread := rest }) hub.val (u.take maxlen)
    privateRead s hub.val maxlen = if maxlen < u.length then s1.count64 0x5F03 hub.val 1 else s1 := by
  have hready : ¬ (!(frontUp s hub.val) || !(addressed s hub.val)) = true := by simp [hup, haddr]
  refine (if_neg hready).trans ?_
  rw [hsession]
  dsimp only
  rw [hunread]

/-- A code runs at a target that it reaches: one for a single target needs that target's address. -/
theorem cccArrive_runs {c : Ccc} (hup : frontUp s hub.val = true) (hreach : cccDirect c = true → addressed s hub.val = true) :
    cccArrive s hub.val c = cccRun (hdrExit s hub.val) hub.val c := by
  have hreached : ¬ (cccDirect c && !(addressed s hub.val)) = true := by simpa using hreach
  exact (if_neg (frontUp_not_refused hup)).trans (if_neg hreached)

/-- An acknowledged interrupt without a report delivers the oldest that is queued. -/
theorem raiseQueued_delivers {i : Ibi} {rest : List Ibi} (hqueue : lget s.host.ibis hub.val [] = i :: rest) (hup : frontUp s hub.val = true)
    (hrec : recovering s hub.val = false) (haddr : (s.target hub.val).addr ≠ 0) (hevents : nbit (s.target hub.val).events 0 = false)
    (hplain : i.handle = none) :
    raiseQueued s hub.val true =
      i3cOut { s with host := { s.host with ibis := lset s.host.ibis hub.val rest } } hub.val (toBytes 1 i.mdb ++ i.bytes) := by
  have hmay : ¬ (recovering s hub.val || nbit (s.target hub.val).events 0 || !true) = true := by simp [hrec, hevents]
  refine (if_neg (frontUp_not_refused hup)).trans ((if_neg haddr).trans ?_)
  rw [hqueue]
  refine (if_neg hmay).trans ?_
  rw [hplain]

/-! ## Nimbusor (R464) -/

theorem execNimAck_acknowledges {ring : Fin 2} {q : Word} (hup : frontUp (settled s) hub.val = true)
    (hchecks : entryStatus (settled s) hub.val none true 0x5001 ring.val = 0) :
    execNimAck hub ring q s = ok (nimAckWrite (settled s) ring.val q.toNat).2 := congrArg ok (if_pos (by simp [hup, hchecks]))

/-- Settles O55: each clause is one branch of its command. What a request sees of a boundary of its instant (`settled`, log entry 152), the stamp
at which it is taken (`stampRequest`, log entry 170) and that each record is due again on its own push time (log entry 112) are the model's
choices. -/
theorem frontCommands : Obligations.FrontCommands := by
  unfold Obligations.FrontCommands
  refine ⟨?i3c, ?udp, ?write, ?kxpid, ?read, ?ccc, ?ibi, ?ack, ?retransmit, ?telemetry⟩
  case i3c =>
    exact fun s hub pdu c hc hcarries hup haddr hfree => (exec_axbel_i3c hc hcarries).trans (congrArg ok (arriveRequest_i3c_serves hup haddr hfree))
  case udp =>
    exact fun s hub addr port dport bytes hcarries hup hport =>
      ⟨fun hclosed => (exec_axbelRead hcarries).trans (congrArg ok (arriveRequest_udp_discards hup hport hclosed)),
        fun slot ctr pdu hopen hfree => (exec_axbelRead hcarries).trans (congrArg ok (arriveRequest_udp_serves hup hport hopen hfree))⟩
  case write => exact fun s hub i sub r v hrow hup hchecks hkeys => congrArg ok (registerEntry_writes hrow hup hchecks hkeys)
  case kxpid =>
    exact fun s core priv v hup => ⟨fun hpriv => ⟨congrArg ok (accessKxpid_answers false hup hpriv), congrArg ok (accessKxpid_answers true hup hpriv)⟩,
      fun hpriv w => congrArg ok (accessKxpid_traps w hup hpriv)⟩
  case read => exact fun s hub maxlen x u rest hup haddr hsession hunread => congrArg ok (privateRead_reads hup haddr hsession hunread)
  case ccc =>
    intro s hub hup b
    have hrun (c : Ccc) (hreach : cccDirect c = true → addressed s hub.val = true) : exec (.i3cCcc hub c) s = .next (cccRun b hub.val c) :=
      congrArg ok (cccArrive_runs hup hreach)
    exact ⟨hrun, fun a hnew => (hrun (.entdaa a) nofun).trans (congrArg ok (if_pos hnew)), hrun .rstdaa nofun,
      fun haddr => ⟨hrun .getpid fun _ => haddr, fun n => hrun (.setmwl n) nofun⟩⟩
  case ibi =>
    exact fun s hub i rest hqueue hup hrec haddr hevents hplain => congrArg ok (raiseQueued_delivers hqueue hup hrec haddr hevents hplain)
  case ack => exact fun s hub ring q hup hchecks => execNimAck_acknowledges hup hchecks
  case retransmit =>
    intro s hub hup g due
    have hruns : ¬ (!(meridianUp s hub.val)) = true := by simp [hup]
    exact congrArg ok (if_neg hruns)
  case telemetry =>
    intro s p howed hup hpower
    have hsamples : ¬ (!(telemetryOwed s) || hubDown s 0 || s.dev.st = .off) = true := by simp [howed, hup, hpower]
    exact congrArg ok (if_neg hsamples)

end Sys2Proof.Machine
end

section
/-! PROOFS. Stacked DRAM: a line that is written (R280, R306), the decode of an offset (R279), and the activate-count table of a bank (R287). -/

namespace Sys2Proof.Machine

variable {s : State}

/-! ## A line that is written (R280, R306) -/

theorem markDirty_marks (o : Nat) : ∃ d, markDirty s o = { s with mem := { s.mem with dirty := d } } := by
  unfold markDirty
  split
  · exact ⟨_, rfl⟩
  · exact ⟨s.mem.dirty, rfl⟩

/-- What accepting a write leaves behind it is in the dirty bits and the scrubbers alone. -/
theorem accepted_marks (o : Nat) : ∃ d x, accepted s o = { s with mem := { s.mem with dirty := d, scrubs := x } } := by
  unfold accepted
  extract_lets n x
  split
  · obtain ⟨d, hd⟩ := markDirty_marks (s := { s with mem := { s.mem with scrubs := tput s.mem.scrubs n { x with wb := x.wb.filter (· != o / 64) } } }) o
    exact ⟨d, _, hd⟩
  · obtain ⟨d, hd⟩ := markDirty_marks (s := s) o
    exact ⟨d, s.mem.scrubs, hd⟩

/-- Where a write of a line changes the stores: the bytes under its mask, the line's poison, and marks. -/
theorem dramLine_stores (o : Nat) (data : List Byte) (m : Option Nat) (bad : Bool) : ∃ d x, dramLine s o data m bad = { s with mem := { s.mem with
    dram := mwritem s.mem.dram (64 * (o / 64)) (m.getD (2 ^ 64 - 1)) data, dirty := d, scrubs := x,
    dramPoison := tset s.mem.dramPoison (o / 64) (bad || (m.isSome && dramBad s o)) false } } :=
  accepted_marks o

/-- A write without a mask selects every byte of its line. -/
theorem getD_allOnes_testBit (m : Option Nat) {i : Nat} (hi : i < 64) : (m.getD (2 ^ 64 - 1)).testBit i = m.all fun b => nbit b i := by
  cases m with
  | none => exact (Nat.testBit_two_pow_sub_one 64 i).trans (decide_eq_true hi)
  | some b => rfl

/-- Settles O34: `dramLine_stores` says where the write goes, and `mread_mwritem` what each byte then reads as. -/
theorem lineWriteChangesOnlyItsBytes : Obligations.LineWriteChangesOnlyItsBytes := by
  unfold Obligations.LineWriteChangesOnlyItsBytes
  intro s o m data bad hlen t
  obtain ⟨d, x, ht⟩ : ∃ d x, t = _ := dramLine_stores o data m bad
  rw [ht]
  refine ⟨fun i hi => ?selected, fun a ha => ?other, ?poison, rfl, rfl⟩
  case selected =>
    have hbyte := mread_mwritem s.mem.dram (64 * (o / 64)) (64 * (o / 64) + i) (m.getD (2 ^ 64 - 1)) data
    rw [Nat.add_sub_cancel_left, getD_allOnes_testBit m hi] at hbyte
    simpa [hlen, hi] using hbyte
  case other => exact (mread_mwritem ..).trans (if_neg (by omega))
  case poison => simp [dramBad, tget_tset]

/-! ## The decode of an offset (R279) -/

theorem nbits_eq (n lo len : Nat) : nbits n lo len = n / 2 ^ lo % 2 ^ len := by
  rw [nbits, Nat.shiftRight_eq_div_pow]

/-- A field below bit `w` is the same in what is left of a number below that bit. -/
theorem field_mod_two_pow {o w lo len : Nat} (h : lo + len ≤ w) : o % 2 ^ w / 2 ^ lo % 2 ^ len = o / 2 ^ lo % 2 ^ len := by
  obtain ⟨r, rfl⟩ := Nat.exists_eq_add_of_le h
  rw [Nat.add_assoc, Nat.pow_add, Nat.mod_mul_right_div_self, Nat.mod_mod_of_dvd _ (Nat.pow_dvd_pow 2 (Nat.le_add_right len r))]

/-- Numbers that agree above a field and in it agree from the field on. -/
theorem div_eq_of_field {o p : Nat} (lo len : Nat) (habove : o / 2 ^ (lo + len) = p / 2 ^ (lo + len))
    (hfield : o / 2 ^ lo % 2 ^ len = p / 2 ^ lo % 2 ^ len) : o / 2 ^ lo = p / 2 ^ lo := by
  rw [Nat.pow_add, ← Nat.div_div_eq_div_mul, ← Nat.div_div_eq_div_mul] at habove
  rw [← Nat.div_add_mod (o / 2 ^ lo) (2 ^ len), habove, hfield, Nat.div_add_mod]

/-- Fields whose XORs with equal fields are equal are equal. -/
theorem eq_of_xor_eq {a b c d : Nat} (hcd : c = d) (h : a ^^^ c = b ^^^ d) : a = b := by
  have htwice : a ^^^ c ^^^ c = b ^^^ d ^^^ c := congrArg (· ^^^ c) h
  rwa [hcd, Nat.xor_assoc, Nat.xor_assoc, Nat.xor_self, Nat.xor_zero, Nat.xor_zero] at htwice

/-- Settles O36: a field of an offset is one of its place in the stack (`field_mod_two_pow`), and from the stack down to the byte each field that
agrees, the bank and the pseudo-channel once the row does, carries the agreement on (`div_eq_of_field`). -/
theorem dramAddressDecode : Obligations.DramAddressDecode := by
  unfold Obligations.DramAddressDecode
  simp only [stackOf, dramRow, dramBank, dramPc, nbits_eq]
  constructor
  case left =>
    intro o ho
    have hplace : o - o / 2 ^ 34 * 2 ^ 34 = o % 2 ^ 34 := by rw [Nat.mod_eq_sub_div_mul]
    have hrow : o % 2 ^ 34 / 2 ^ 20 = o / 2 ^ 20 % 2 ^ 14 := Nat.mod_mul_right_div_self o (2 ^ 20) (2 ^ 14)
    have hfield (lo : Nat) (h : lo + 5 ≤ 34) : o % 2 ^ 34 / 2 ^ lo % 32 = o / 2 ^ lo % 2 ^ 5 := field_mod_two_pow (len := 5) h
    rw [hplace, hfield 15 (by decide), hfield 25 (by decide), hfield 8 (by decide), hfield 20 (by decide), hrow]
    exact ⟨trivial, rfl, rfl, rfl⟩
  case right =>
    intro o p hstack hrow hbank hpc hcolumn hline hbyte
    have h20 : o / 2 ^ 20 = p / 2 ^ 20 := div_eq_of_field 20 14 hstack hrow
    have h25 : o / 2 ^ 25 = p / 2 ^ 25 := by omega
    have h15 : o / 2 ^ 15 = p / 2 ^ 15 := div_eq_of_field 15 5 h20 (eq_of_xor_eq (by rw [h25]) hbank)
    have h13 : o / 2 ^ 13 = p / 2 ^ 13 := div_eq_of_field 13 2 h15 hcolumn
    have h8 : o / 2 ^ 8 = p / 2 ^ 8 := div_eq_of_field 8 5 h13 (eq_of_xor_eq (by rw [h20]) hpc)
    have h6 : o / 2 ^ 6 = p / 2 ^ 6 := div_eq_of_field 6 2 h8 hline
    rw [← Nat.div_add_mod o (2 ^ 6), ← Nat.div_add_mod p (2 ^ 6), h6]
    exact congrArg _ hbyte

/-! ## The activate-count table (R287) -/

section Entries

variable {α : Type} {l : List α} {i : Nat} {x : α}

theorem lset_eq_set (l : List α) (i : Nat) (v : α) : lset l i v = l.set i v := by
  induction l generalizing i with
  | nil => rfl
  | cons y r ih =>
    cases i with
    | zero => rfl
    | succ i => exact congrArg (y :: ·) (ih i)

theorem lmod_eq_lset (h : l[i]? = some x) (g : α → α) : lmod l i g = lset l i (g x) := by
  induction l generalizing i with
  | nil => cases h
  | cons y r ih =>
    cases i with
    | zero => cases h; rfl
    | succ i => exact congrArg (y :: ·) (ih h)

theorem lset_lset (l : List α) (i : Nat) (v w : α) : lset (lset l i v) i w = lset l i w := by simp [lset_eq_set]

theorem lset_getElem?_same (h : l[i]? = some x) (v : α) : (lset l i v)[i]? = some v := by
  obtain ⟨hi, -⟩ := List.getElem?_eq_some_iff.1 h
  simp [lset_eq_set, hi]

theorem lset_self (h : l[i]? = some x) : lset l i x = l := by
  obtain ⟨hi, rfl⟩ := List.getElem?_eq_some_iff.1 h
  simp [lset_eq_set]

theorem lfind_of_tfind_none {t : Tab α} {k : Nat} (h : tfind t k = none) : lfind (fun p => p.1 == k) t = none := by
  induction t with
  | nil => rfl
  | cons p r ih =>
    obtain ⟨j, v⟩ := p
    rw [tfind_cons] at h
    by_cases hj : j = k
    · simp [hj] at h
    · simp [lfind, hj, ih (by simpa [hj] using h)]

theorem lfind_of_tfind_some {t : Tab α} {k : Nat} {v : α} (h : tfind t k = some v) :
    ∃ i, lfind (fun p => p.1 == k) t = some i ∧ t[i]? = some (k, v) := by
  induction t with
  | nil => cases h
  | cons p r ih =>
    obtain ⟨j, w⟩ := p
    rw [tfind_cons] at h
    by_cases hj : j = k
    · exact ⟨0, by simp [lfind, hj], by simp_all⟩
    · obtain ⟨i, hi, hr⟩ := ih (by simpa [hj] using h)
      exact ⟨i + 1, by simp [lfind, hj, hi], hr⟩

/-- The entry that a key is found at replaced changes what the table lists at that key, and nothing else. -/
theorem tfind_lset {t : Tab α} {k : Nat} (h : lfind (fun p => p.1 == k) t = some i) (v : α) (j : Nat) :
    tfind (lset t i (k, v)) j = if k = j then some v else tfind t j := by
  induction t generalizing i with
  | nil => cases h
  | cons p r ih =>
    obtain ⟨m, w⟩ := p
    by_cases hm : m = k
    · obtain rfl : 0 = i := by simpa [lfind, hm] using h
      subst hm
      change tfind ((m, v) :: r) j = _
      simp only [tfind_cons]
      split <;> rfl
    · obtain ⟨n, hn, rfl⟩ : ∃ n, lfind (fun p => p.1 == k) r = some n ∧ n + 1 = i := by simpa [lfind, hm] using h
      change tfind ((m, w) :: lset r n (k, v)) j = _
      simp only [tfind_cons, ih hn]
      by_cases hj : m = j
      · simp [hj, show ¬ k = j from fun hk => hm (hj.trans hk.symm)]
      · simp [hj]

end Entries

/-- The count that an entry is left with once its neighbours have been refreshed at the threshold `t`. -/
def countAfter (t c : Nat) : Nat := if t ≤ c then 0 else c

section Counts

variable {l : List (Nat × Nat)} {row t i c n : Nat} {p : Nat × Nat}

/-- An entry that reaches the threshold is refreshed and starts again at zero. -/
theorem threshold_keeps (h : l[i]? = some (row, c)) :
    (if t ≤ (lget l i (row, 0)).2 then (lmod l i fun p => (p.1, 0), true) else (l, false)) = (lset l i (row, countAfter t c), decide (t ≤ c)) := by
  have hc : lget l i (row, 0) = (row, c) := by rw [lget, h]; rfl
  rw [hc, lmod_eq_lset h]
  by_cases ht : t ≤ c
  · simp [ht, countAfter]
  · simp [ht, countAfter, lset_self h]

theorem actTable_held (hfind : lfind (fun p : Nat × Nat => p.1 == row) l = some i) (hi : l[i]? = some (row, n)) :
    actTable l row t = (lset l i (row, countAfter t (n + 1)), decide (t ≤ n + 1)) := by
  unfold actTable
  rw [hfind]
  simp only [lmod_eq_lset hi]
  rw [threshold_keeps (lset_getElem?_same hi _), lset_lset]

theorem actTable_empty (hnew : tfind l row = none) (hroom : l.length < 8) : actTable l row t = (l ++ [(row, countAfter t 1)], decide (t ≤ 1)) := by
  unfold actTable
  rw [lfind_of_tfind_none hnew]
  simp only [if_pos hroom]
  rw [threshold_keeps (c := 1) (by simp), lset_eq_set]
  simp

theorem actTable_replaced (hnew : tfind l row = none) (hfull : ¬ l.length < 8) (hleast : l[leastAct l]? = some p) :
    actTable l row t = (lset l (leastAct l) (row, countAfter t (p.2 + 1)), decide (t ≤ p.2 + 1)) := by
  unfold actTable
  rw [lfind_of_tfind_none hnew]
  simp only [if_neg hfull, lmod_eq_lset hleast]
  rw [threshold_keeps (lset_getElem?_same hleast _), lset_lset]

/-- Entry `i` of a table is `p`, and its count is the first of the least. -/
def FirstLeast (l : List (Nat × Nat)) (i : Nat) (p : Nat × Nat) : Prop :=
  l[i]? = some p ∧ (∀ q ∈ l, p.2 ≤ q.2) ∧ ∀ j < i, ∀ q, l[j]? = some q → p.2 < q.2

theorem firstLeast_append (h : FirstLeast l i p) (x : Nat × Nat) :
    if x.2 < p.2 then FirstLeast (l ++ [x]) l.length x else FirstLeast (l ++ [x]) i p := by
  obtain ⟨hi, hleast, hfirst⟩ := h
  obtain ⟨hlt, -⟩ := List.getElem?_eq_some_iff.1 hi
  split
  · next hx =>
    refine ⟨by simp, fun q hq => ?_, fun j hj q hq => ?_⟩
    · rcases List.mem_append.1 hq with hq | hq
      · exact Nat.le_trans (Nat.le_of_lt hx) (hleast q hq)
      · exact Nat.le_of_eq (congrArg Prod.snd (List.mem_singleton.1 hq).symm)
    · rw [List.getElem?_append_left hj] at hq
      exact Nat.lt_of_lt_of_le hx (hleast q (List.mem_of_getElem? hq))
  · next hx =>
    refine ⟨by rw [List.getElem?_append_left hlt, hi], fun q hq => ?_, fun j hj q hq => ?_⟩
    · rcases List.mem_append.1 hq with hq | hq
      · exact hleast q hq
      · rw [List.mem_singleton.1 hq]
        exact Nat.le_of_not_lt hx
    · rw [List.getElem?_append_left (Nat.lt_trans hj hlt)] at hq
      exact hfirst j hj q hq

/-- The search for the least count, from the first of the least in what it has passed. -/
theorem leastFold_firstLeast (rest : List (Nat × Nat)) (h : FirstLeast l i p) :
    ∃ j q, (rest.zipIdx l.length).foldl (fun best p => if p.1.2 < best.1 then (p.1.2, p.2) else best) (p.2, i) = (q.2, j) ∧
      FirstLeast (l ++ rest) j q := by
  induction rest generalizing l i p with
  | nil => exact ⟨i, p, rfl, by simpa using h⟩
  | cons x rest ih =>
    have hx := firstLeast_append h x
    rw [List.append_cons, List.zipIdx_cons, List.foldl_cons]
    have hlen : (l ++ [x]).length = l.length + 1 := by simp
    by_cases hlt : x.2 < p.2
    · rw [if_pos hlt] at hx
      simpa [hlt, hlen] using ih hx
    · rw [if_neg hlt] at hx
      simpa [hlt, hlen] using ih hx

theorem leastAct_firstLeast (h : l ≠ []) : ∃ p, FirstLeast l (leastAct l) p := by
  obtain ⟨x, rest, rfl⟩ := List.exists_cons_of_ne_nil h
  have hx : FirstLeast [x] 0 x := ⟨rfl, by simp, by simp⟩
  obtain ⟨j, q, hfold, hleast⟩ := leastFold_firstLeast rest hx
  have hj : leastAct (x :: rest) = j := by simpa [leastAct] using congrArg Prod.snd hfold
  exact ⟨q, hj ▸ hleast⟩

end Counts

/-- Settles O39: the row's own entry, an empty one or the first of the least (`leastAct_firstLeast`) takes the count, which the threshold clears. -/
theorem activateCountTable : Obligations.ActivateCountTable := by
  unfold Obligations.ActivateCountTable
  intro l row t hlen r kept
  refine ⟨fun n hn => ?held, fun hnew hroom => actTable_empty hnew hroom, fun hnew hfull => ?replaced⟩
  case held =>
    obtain ⟨i, hfind, hi⟩ := lfind_of_tfind_some hn
    have hr : r = (lset l i (row, kept (n + 1)), decide (t ≤ n + 1)) := actTable_held hfind hi
    rw [hr]
    exact ⟨rfl, by simp [tfind_lset hfind], fun k hk => (tfind_lset hfind _ k).trans (if_neg hk.symm)⟩
  case replaced =>
    obtain ⟨p, hi, hleast, hfirst⟩ := leastAct_firstLeast (l := l) (by rintro rfl; cases hfull)
    exact ⟨leastAct l, p, hi, hleast, hfirst, actTable_replaced hnew (by omega) hi⟩

end Sys2Proof.Machine
end

section
/-! PROOFS. The commands of the memory controllers: the request that is issued (R281, R282), banks, windows and panic inputs (R284-R293), and the cores'
accesses (R278, R469). -/

namespace Sys2Proof.Machine

variable {s : State}

/-! ## Requests that wait at the controllers (R280, R339, R469) -/

theorem pullIngress_idle (h : s.mem.ingress = []) : pullIngress s = s := by
  have hs : { s with mem := { s.mem with ingress := [] } } = s := by rw [← h]
  simp only [pullIngress, h, List.foldl_nil, hs]

theorem drainIn_idle (h : s.sense.inbuf = []) : drainIn s = s := by
  have hs : { s with sense := { s.sense with inbuf := [] } } = s := by rw [← h]
  simp only [drainIn, h, List.foldl_nil, hs]

theorem resumeGuest_idle (h : s.chord.fw.waiting = []) : resumeGuest s = s := by
  have hs : { s with chord := { s.chord with fw := { s.chord.fw with waiting := [] } } } = s := by rw [← h]
  simp only [resumeGuest, h, List.foldl_nil, hs]

theorem resumeCores_idle (h : s.mem.coreHeld = []) : resumeCores s = s := by
  have hs : { s with mem := { s.mem with coreHeld := [] } } = s := by rw [← h]
  simp only [resumeCores, h, List.foldl_nil, hs]

/-- Nothing is accepted where nothing waits. -/
theorem resumeAll_idle (hingress : s.mem.ingress = []) (hinbuf : s.sense.inbuf = []) (hguest : s.chord.fw.waiting = []) (hcores : s.mem.coreHeld = []) :
    resumeAll s = s := by
  rw [resumeAll, pullIngress_idle hingress, drainIn_idle hinbuf, resumeGuest_idle hguest, resumeCores_idle hcores]

/-! ## The request that is issued (R281, R282) -/

/-- What a state is beside its banks, its counts of issued lines and its host side. -/
def State.offBanks (s : State) : State := { s with mem := { s.mem with banks := [], counts := [] }, host := State.reset.host }

@[simp] theorem setBank_offBanks (k : Nat) (b : Bank) : (s.setBank k b).offBanks = s.offBanks := rfl

@[simp] theorem countLines_offBanks (n m k : Nat) : (countLines s n m k).offBanks = s.offBanks := rfl

@[simp] theorem activate_offBanks (k row : Nat) : (activate s k row).offBanks = s.offBanks := by
  unfold activate
  extract_lets b n t rfm s1 s2
  have hs2 : s2.offBanks = s.offBanks := by
    unfold s2
    split <;> rfl
  split <;> exact hs2

@[simp] theorem serve_offBanks (o : Nat) : (serve s o).offBanks = s.offBanks := by
  unfold serve
  extract_lets k b hit s1
  rw [setBank_offBanks]
  by_cases h : hit = true
  · simp [s1, h]
  · simp [s1, h]

@[simp] theorem afterServe_offBanks (k : Nat) : (afterServe s k).offBanks = s.offBanks := by
  unfold afterServe
  extract_lets b
  split
  · rfl
  · split <;> rfl

/-- An issue takes the request out of its queue; what else it changes is of banks and counters. -/
theorem issueAt_offBanks (n pc i : Nat) (r : QReq) : (issueAt s n pc i r).offBanks =
    (s.setQueue (32 * n + pc) ((s.queue (32 * n + pc)).take i ++ (s.queue (32 * n + pc)).drop (i + 1))).offBanks := by
  simp [issueAt]

theorem queue_setQueue (k j : Nat) (q : List QReq) : (s.setQueue k q).queue j = if k = j then q else s.queue j := tget_tset _ _ _ _ _

/-- A queue that is not empty has a request to issue, one that nothing of its source holds back. -/
theorem nextIssue_picks {q : List QReq} (s : State) (n : Nat) (hq : q ≠ []) :
    ∃ i r, nextIssue s n q = some i ∧ q[i]? = some r ∧ behind q i r = false := by
  have hpicked : ∀ i, nextIssue s n q = some i → ∃ r, q[i]? = some r ∧ behind q i r = false := by
    refine List.foldlRecOn (motive := fun best => ∀ i, best = some i → ∃ r, q[i]? = some r ∧ behind q i r = false) _ _ nofun ?_
    rintro best hbest ⟨r, j⟩ hmem i hi
    by_cases hbehind : behind q j r = true
    · exact hbest i (by simpa [hbehind] using hi)
    · have htaken : ∀ k, some j = some k → ∃ r, q[k]? = some r ∧ behind q k r = false := by
        rintro k ⟨⟩
        exact ⟨r, List.mem_zipIdx_iff_getElem?.1 hmem, by simpa using hbehind⟩
      rw [if_neg hbehind] at hi
      split at hi
      · exact htaken i hi
      · split at hi
        · exact htaken i hi
        · exact hbest i hi
  have hsome : (nextIssue s n q).isSome = true := by
    obtain ⟨x, rest, rfl⟩ := List.exists_cons_of_ne_nil hq
    refine List.foldlRecOn (motive := fun best : Option Nat => best.isSome = true) (rest.zipIdx 1) _ rfl ?_
    rintro best hbest ⟨r, j⟩ -
    obtain ⟨k, rfl⟩ := Option.isSome_iff_exists.1 hbest
    dsimp only
    split
    · rfl
    · split <;> rfl
  obtain ⟨i, hi⟩ := Option.isSome_iff_exists.1 hsome
  obtain ⟨r, hr⟩ := hpicked i hi
  exact ⟨i, r, hi, hr⟩

theorem memctlIssue_issues {n pc i : Nat} {r : QReq} (hurgent : refUrgent s n pc = false) (hnext : nextIssue s n (s.queue (32 * n + pc)) = some i)
    (hr : (s.queue (32 * n + pc))[i]? = some r) : memctlIssue s n pc = resumeAll (issueAt s n pc i r) := by
  unfold memctlIssue
  simp only [hurgent, Bool.false_eq_true, if_false, hnext, hr]

/-- Settles O38: the request is the one that `nextIssue_picks` names, and only banks and counters change with its queue (`issueAt_offBanks`). -/
theorem issueTakesOneRequest : Obligations.IssueTakesOneRequest := by
  unfold Obligations.IssueTakesOneRequest
  intro s n pc hingress hinbuf hguest hcores hurgent hq
  obtain ⟨i, r, hnext, hr, hbehind⟩ := nextIssue_picks s n.val hq
  have hoff := issueAt_offBanks (s := s) n.val pc.val i r
  have hidle : resumeAll (issueAt s n.val pc.val i r) = issueAt s n.val pc.val i r :=
    resumeAll_idle ((congrArg (·.mem.ingress) hoff).trans hingress) ((congrArg (·.sense.inbuf) hoff).trans hinbuf)
      ((congrArg (·.chord.fw.waiting) hoff).trans hguest) ((congrArg (·.mem.coreHeld) hoff).trans hcores)
  have hqueue (k : Nat) : (issueAt s n.val pc.val i r).queue k = _ := (congrArg (·.queue k) hoff).trans (queue_setQueue (s := s) _ k _)
  refine ⟨i, r, issueAt s n.val pc.val i r, congrArg ok ((memctlIssue_issues hurgent hnext hr).trans hidle), hr, hbehind, ?own, fun k hk => ?others,
    congrArg (·.mem.dram) hoff⟩
  case own => rw [hqueue, if_pos rfl, List.eraseIdx_eq_take_drop_succ]
  case others => rw [hqueue, if_neg hk.symm]

/-! ## Banks, windows and panic inputs (R284, R285, R288-R290, R293) -/

theorem actTableClear_clears {n pc bank : Nat}
    (hcycle : Nat.max (s.bank (bankNo n pc bank)).cleared (tget s.mem.trained n 0) + (if stackHot s n then 16000000 else 32000000) ≤ s.now) :
    let b := s.bank (bankNo n pc bank)
    actTableClear s n pc bank = s.setBank (bankNo n pc bank) { b with acts := [], before := b.acts, refreshes := 0, cleared := s.now } :=
  if_neg (Nat.not_lt.2 hcycle)

theorem rowIdleClose_closes {n pc bank : Nat} (hopen : (s.bank (bankNo n pc bank)).row ≠ none)
    (hidle : (s.bank (bankNo n pc bank)).last + 1000 ≤ s.now) :
    rowIdleClose s n pc bank = s.setBank (bankNo n pc bank) (closeRow (s.bank (bankNo n pc bank))) :=
  if_neg (by simp [hopen, hidle])

theorem regulatorWindow_opens (hinstant : s.now % 1024 = 0) (hpower : s.dev.st ≠ .off) (hnew : s.mem.window ≠ some (s.now / 1024)) :
    let t := takeBudgets (closeWindow s)
    regulatorWindow s = resumeAll { t with mem := { t.mem with window := some (s.now / 1024) } } :=
  if_neg (by simp [hinstant, hpower, hnew])

@[simp] theorem drainScan_panicIn (n j : Nat) : (drainScan s n).panicIn j = s.panicIn j := rfl

/-- What a panic input reports of its buffer changes no panic input. -/
@[simp] theorem panicReport_panicIn (i reported j : Nat) : (panicReport s i reported).panicIn j = s.panicIn j := by
  unfold panicReport
  split
  · exact drainScan_panicIn _ j
  · rfl

theorem panicEnter_enters {i reported : Nat} (hoff : (s.panicIn i).on = false) (hmark : pastMark (panicReport s i reported) i = true) :
    let u := panicReport s i reported
    panicEnter s i reported = (u.setPanic i { level := panicFill u i, on := true, since := u.now, told := false }).count32 0x3441 i 1 :=
  if_neg (by simp [hoff, hmark])

theorem panicExit_exits {i reported : Nat} (hon : (s.panicIn i).on = true) (hback : backTen (panicReport s i reported) i = true) :
    let p := s.panicIn i
    let u := panicReport s i reported
    panicExit s i reported = (u.setPanic i { p with level := panicFill u i, on := false }).count64 0x3442 i (u.now - p.since) := by
  unfold panicExit
  simp [hon, hback]

theorem panicSustained_reports {i : Nat} (hon : (s.panicIn i).on = true) (hnew : (s.panicIn i).told = false)
    (hlong : (s.panicIn i).since + 100000 ≤ s.now) :
    let seat := if i = 0 then 4 else 5
    panicSustained s i = nimWarn (dieFault (s.setPanic i { s.panicIn i with told := true }) 0x16 i seat) seat 0x0103
      (toBytes 1 i ++ toBytes 8 (s.now - (s.panicIn i).since)) :=
  if_neg (by simp [hon, hnew, hlong])

/-! ## The cores' accesses (R278, R469) -/

section Cores

variable {core a : Nat} {op : CoreOp}

theorem coreAt_outside {core : Fin 16} (hwindows : s.num 0x1400 0 + 0x4000000 ≤ a ∨ a < s.num 0x1400 0) :
    coreAt s core a op = coreAccess s core.val a op :=
  if_neg (by simp only [Bool.and_eq_true, decide_eq_true_eq]; omega)

/-- An access that its hub takes up: the die runs, the device has power, and it is of some bytes outside the core windows' place. -/
structure CoreRuns (s : State) (core a : Nat) (op : CoreOp) : Prop where
  up : s.dieUp (4 + core / 8) = true
  power : s.dev.st ≠ .off
  bytes : coreLen op ≠ 0
  place : a < 0xF000000000 ∨ 0xF004000000 ≤ a

variable (hruns : CoreRuns s core a op)
include hruns

theorem CoreRuns.taken : ¬ (!(s.dieUp (4 + core / 8)) || s.dev.st = .off || coreLen op = 0 || (0xF000000000 ≤ a && a < 0xF004000000)) = true := by
  obtain ⟨hup, hpower, hbytes, hplace⟩ := hruns
  simp [hup, hpower, hbytes]
  omega

theorem coreAccess_faults (hcut : coreReach s a (coreLen op) = false ∨ coreCut s core a (coreLen op) = true) :
    coreAccess s core a op = toGuest s (.coreFault core false) :=
  (if_neg hruns.taken).trans (if_pos (by rcases hcut with h | h <;> simp [h]))

variable (hreach : coreReach s a (coreLen op) = true) (hlinks : coreCut s core a (coreLen op) = false)
include hreach hlinks

theorem coreAccess_waits (hlines : coreLineList a (coreLen op) ≠ []) (hheld : ∃ c ∈ s.mem.coreHeld, c.1 = core) :
    coreAccess s core a op = { s with mem := { s.mem with coreHeld := s.mem.coreHeld ++ [(core, a, op, 0)] } } :=
  (if_neg hruns.taken).trans ((if_neg (by simp [hreach, hlinks])).trans (if_pos (by simpa [hlines] using hheld)))

theorem coreAccess_admits (hfree : coreLineList a (coreLen op) = [] ∨ ∀ c ∈ s.mem.coreHeld, c.1 ≠ core) :
    coreAccess s core a op = coreAdmit s core a op 0 := by
  have hnone : (!(coreLineList a (coreLen op)).isEmpty && s.mem.coreHeld.any fun c => c.1 == core) = false := by
    rcases hfree with h | h
    · simp [h]
    · have hother : (s.mem.coreHeld.any fun c => c.1 == core) = false := List.any_eq_false.2 fun c hc => by simp [h c hc]
      rw [hother, Bool.and_false]
  exact (if_neg hruns.taken).trans ((if_neg (by simp [hreach, hlinks])).trans (if_neg (by simp [hnone])))

end Cores

/-- Settles O37: the conditions of each command choose one branch of it. That a core's access over a link that is down takes an access fault (log
entry 136) and that a refresh lowers the activation count by the model's `Config.raaLimit` (log entry 82) are the model's choices. -/
theorem memoryCommands : Obligations.MemoryCommands := by
  unfold Obligations.MemoryCommands
  refine ⟨?issue, ?banks, ?window, ?panic, ?cores⟩
  case issue => exact fun s n pc i r hurgent hnext hr => congrArg ok (memctlIssue_issues hurgent hnext hr)
  case banks =>
    refine fun s n pc bank => ⟨fun hclocked => ?refresh, fun hcycle => congrArg ok (actTableClear_clears hcycle),
      fun hopen hidle => congrArg ok (rowIdleClose_closes hopen hidle)⟩
    exact congrArg ok (if_neg (by simp [hclocked]))
  case window => exact fun s hinstant hpower hnew => congrArg ok (regulatorWindow_opens hinstant hpower hnew)
  case panic =>
    refine fun s i reported => ⟨fun hoff hmark => congrArg ok (panicEnter_enters hoff hmark), fun hon hback => congrArg ok (panicExit_exits hon hback),
      fun hon hnew hlong => ?sustained⟩
    have hseat : (if i = 0 then 4 else 5) = if i.val = 0 then 4 else 5 :=
      ite_congr (propext Fin.ext_iff) (fun _ => rfl) fun _ => rfl
    rw [hseat]
    exact congrArg ok (panicSustained_reports hon hnew hlong)
  case cores =>
    intro s core a op hwindows hup hpower hbytes hplace
    have hruns : CoreRuns s core.val a op := ⟨hup, hpower, hbytes, hplace⟩
    have hexec : exec (.applicationCoreAccess core a op) s = ok (coreAccess s core.val a op) := congrArg ok (coreAt_outside hwindows)
    rw [hexec]
    exact ⟨fun hcut => congrArg ok (coreAccess_faults hruns hcut), fun hreach hlinks =>
      ⟨fun hlines hheld => congrArg ok (coreAccess_waits hruns hreach hlinks hlines hheld),
        fun hfree => congrArg ok (coreAccess_admits hruns hreach hlinks hfree)⟩⟩

end Sys2Proof.Machine
end

section
/-! PROOFS. Boot: dies, images, training and readiness (R322, R323, R335, R425-R427, R493-R496). -/

namespace Sys2Proof.Machine

variable {s : State}

/-! ## Dies, images and the hubs' exchange (R335, R493-R495) -/

/-- A die that may leave reset, and whose seat fuses pass, leaves it fresh, with its links to be trained; the checkers of a Knaxon die are tested. -/
theorem leaveReset_leaves {seat wrong : Nat} (hmay : mayLeave s seat = true)
    (hseat : seat < 6 → seatOk (if s.dev.st = .safe then setDevState s .boot else s) seat = true) :
    let s0 := if s.dev.st = .safe then setDevState s .boot else s
    let s1 := { s0 with dev := { s0.dev with
      pll := s0.dev.pll ||| seatPlls seat ||| 2 ^ 39, prst := if seat < 4 then lset s0.dev.prst seat false else s0.dev.prst,
      mrst := if seat < 4 then lset s0.dev.mrst seat false else s0.dev.mrst, grst := if seat = 6 then false else s0.dev.grst } }
    let s2 := dueLinks (if seat < 4 then freshPrism s1 seat else if seat < 6 then freshHub s1 (seat - 4) else s1) seat
    leaveReset s seat wrong = if seat < 6 then injected s2 seat wrong else s2 :=
  (if_neg (by simp [hmay])).trans (if_neg (by simpa using hseat))

theorem verifyFlash_verifies {hub : Nat} {shipped : List Byte} (hphase : (s.hubBoot hub).phase = 1) (hseats : ∀ k < 6, seatOk s k = true) :
    let img := (s.hubBoot hub).flash.getD shipped
    verifyFlash s hub shipped = if fwCheck s hub img = 0 then takeImage s hub img else bootStatus s hub (fwCheck s hub img) 0xE :=
  (if_neg fun h => h hphase).trans (if_neg (by simpa using hseats))

theorem imageExchange_levels (hwest : hasImage (s.hubBoot 0) = true) (heast : hasImage (s.hubBoot 1) = true)
    (hverified : (s.hubBoot 0).phase = 2 ∨ (s.hubBoot 1).phase = 2) (hlink : linkUp s 12 = true) (hsame : (s.hubBoot 0).image = (s.hubBoot 1).image) :
    let up (x : HubBoot) : HubBoot := { x with rollback := Nat.max (s.hubBoot 0).rollback (s.hubBoot 1).rollback, phase := if x.phase = 4 then 4 else 3 }
    imageExchange s = (s.modHub 0 up).modHub 1 up :=
  (if_neg (by rcases hverified with h | h <;> simp [hwest, heast, hlink, h])).trans (if_neg fun h => h hsame)

/-! ## Training (R276, R277, R312, R322, R323) -/

theorem stackTrained_trains {n lanes : Nat} {devId : List Byte} (hboot : s.dev.st = .boot) (hreset : lget s.dev.mrst n true = false)
    (hnew : nbit (s.num 0x3400 n) 0 = false) :
    let t := (repairStack (clearStack s n) n).setOcts 0x1041 n devId
    stackTrained s n true false lanes devId false =
      { t with mem := { t.mem with trained := tput t.mem.trained n s.now, banks := t.mem.banks.filter fun p => p.1 / 1024 != n } }.setNum 0x3400 n
        (lanes % 16 * 16 + 1) :=
  (if_neg (by simp [hboot, hreset, hnew])).trans (if_neg (by simp))

theorem linkTried_trains {l : Nat} {r : LinkTraining} {p : PeerId} (hr : r ≠ .failed) (hpeer : peerOk s l p = true) :
    let s1 := ((s.setLink l { up := true, due := false, window := 0, retries := 0 }).modDir l 0 fun _ => LinkDir.start).modDir l 1 fun _ => LinkDir.start
    linkTried s l r p =
      crcTest ((s1.setNum 0x5F10 l (Nat.min 0xFFFF (s.num 0x5F10 l + 1))).count64 0x5F11 l (linkModules l)) l (r == .wrongTest) :=
  (if_neg (by simp [hr, hpeer])).trans (if_pos (by simp [hr, hpeer]))

theorem linkTrained_tries {l : Nat} {r : LinkTraining} {p : PeerId} (hpower : s.dev.st ≠ .off) (hdown : linkUp s l = false)
    (hdue : (s.link l).due = true) (hfirst : inReset s (linkEnds l).1 = false) (hsecond : inReset s (linkEnds l).2 = false) :
    linkTrained s l r p = linkTried (s.setLink l { s.link l with due := false }) l r p := by
  have hready : ¬ (s.dev.st = .off || linkUp s l || !(s.link l).due || inReset s (linkEnds l).1 || inReset s (linkEnds l).2) = true := by
    simp [hpower, hdown, hdue, hfirst, hsecond]
  exact if_neg hready

/-! ## Ready (R425-R427) -/

theorem prismReady_restores {d : Nat} (hrestart : (s.scope d).st = 1) (hnew : (s.scope d).ready = false) (hhalf : (s.scope (4 + halfOf d)).st ≠ 1)
    (hreset : lget s.dev.prst d true = false) (htrip : tfind s.plant.trips d = none) (hdevice : restarting s .device = false)
    (hlinks : linksTried s [d] = true) : prismReady s d = setReady (restoreDie s d) d :=
  if_neg (by simp [hrestart, hnew, hhalf, hreset, htrip, hdevice, hlinks])

theorem deviceReady_configures (hboot : s.dev.st = .boot) (hwest : (s.hubBoot 0).phase = 3) (heast : (s.hubBoot 1).phase = 3)
    (hprst : ∀ b ∈ s.dev.prst, b = false) (hrstin : s.dev.rstin = false) (hstacks : ∀ n < 4, nbit (s.num 0x3400 n) 0 = true)
    (htrips : s.plant.trips = []) (hclocked : s.plant.gated = false) (hlinks : linksTried s [0, 1, 2, 3, 4, 5] = true) :
    let s1 := (s.modHub 0 fun x => { x with phase := 4 }).modHub 1 fun x => { x with phase := 4 }
    let s2 := { s1 with dev := { s1.dev with scopes := s1.dev.scopes.map scopeOut } }
    deviceReady s = setDevState (s2.setSec 0
      { st := .active, gen := 0, record := rootRecord, dirtyOn := false, drain := none, timedOut := false, resume := 0 }) .config := by
  have hout : s.dev.prst.any id = false := List.any_eq_false.2 fun b hb => by simp [hprst b hb]
  have htrained : ((List.range 4).all fun n => nbit (s.num 0x3400 n) 0) = true := List.all_eq_true.2 fun n hn => hstacks n (List.mem_range.1 hn)
  exact if_neg (by simp [hboot, hwest, heast, hout, hrstin, htrained, htrips, hclocked, hlinks])

/-- Settles O51: the conditions of each command choose one branch of it. That the device is in BOOT from the first die that
leaves reset (log entry 66), that the operand `wrong` judges its injections (log entry 73) and that a trained stack reads as memory that nothing has
written (log entry 2) are the model's choices. -/
theorem bootCommands : Obligations.BootCommands := by
  unfold Obligations.BootCommands
  refine ⟨?die, ?image, ?exchange, ?stack, ?link, ?prism, ?device⟩
  case die => exact fun s seat wrong hmay hseat => congrArg ok (leaveReset_leaves hmay hseat)
  case image => exact fun s hub shipped hphase hseats => congrArg ok (verifyFlash_verifies hphase hseats)
  case exchange => exact fun s hwest heast hverified hlink hsame => congrArg ok (imageExchange_levels hwest heast hverified hlink hsame)
  case stack => exact fun s n lanes devId hboot hreset hnew => congrArg ok (stackTrained_trains hboot hreset hnew)
  case link =>
    exact fun s l r p hr hpower hdown hdue hfirst hsecond hpeer =>
      congrArg ok ((linkTrained_tries hpower hdown hdue hfirst hsecond).trans (linkTried_trains hr hpeer))
  case prism =>
    exact fun s d hrestart hnew hhalf hreset htrip hdevice hlinks =>
      congrArg ok (prismReady_restores hrestart hnew hhalf hreset htrip hdevice hlinks)
  case device =>
    exact fun s hboot hwest heast hprst hrstin hstacks htrips hclocked hlinks =>
      congrArg ok (deviceReady_configures hboot hwest heast hprst hrstin hstacks htrips hclocked hlinks)

end Sys2Proof.Machine
end

section
/-! PROOFS. The block as a whole: a step and its front command, time that passes with nothing waiting (00, 95). -/

namespace Sys2Proof.Machine

variable {s t : State}

/-! ## The queue -/

theorem powerOn_pending (s : State) : (powerOn s).pending = s.pending := by
  unfold powerOn
  split <;> rfl

/-- No command reaches the queue: those of the power rail keep it by their own definitions, every other keeps it with the rest of `Calm`. -/
theorem exec_pending (c : Instr) (he : exec c s = .next t) : t.pending = s.pending := by
  by_cases hon : c = .pwrgdAssert
  · subst hon
    exact Host.Outcome.next.inj he ▸ powerOn_pending s
  by_cases hoff : c = .pwrgdDeassert
  · subst hoff
    obtain rfl : (if s.dev.pwrgd then unpowered s else s) = t := Host.Outcome.next.inj he
    split <;> rfl
  exact (exec_calm (q := false) c (.refl s) (settled_calm (.refl s)) (fun _ => tickBoundary_calm (.refl s)) hon hoff t he).pending

theorem step_withPending (c : Instr) (q : List Instr) (s : State) : step (s.withPending (c :: q)) = exec c (s.withPending q) := rfl

/-- Settles O3: the step runs its command on the queue's rest, which no command reaches. -/
theorem stepTakesOnlyTheFrontCommand : Obligations.StepTakesOnlyTheFrontCommand := by
  unfold Obligations.StepTakesOnlyTheFrontCommand
  intro c q s t he
  rw [step_withPending] at he
  exact exec_pending c he

/-! ## Every command answers -/

/-- Where it has a meaning, an extension word's meaning answers a next state (R57). -/
def AnswersOp (o : Option (Nat → State → Res)) : Prop := ∀ g ∈ o, ∀ (site : Nat) (s : State), ∃ t, g site s = .next t

theorem custom0_answers (w : Nat) : AnswersOp (custom0 w) := by
  dsimp only [custom0]
  repeat' split
  all_goals rintro g ⟨⟩
  all_goals exact fun _ _ => ⟨_, rfl⟩

theorem custom1_answers (w : Nat) : AnswersOp (custom1 w) := by
  dsimp only [custom1]
  repeat' split
  all_goals rintro g ⟨⟩
  all_goals exact fun _ _ => ⟨_, rfl⟩

theorem custom2_answers (w : Nat) : AnswersOp (custom2 w) := by
  dsimp only [custom2]
  repeat' split
  all_goals rintro g ⟨⟩
  all_goals exact fun _ _ => ⟨_, rfl⟩

theorem customOp_answers (w : Nat) : AnswersOp (customOp w) := by
  unfold customOp
  split
  · exact custom0_answers w
  · exact custom1_answers w
  · exact custom2_answers w
  · exact fun _ h => nomatch h

/-- The program of a site goes on: an instruction with a meaning answers by `customOp_answers`, every other way out of `sequencerRun` is a state. -/
theorem sequencerRun_answers (s : State) (site : Nat) : ∃ t, sequencerRun s site = .next t := by
  unfold sequencerRun
  extract_lets f
  split
  · exact ⟨_, rfl⟩
  split
  · exact ⟨_, rfl⟩
  split
  · exact ⟨_, rfl⟩
  split
  next g hg => exact customOp_answers _ g hg site s
  next =>
    repeat' split
    all_goals exact ⟨_, rfl⟩

/-- Settles O2: every arm of `exec` but the program's own answers by its definition. -/
theorem everyCommandGoesOn : Obligations.EveryCommandGoesOn := by
  unfold Obligations.EveryCommandGoesOn
  intro c s
  cases c with
  | sequencerInstruction site => exact sequencerRun_answers s site
  | _ => exact ⟨_, rfl⟩

/-! ## A step -/

theorem step_idle (h : s.pending = []) : step s = .next (idle s) := by simp [step, h]

theorem elapse_now (s : State) : (elapse s).now = s.now + 1 := (elapse_calm (q := false) s).now

/-- A nanosecond in which nothing waits to leave and nothing befalls the data. -/
theorem elapse_quiet (hu : Config.upset s.free = none) (hg : s.host.leaving = []) (hs : s.chord.fw.scanOut = [])
    (hl : ∀ p ∈ s.chord.dirs, p.2.buffer = []) : elapse s = { s with now := s.now + 1, free := s.free + 3 } := by
  obtain ⟨-, he⟩ | ⟨u, hsome, -⟩ := elapse_cases s
  · exact he.trans (nanosecond_quiet s hg hl hs)
  · exact nomatch hu.symm.trans hsome

/-- Settles O1: what passes with nothing waiting is `elapse`, and its parts find nothing to do where nothing waits to leave. -/
theorem stepRunsFrontCommand : Obligations.StepRunsFrontCommand := by
  unfold Obligations.StepRunsFrontCommand
  refine ⟨step_withPending, fun s hp hd => ⟨elapse s, ?_, elapse_now s, elapse_quiet⟩, fun s hp hd => ?_⟩
  · rw [step_idle hp, idle, if_neg hd]
  · rw [step_idle hp, idle, if_pos hd]

end Sys2Proof.Machine
end

section
/-! PROOFS. Axbel units: the width of a CRC (R313, R314) and the fields of a unit as they are read back (R450, R451). -/

namespace Sys2Proof.Machine

/-! ## The width of a CRC (R313, R314) -/

theorem crcShift_lt {poly w : Nat} (hpoly : poly < 2 ^ w) (n : Nat) {c : Nat} (hc : c < 2 ^ w) : crcShift poly n c < 2 ^ w := by
  induction n generalizing c with
  | zero => exact hc
  | succ n ih =>
    have hhalf : c / 2 < 2 ^ w := (Nat.div_le_self c 2).trans_lt hc
    refine ih ?_
    split
    · exact Nat.xor_lt_two_pow hhalf hpoly
    · exact hhalf

theorem crc_lt {ones poly w : Nat} (hw : 8 ≤ w) (hones : ones < 2 ^ w) (hpoly : poly < 2 ^ w) (bytes : List Byte) : crc ones poly bytes < 2 ^ w := by
  have hreg : bytes.foldl (fun c b => crcShift poly 8 (c ^^^ b.toNat)) ones < 2 ^ w := by
    refine List.foldlRecOn (motive := (· < 2 ^ w)) bytes _ hones fun c hc b _ => crcShift_lt hpoly 8 (Nat.xor_lt_two_pow hc ?_)
    exact b.isLt.trans_le (Nat.pow_le_pow_right (by decide) hw)
  exact Nat.xor_lt_two_pow hreg hones

theorem crc32c_lt (bytes : List Byte) : crc32c bytes < 256 ^ 4 := crc_lt (w := 32) (by decide) (by decide) (by decide) bytes

/-! ## Numbers in a run of bytes -/

/-- The number spelled at the end of what stands before it. -/
theorem leAt_append_toBytes {v n : Nat} (hv : v < 256 ^ n) (l r : List Byte) : leAt (l ++ (toBytes n v ++ r)) l.length n = v := by
  have htake : (toBytes n v ++ r).take n = toBytes n v := List.take_left' (toBytes_length n v)
  rw [leAt, List.drop_left, htake, ofBytes_toBytes, Nat.mod_eq_of_lt hv]

/-! ## The fields of a unit (R450, R451) -/

/-- The header of a unit. -/
def axHead (bits seq index sub status len : Nat) : List Byte :=
  toBytes 2 bits ++ toBytes 2 seq ++ toBytes 2 index ++ toBytes 1 sub ++ toBytes 1 0 ++ toBytes 2 len ++ toBytes 2 status

/-- The header of a unit and its payload: what its CRC covers. -/
def axBody (bits seq index sub status : Nat) (payload : List Byte) : List Byte := axHead bits seq index sub status payload.length ++ payload

section Unit

variable (bits seq index sub status : Nat) (payload : List Byte)

theorem axUnit_eq : axUnit bits seq index sub status payload =
    axBody bits seq index sub status payload ++ toBytes 4 (crc32c (axBody bits seq index sub status payload)) := rfl

theorem axBody_length : (axBody bits seq index sub status payload).length = 12 + payload.length := by simp [axBody, axHead]; omega

theorem axUnit_length : (axUnit bits seq index sub status payload).length = 16 + payload.length := by
  rw [axUnit_eq, List.length_append, axBody_length, toBytes_length]; omega

theorem axUnit_op : nbits (leAt (axUnit bits seq index sub status payload) 0 1) 0 4 = bits % 16 := by
  have hlow : leAt (axUnit bits seq index sub status payload) 0 1 = bits % 256 := by simp [axUnit, leAt, toBytes, ofBytes]
  rw [hlow, nbits, Nat.shiftRight_zero]
  omega

variable {bits seq index sub status payload}

theorem axUnit_seq (h : seq < 256 ^ 2) : leAt (axUnit bits seq index sub status payload) 2 2 = seq := by
  simpa [axUnit] using leAt_append_toBytes h (toBytes 2 bits) _

theorem axUnit_index (h : index < 256 ^ 2) : leAt (axUnit bits seq index sub status payload) 4 2 = index := by
  simpa [axUnit] using leAt_append_toBytes h (toBytes 2 bits ++ toBytes 2 seq) _

theorem axUnit_sub (h : sub < 256 ^ 1) : leAt (axUnit bits seq index sub status payload) 6 1 = sub := by
  simpa [axUnit] using leAt_append_toBytes h (toBytes 2 bits ++ toBytes 2 seq ++ toBytes 2 index) _

theorem axUnit_len (h : payload.length < 256 ^ 2) : leAt (axUnit bits seq index sub status payload) 8 2 = payload.length := by
  simpa [axUnit] using leAt_append_toBytes h (toBytes 2 bits ++ toBytes 2 seq ++ toBytes 2 index ++ toBytes 1 sub ++ toBytes 1 0) _

variable (bits seq index sub status payload)

theorem axUnit_payload : (request (axUnit bits seq index sub status payload)).payload = payload := by
  have hhead : (axHead bits seq index sub status payload.length).length = 12 := by simp [axHead]
  have hdrop : (axUnit bits seq index sub status payload).drop 12 = payload ++ toBytes 4 (crc32c (axBody bits seq index sub status payload)) := by
    rw [axUnit_eq, axBody, List.append_assoc]
    exact List.drop_left' hhead
  have hlen : 16 + payload.length - 16 = payload.length := by omega
  rw [request, hdrop, axUnit_length, hlen]
  exact List.take_left

theorem axUnit_covered : (axUnit bits seq index sub status payload).take (12 + payload.length) = axBody bits seq index sub status payload :=
  List.take_left' (axBody_length bits seq index sub status payload)

theorem axUnit_crc : leAt (axUnit bits seq index sub status payload) (12 + payload.length) 4 = crc32c (axBody bits seq index sub status payload) := by
  rw [← axBody_length bits seq index sub status payload]
  simpa [axUnit_eq] using leAt_append_toBytes (crc32c_lt (axBody bits seq index sub status payload)) (axBody bits seq index sub status payload) []

/-- The device's own units pass check 1 of R445. -/
theorem axUnit_framing (h : payload.length ≤ 1024) : framing (axUnit bits seq index sub status payload) = 0 := by
  have hlen : 16 + payload.length - 4 = 12 + payload.length := by omega
  have hfield : leAt (axUnit bits seq index sub status payload) 8 2 = payload.length := axUnit_len (by omega)
  unfold framing
  rw [axUnit_length, hlen, axUnit_covered, axUnit_crc, hfield]
  simp [h]

end Unit

/-- Settles O56: each field is read where its bytes were put, and the CRC covers what stands before it. -/
theorem axbelUnitRoundTrip : Obligations.AxbelUnitRoundTrip := by
  unfold Obligations.AxbelUnitRoundTrip
  intro bits seq index sub status payload _ hseq hindex hsub hlen
  exact ⟨axUnit_framing bits seq index sub status payload hlen, axUnit_op bits seq index sub status payload, axUnit_seq hseq, axUnit_index hindex,
    axUnit_sub hsub, axUnit_payload bits seq index sub status payload⟩

end Sys2Proof.Machine
end

section
/-! PROOFS. The assignment solver (R380, R381): the order of R381 on assignments, and the best of them row by row. -/

namespace Sys2Proof.Machine

open Sys2Proof.Safety

/-! ## The order of R381 -/

theorem colsLess_irrefl (l : List Nat) : colsLess l l = false := by
  induction l with
  | nil => rfl
  | cons x r ih => simp [colsLess, ih]

theorem colsLess_cons_iff (x y : Nat) (l r : List Nat) : colsLess (x :: l) (y :: r) = true ↔ x < y ∨ x = y ∧ colsLess l r = true := by
  rw [colsLess]
  split
  next h => simp [h]
  next h => simp [h]

theorem colsLess_trans {a b c : List Nat} (hab : colsLess a b = true) (hbc : colsLess b c = true) : colsLess a c = true := by
  induction a generalizing b c with
  | nil => exact hab
  | cons x r ih =>
    obtain - | ⟨y, r'⟩ := b
    · exact nomatch hab
    obtain - | ⟨z, r''⟩ := c
    · exact nomatch hbc
    simp only [colsLess_cons_iff] at hab hbc ⊢
    have hr := @ih r' r''
    grind

theorem colsLess_total {a b : List Nat} (hlen : a.length = b.length) (hne : a ≠ b) (hba : colsLess b a = false) : colsLess a b = true := by
  induction a generalizing b with
  | nil => exact absurd (List.length_eq_zero_iff.1 hlen.symm).symm hne
  | cons x r ih =>
    obtain - | ⟨y, r'⟩ := b
    · exact nomatch hlen
    have hr := @ih r'
    rw [← Bool.not_eq_true, colsLess_cons_iff] at hba
    rw [colsLess_cons_iff]
    grind

variable {a b c : Assignment}

theorem better_iff : a.better b = true ↔
    b.pairs < a.pairs ∨ a.pairs = b.pairs ∧ (a.cost < b.cost ∨ a.cost = b.cost ∧ colsLess a.cols b.cols = true) := by
  unfold Assignment.better
  split_ifs with hp hc
  · rw [decide_eq_true_eq]; omega
  · rw [decide_eq_true_eq]; omega
  · simp_all

theorem better_irrefl (a : Assignment) : a.better a = false := by simp [Assignment.better, colsLess_irrefl]

theorem better_trans (hab : a.better b = true) (hbc : b.better c = true) : a.better c = true := by
  rw [better_iff] at *
  have := @colsLess_trans a.cols b.cols c.cols
  grind

/-- Of two assignments of the same rows, one is preferred. -/
theorem better_total (hlen : a.cols.length = b.cols.length) (hne : a ≠ b) (hba : b.better a = false) : a.better b = true := by
  rw [← Bool.not_eq_true, better_iff] at hba
  rw [better_iff]
  have hcols : a.pairs = b.pairs → a.cost = b.cost → colsLess a.cols b.cols = true := fun hp hc =>
    colsLess_total hlen (fun he => hne (by cases a; cases b; simp_all)) (by grind)
  grind

/-! ## The first of the best -/

theorem bestOf_cons (d z : Assignment) (l : List Assignment) : bestOf d (z :: l) = bestOf (if z.better d then z else d) l := rfl

theorem bestOf_mem (d : Assignment) (l : List Assignment) : bestOf d l ∈ d :: l := by
  induction l generalizing d with
  | nil => exact .head _
  | cons z r ih =>
    rw [bestOf_cons]
    split
    · exact .tail _ (ih z)
    · exact List.mem_cons.2 ((List.mem_cons.1 (ih d)).imp_right (.tail _))

/-- What is not preferred to the first is not preferred to what is picked. -/
theorem bestOf_keeps {d y : Assignment} (l : List Assignment) (h : y.better d = false) : y.better (bestOf d l) = false := by
  induction l generalizing d with
  | nil => exact h
  | cons z r ih =>
    rw [bestOf_cons]
    split
    next hz => exact ih (Bool.eq_false_iff.2 fun hy => Bool.eq_false_iff.1 h (better_trans hy hz))
    next => exact ih h

theorem bestOf_best {d y : Assignment} {l : List Assignment} (h : y ∈ d :: l) : y.better (bestOf d l) = false := by
  induction l generalizing d with
  | nil => exact bestOf_keeps [] (List.mem_singleton.1 h ▸ better_irrefl y)
  | cons z r ih =>
    obtain rfl | h := List.mem_cons.1 h
    · exact bestOf_keeps _ (better_irrefl y)
    rw [bestOf_cons]
    obtain rfl | h := List.mem_cons.1 h
    · split
      next => exact bestOf_keeps r (better_irrefl y)
      next hy => exact bestOf_keeps r (Bool.eq_false_iff.2 hy)
    · exact ih (.tail _ h)

/-! ## Row by row -/

/-- The assignment of a row more, to which column `c` is given, 512 for none. -/
def give (row : List Nat) (c : Nat) (t : Assignment) : Assignment :=
  if c = 512 then { t with cols := 512 :: t.cols } else { pairs := t.pairs + 1, cost := t.cost + lget row c 0, cols := c :: t.cols }

/-- The columns that a row may be given, 512 for none. -/
def choices (row free : List Nat) : List Nat := 512 :: free.filter fun c => lget row c 0xFFFF != 0xFFFF

section Rows

variable {row free cols : List Nat} {rows : List (List Nat)} {c : Nat} {a b : Assignment}

theorem give_of_ne (h : c ≠ 512) : give row c a = { pairs := a.pairs + 1, cost := a.cost + lget row c 0, cols := c :: a.cols } := if_neg h

theorem give_cols : (give row c a).cols = c :: a.cols := by
  unfold give
  split
  next h => rw [h]
  next => rfl

theorem give_better : (give row c a).better (give row c b) = a.better b := by
  rw [Bool.eq_iff_iff, better_iff, better_iff, give_cols, give_cols, colsLess_cons_iff]
  unfold give
  split <;> simp

theorem worth_cons : worth (row :: rows) (c :: cols) = give row c (worth rows cols) := rfl

/-- The best assignment in which `row` is given column `c`, 512 for none. -/
def bestWith (row : List Nat) (rows : List (List Nat)) (free : List Nat) (c : Nat) : Assignment := give row c (assign rows (free.filter (· != c)))

theorem assign_cons (hfree : ∀ c ∈ free, c < 512) : assign (row :: rows) free =
    bestOf (bestWith row rows free 512) ((free.filter fun c => lget row c 0xFFFF != 0xFFFF).map (bestWith row rows free)) := by
  have hnone : free.filter (· != 512) = free := List.filter_eq_self.2 fun c hc => bne_iff_ne.2 (hfree c hc).ne
  unfold bestWith
  rw [List.map_congr_left fun c hc => give_of_ne (hfree c (List.mem_filter.1 hc).1).ne, hnone]
  rfl

theorem fitsRows_nil : fitsRows [] free cols ↔ cols = [] := by
  unfold fitsRows
  constructor
  · exact fun h => List.length_eq_zero_iff.1 h.1
  · rintro rfl
    simp

theorem mem_choices : c ∈ choices row free ↔ c = 512 ∨ c ∈ free ∧ lget row c 0xFFFF ≠ 0xFFFF := by simp [choices]

/-- Two columns given in the rest are not the one given to `row`, unless it is none. -/
theorem nodup_cons_given : ((c :: cols).filter (· != 512)).Nodup ↔ (c = 512 ∨ c ∉ cols) ∧ (cols.filter (· != 512)).Nodup := by
  by_cases h : c = 512
  · simp [h]
  · simp [h]

theorem fitsRows_cons (hfree : ∀ c ∈ free, c < 512) :
    fitsRows (row :: rows) free (c :: cols) ↔ c ∈ choices row free ∧ fitsRows rows (free.filter (· != c)) cols := by
  have hrow : (∀ i k, (c :: cols)[i]? = some k → k ≠ 512 → lget (lget (row :: rows) i []) k 0xFFFF ≠ 0xFFFF) ↔
      (c ≠ 512 → lget row c 0xFFFF ≠ 0xFFFF) ∧ ∀ i k, cols[i]? = some k → k ≠ 512 → lget (lget rows i []) k 0xFFFF ≠ 0xFFFF := by
    constructor
    · exact fun h => ⟨h 0 c rfl, fun i => h (i + 1)⟩
    · rintro ⟨h0, h⟩ (_ | i) k hk
      · exact Option.some.inj hk ▸ h0
      · exact h i k hk
  have hother : (∀ k ∈ cols, k = 512 ∨ k ∈ free.filter (· != c)) ↔ (∀ k ∈ cols, k = 512 ∨ k ∈ free) ∧ (c = 512 ∨ c ∉ cols) := by
    have hnone : 512 ∉ free := fun h => absurd (hfree 512 h) (Nat.lt_irrefl _)
    simp only [List.mem_filter, bne_iff_ne]
    grind
  unfold fitsRows
  rw [hrow, hother, nodup_cons_given, mem_choices, List.forall_mem_cons, List.length_cons, List.length_cons, Nat.succ_inj]
  tauto

end Rows

theorem fitsRows_length {rows : List (List Nat)} {free cols : List Nat} (h : fitsRows rows free cols) : cols.length = rows.length := h.1

theorem worth_cols {rows : List (List Nat)} {cols : List Nat} (h : cols.length = rows.length) : (worth rows cols).cols = cols := by
  induction rows generalizing cols with
  | nil => exact (List.length_eq_zero_iff.1 h).symm
  | cons row rest ih =>
    obtain - | ⟨c, cols⟩ := cols
    · exact nomatch h
    rw [worth_cons, give_cols, ih (Nat.succ.inj h)]

theorem filter_lt {free : List Nat} (hfree : ∀ c ∈ free, c < 512) (p : Nat → Bool) : ∀ c ∈ free.filter p, c < 512 :=
  fun c hc => hfree c (List.mem_filter.1 hc).1

/-- The solver's assignment gives its rows free columns that they allow, and is worth what it says. -/
theorem assign_fits (rows : List (List Nat)) {free : List Nat} (hfree : ∀ c ∈ free, c < 512) :
    fitsRows rows free (assign rows free).cols ∧ assign rows free = worth rows (assign rows free).cols := by
  induction rows generalizing free with
  | nil => exact ⟨fitsRows_nil.2 rfl, rfl⟩
  | cons row rest ih =>
    have hmem : assign (row :: rest) free ∈ (choices row free).map (bestWith row rest free) := assign_cons hfree ▸ bestOf_mem _ _
    obtain ⟨c, hc, hassign⟩ := List.mem_map.1 hmem
    obtain ⟨hfits, hworth⟩ := ih (filter_lt hfree (· != c))
    rw [← hassign, bestWith, give_cols, fitsRows_cons hfree, worth_cons, ← hworth]
    exact ⟨⟨hc, hfits⟩, rfl⟩

/-- No assignment that fits the rows is preferred to the solver's. -/
theorem assign_best {rows : List (List Nat)} {free cols : List Nat} (hfree : ∀ c ∈ free, c < 512) (hfits : fitsRows rows free cols) :
    (worth rows cols).better (assign rows free) = false := by
  induction rows generalizing free cols with
  | nil => rfl
  | cons row rest ih =>
    obtain - | ⟨c, cols⟩ := cols
    · exact nomatch fitsRows_length hfits
    obtain ⟨hc, hrest⟩ := (fitsRows_cons hfree).1 hfits
    have hchoice : (bestWith row rest free c).better (assign (row :: rest) free) = false := by
      rw [assign_cons hfree]
      exact bestOf_best (List.mem_map_of_mem (l := choices row free) hc)
    have hsame : (give row c (worth rest cols)).better (bestWith row rest free c) = false := give_better.trans (ih (filter_lt hfree _) hrest)
    have hlen : (bestWith row rest free c).cols.length = (give row c (worth rest cols)).cols.length := by
      rw [bestWith, give_cols, give_cols, worth_cols (fitsRows_length hrest), List.length_cons, List.length_cons,
        fitsRows_length (assign_fits rest (filter_lt hfree _)).1, fitsRows_length hrest]
    rw [worth_cons]
    by_cases he : bestWith row rest free c = give row c (worth rest cols)
    · exact he ▸ hchoice
    · exact Bool.eq_false_iff.2 fun hw => Bool.eq_false_iff.1 hchoice (better_trans (better_total hlen he hsame) hw)

/-- Settles O47: row by row, the best for each choice of a column, and the first of these by the order of R381. -/
theorem assignmentIsTheBest : Obligations.AssignmentIsTheBest := by
  unfold Obligations.AssignmentIsTheBest
  intro rows free cols _ hfree hfits hne
  obtain ⟨hown, hworth⟩ := assign_fits rows hfree
  have hcols : (worth rows cols).cols = cols := worth_cols (fitsRows_length hfits)
  refine ⟨hown, hworth, better_total ?_ (fun he => hne ?_) (assign_best hfree hfits)⟩
  · rw [hcols, fitsRows_length hfits, fitsRows_length hown]
  · rw [he, hcols]

end Sys2Proof.Machine
end

section
/-! PROOFS. The test port: the state machine of its TAPs and the order of the bits of a scan (R576). -/

namespace Sys2Proof.Machine

variable {s : State}

/-! ## The state machine -/

/-- An edge of `TCK` in a powered device changes the TAPs and the count of free values. -/
theorem tckEdge_steps (tms tdi : Bool) (hpower : s.dev.st ≠ .off) :
    ∃ taps : Taps, taps.st = s.plant.taps.st.next tms ∧ tckEdge s tms tdi = { s.takeFree 7 with plant := { s.plant with taps := taps } } := by
  unfold tckEdge
  rw [if_neg hpower]
  refine ⟨_, ?_, rfl⟩
  generalize s.plant.taps.st.next tms = st
  cases st <;> rfl

theorem five_high_reset (st : TapSt) : ((((st.next true).next true).next true).next true).next true = .reset := by
  cases st <;> rfl

/-- Settles O57: an edge changes only what `tckEdge_steps` names, and a low of 1 µs clears the TAPs. -/
theorem testPort : Obligations.TestPort := by
  unfold Obligations.TestPort
  refine ⟨fun s tms tdi hpower => ?_, five_high_reset, fun s lowNs hlow => congrArg ok (if_neg (Nat.not_lt.2 hlow))⟩
  obtain ⟨taps, hst, he⟩ := tckEdge_steps tms tdi hpower
  exact ⟨_, congrArg ok he, hst, rfl, rfl, rfl, rfl⟩

/-! ## The bits of a scan -/

theorem foldl_shiftIn {reg bits : List Bool} (h : bits.length ≤ reg.length) : bits.foldl shiftIn reg = reg.drop bits.length ++ bits := by
  induction bits generalizing reg with
  | nil => simp
  | cons b r ih =>
    obtain - | ⟨a, reg⟩ := reg
    · exact absurd h (Nat.not_succ_le_zero _)
    have hle : r.length ≤ reg.length := Nat.le_of_succ_le_succ h
    have hshift : shiftIn (a :: reg) b = reg ++ [b] := rfl
    rw [List.foldl_cons, hshift, ih (by simp; omega), List.drop_append_of_le_length hle, List.length_cons, List.drop_succ_cons, List.append_assoc]
    rfl

/-- Settles O58: a register that takes as many bits as it has keeps none of its own. -/
theorem dataScanHoldsItsBits : Obligations.DataScanHoldsItsBits := by
  unfold Obligations.DataScanHoldsItsBits
  intro reg bits h
  rw [foldl_shiftIn h.ge, List.drop_eq_nil_of_le h.le, List.nil_append]

end Sys2Proof.Machine
end

section
/-! PROOFS. Streams: the record of a frame that closes (R351, R352). -/

namespace Sys2Proof.Machine

variable {s : State}

/-! ## The record of the only closing frame (R351, R352) -/

section Recorded

variable {n : Nat} {f : Frame}

theorem recorded_current {i : Nat} (hold : f.old = false) (hraw : s.stream n / 2 = f.raw / 2) :
    (recorded s n i f).num 0x2101 n = (f.fseq + 1) % 2 ^ 64 := by
  unfold recorded
  rw [if_pos ⟨hold, hraw⟩, num_setNum_same]

theorem recorded_closing {i : Nat} : (recorded s n i f).sense.closing = s.sense.closing.eraseIdx i := by
  unfold recorded
  extract_lets o s1 s2
  split <;> rfl

theorem recorded_oct {i : Nat} : (recorded s n i f).host.oct = tput s.host.oct (0x2102 * 256 + n) (frameRecord n f true) := by
  unfold recorded
  dsimp only
  split
  · simp
  · simp

end Recorded

/-- Settles O44: with no notify object the frame's outcome is `recorded` alone (`frameFinal_records`). -/
theorem frameRecordIsPublishedOnce : Obligations.FrameRecordIsPublishedOnce := by
  unfold Obligations.FrameRecordIsPublishedOnce
  intro s n f hclosing hbuf hreach hroom hnone hold hraw
  have hrun : frameFinal s n = recorded s n 0 f :=
    (frameFinal_records (m := n) (by simp [hclosing]) (by simp [hclosing, lfind]) (by simp [hbuf]) hreach hroom (.inl hnone)).trans (if_pos (.inl hnone))
  refine ⟨recorded s n 0 f, congrArg ok hrun, ?_, ?_, recorded_current hold hraw, fun k hk => ?_⟩
  · rw [recorded_closing, hclosing]; rfl
  · rw [State.octs, recorded_oct, tget_tput_same]
  · rw [recorded_oct, tget_tput_ne _ _ _ (by omega)]

end Sys2Proof.Machine
end

section
/-! PROOFS. Direct writes of the dictionary (R444, R445), and the commands of streams: entries, frames, lines and transmission (R344-R360). -/

namespace Sys2Proof.Machine

open Sys2Proof.Safety

variable {s : State}

/-! ## Direct writes (R445) -/

/-- The state in which the status of a direct write has been answered. -/
def told (s : State) (i sub status : Nat) : State := { s with host := { s.host with out := s.host.out ++ [.entryStatus i sub status] } }

section DirectWrites

variable {hub : Fin 2} {i sub : Nat} {v : List Byte}

theorem directWrite_writes {r : EntryRow} (hrow : findRow i = some r) (hst : entryStatus s hub.val none true i sub = 0) :
    directWrite s hub i sub v = told (writeEntry s hub none r i sub v).2 i sub (writeEntry s hub none r i sub v).1 := by
  unfold directWrite told
  simp [hrow, hst]

theorem directWrite_refused {r : EntryRow} (hrow : findRow i = some r) (hst : entryStatus s hub.val none true i sub ≠ 0) :
    directWrite s hub i sub v = told s i sub (entryStatus s hub.val none true i sub) := by
  unfold directWrite told
  simp [hrow, hst]

end DirectWrites

theorem findRow_stream : ∃ r, findRow 0x2100 = some r := ⟨_, rfl⟩

theorem findRow_binding : ∃ r, findRow 0x2400 = some r := ⟨_, rfl⟩

theorem findRow_calibration : ∀ b : Fin 2, ∃ r, findRow (0x2408 + b.val) = some r
  | 0 => ⟨_, rfl⟩
  | 1 => ⟨_, rfl⟩

theorem findRow_gates : ∃ r, findRow 0x4C11 = some r := ⟨_, rfl⟩

/-! ## Stream entries (R344-R346) -/

section Entries

variable {hub : Fin 2} {n : Nat} {v : List Byte}

theorem writeEntry_stream (r : EntryRow) (hlen : v.length = 32) : writeEntry s hub none r 0x2100 n v = strWrite s n v := if_pos hlen

theorem strCheck_reserved {e : Nat} (h : (strCheck s n e).1 = 0) : strReserved e = false := by
  cases hres : strReserved e with
  | false => rfl
  | true =>
    have hshape : (decide (128 ≤ n) || !(strShape s e)) = true := by simp [strShape, hres]
    exact nomatch (congrArg Prod.fst (if_pos hshape)).symm.trans h

theorem strWrite_disabled (hn : n < 128) (hlen : v.length = 32) (hoff : strOn (s.stream n) = false) (hv : strOn (ofBytes v) = false)
    (hres : strReserved (ofBytes v) = false) : strWrite s n v = (0, s.setOcts 0x2100 n v) := by
  have hnot : ¬ (decide (v.length ≠ 32) || decide (128 ≤ n)) = true := by simp [hlen, hn]
  unfold strWrite
  rw [if_neg hnot, if_neg (by simp [hoff]), if_neg (by simp [hres]), if_neg (by simp [hv])]

theorem strWrite_enables (hn : n < 128) (hlen : v.length = 32) (hoff : strOn (s.stream n) = false) (hv : strOn (ofBytes v) = true)
    (hok : (strCheck s n (ofBytes v)).1 = 0) :
    let t := (s.setOcts 0x2100 n v).setNum 0x2101 n 0
    strWrite s n v = (0, { t with sense := { t.sense with
      ringPages := tput t.sense.ringPages n (pageOffsets (strCheck s n (ofBytes v)).2),
      closing := t.sense.closing.map fun p => if p.1 = n then (n, { p.2 with old := true }) else p } }) := by
  have hnot : ¬ (decide (v.length ≠ 32) || decide (128 ≤ n)) = true := by simp [hlen, hn]
  unfold strWrite
  rw [if_neg hnot, if_neg (by simp [hoff]), if_neg (by simp [strCheck_reserved hok]), if_pos hv]
  exact if_neg (by simp [hok])

theorem strEntryWrite_answers (hst : entryStatus s hub.val none true 0x2100 n = 0) (hlen : v.length = 32) :
    exec (.strEntryWrite hub n v) s = .next (told (strWrite s n v).2 0x2100 n (strWrite s n v).1) := by
  obtain ⟨r, hrow⟩ := findRow_stream
  rw [← writeEntry_stream r hlen]
  exact congrArg ok (directWrite_writes hrow hst)

end Entries

/-- A direct write names a row, and runs through `directWrite`. -/
theorem exec_directWrite_refused {hub b : Fin 2} {n : Nat} {v : List Byte} {c : Instr × Nat × Nat}
    (hc : c ∈ [(.strEntryWrite hub n v, 0x2100, n), (.fusBindWrite hub b v, 0x2400, b.val), (.calRecWrite hub b n v, 0x2408 + b.val, n)])
    (hst : entryStatus s hub.val none true c.2.1 c.2.2 ≠ 0) :
    exec c.1 s = .next (told s c.2.1 c.2.2 (entryStatus s hub.val none true c.2.1 c.2.2)) := by
  simp only [List.mem_cons, List.not_mem_nil, or_false] at hc
  obtain rfl | rfl | rfl := hc
  · obtain ⟨r, hrow⟩ := findRow_stream
    exact congrArg ok (directWrite_refused hrow hst)
  · obtain ⟨r, hrow⟩ := findRow_binding
    exact congrArg ok (directWrite_refused hrow hst)
  · obtain ⟨r, hrow⟩ := findRow_calibration b
    exact congrArg ok (directWrite_refused hrow hst)

theorem strSet_writes {h i : Nat} {x : Slot} (hs : started s h 0xB0 i x) (hroot : x.sector = 0) :
    let w := strWrite s (fld x.body 0 7) (slice x.input 0 32)
    strSet s h = done w.2 i w.1 0 :=
  (runCmd_started hs).trans (if_neg (not_not.2 hroot))

/-! ## Frames and lines (R342, R348-R352) -/

section Frames

variable {port vc : Nat}

theorem portUp_not_refused (hup : portUp s port = true) : ¬ (!(portUp s port)) = true := by simp [hup]

theorem frameStart_starts {fnum : Nat} (hup : portUp s port = true) :
    frameStart s port vc fnum = (onChannel s port vc).foldl (fun a n => startFrame a n fnum) s := if_neg (portUp_not_refused hup)

theorem frameEnd_ends (hup : portUp s port = true) :
    let s1 := (onChannel s port vc).foldl expireFrame s
    let es := (onChannel s1 port vc).filter fun n => (tfind s1.sense.frames n).isSome
    frameEnd s port vc = if es.isEmpty then s1.count64 0x2012 port 1 else es.foldl (fun a n => closeFrame a n 0 s.now) s1 :=
  if_neg (portUp_not_refused hup)

theorem expireFrame_closes {n : Nat} {f : Frame} (hopen : tfind s.sense.frames n = some f) (htimed : strTmo f.raw ≠ 0)
    (hlate : f.tfs + strTmo f.raw ≤ s.now) :
    expireFrame s n = closeFrame s n flagTmo (f.tfs + strTmo f.raw) := by
  simp [expireFrame, hopen, htimed, hlate]

theorem longPacket_takes {p : LongPacket} {n : Nat} {f : Frame} (hup : portUp s port = true) (hhead : p.hdrOk = true) :
    let s1 := (onChannel s port p.vc).foldl expireFrame s
    (onChannel s1 port p.vc).find? (fun n => strDt (s1.stream n) == p.dt) = some n → tfind s1.sense.frames n = some f →
    longPacket s port p = takeLine s1 n f p := by
  intro s1 hfind hopen
  unfold longPacket
  rw [if_neg (portUp_not_refused hup)]
  refine (if_neg (by simp [hhead])).trans ?_
  rw [hfind]
  dsimp only
  rw [hopen]

theorem longPacket_badHeader {p : LongPacket} (hup : portUp s port = true) (hhead : p.hdrOk = false) :
    let s1 := (onChannel s port p.vc).foldl expireFrame s
    longPacket s port p = badHeader ((s1.sense.frames.map Prod.fst).foldl expireFrame s1) port :=
  (if_neg (portUp_not_refused hup)).trans (if_pos (by simp [hhead]))

end Frames

/-! ## Transmission (R356-R358) -/

theorem txSend_sends {port h : Nat} {x : Slot} (hnext : nextTx s port = some (h, x)) (hon : nbit (txPort s port) 0 = true)
    (hup : s.dieUp (4 + port / 2) = true) (hheld : tornCmd s h 0xB2 = none) :
    txSend s port = done (txSent s port h x) (slotOf h) 0 0 := by
  simp [txSend, hnext, hon, hup, hheld]

/-- Settles O43: an accepted write reaches `strWrite`, a started row its effect (`runCmd_started`), and a port in use the rest of its command. That
line packets are counted is the model's choice (log entry 90). -/
theorem streamCommands : Obligations.StreamCommands := by
  unfold Obligations.StreamCommands
  refine ⟨?entry, ?refused, ?set, ?start, ?frameEnd, ?timeout, ?line, ?packet, ?header, ?tx, ?send⟩
  case entry =>
    intro s hub n v told' hst hn hlen hoff
    have hrun := strEntryWrite_answers hst hlen
    refine ⟨fun hv hres => ?_, fun hv hok => ?_⟩
    · rw [hrun, strWrite_disabled hn hlen hoff hv hres]
      rfl
    · rw [hrun, strWrite_enables hn hlen hoff hv hok]
      rfl
  case refused => exact fun s hub b n v c hc hst => exec_directWrite_refused hc hst
  case set => exact fun s h i x hs hroot => congrArg ok (strSet_writes hs hroot)
  case start => exact fun s port vc fnum hup => congrArg ok (frameStart_starts hup)
  case frameEnd => exact fun s port vc hup => congrArg ok (frameEnd_ends hup)
  case timeout => exact fun s n f hopen htimed hlate => congrArg ok (expireFrame_closes hopen htimed hlate)
  case line => exact fun s port vc hup => ⟨congrArg ok (if_pos hup), congrArg ok (if_pos hup)⟩
  case packet => exact fun s port p n f hup hhead hfind hopen => congrArg ok (longPacket_takes hup hhead hfind hopen)
  case header => exact fun s port p hup hhead => congrArg ok (longPacket_badHeader hup hhead)
  case tx => exact fun s h i x hs => congrArg ok (runCmd_started hs)
  case send => exact fun s port h x hnext hon hup hheld => congrArg ok (txSend_sends hnext hon hup hheld)

end Sys2Proof.Machine
end

section
/-! PROOFS. Stored-data protection: scrubbers, write-backs, spares, the lap limit and INT_PROBE (R303-R315). -/

namespace Sys2Proof.Machine

open Sys2Proof.Safety

variable {s : State}

section Scrubbing

variable {st : Store}

theorem scrubRead_reads {found : EccResult} {w line : Nat} (hruns : scrubs s st = true) (hline : scrubLine s st = some line) :
    scrubRead s st found w = scrubNext (scrubFound s st line w found) st line := by
  simp [scrubRead, hruns, hline]

/-- The write-backs that wait for the store of an address: of a Facet's local store, its own. -/
def writeBacks (s : State) : Store → List Nat
  | .localStore f => (s.facet f).wb
  | st => (s.scrub (storeKey st)).wb

theorem writeBack_leaves {a : Nat} :
    let k := storeKey st
    let s1 := s.setScrub k { s.scrub k with wb := (s.scrub k).wb.filter (· != a / 64) }
    (writeBacks s st).contains (a / 64) = true → writeBack s st a = match st with
      | .dram _ => afterServe (serve s1 a) (bankOf a)
      | .hubSram _ => s1
      | .localStore f => s.setFacet f { s.facet f with wb := (s.facet f).wb.filter (· != a / 64) } := by
  intro k s1 hlisted
  cases st with
  | dram n => exact if_pos hlisted
  | hubSram h => exact if_pos hlisted
  | localStore f => exact if_pos hlisted

theorem scrubLapLimit_tells (hopen : (s.scrub (storeKey st)).next ≠ 0) (hnew : (s.scrub (storeKey st)).told = false)
    (hlate : (s.scrub (storeKey st)).start + 1000000 * s.num 0x3809 (storeCode st).1 < s.now) :
    let k := storeKey st
    let c := storeCode st
    scrubLapLimit s st = nimWarn (s.setScrub k { s.scrub k with told := true }) (storeSeat st) 0x0101
      (toBytes 1 c.1 ++ toBytes 1 c.2 ++ toBytes 8 (s.now - (s.scrub k).start)) :=
  if_neg (by simp [hopen, hnew, hlate])

end Scrubbing

/-! ## Spares (R310-R312) -/

theorem remapCopy_dram {n : Fin 4} {a : Nat} (hqualified : (s.scrub (storeKey (.dram n))).qualify.contains (a / 64) = true)
    (hroom : (s.scrub (storeKey (.dram n))).remaps.length < 64) :
    let k := storeKey (.dram n)
    let x := s.scrub k
    remapCopy s (.dram n) a = pendRepair
      ((s.setScrub k { x with qualify := x.qualify.filter (· != a / 64), remaps := x.remaps ++ [a / 64] }).setNum 0x3803 n.val (x.remaps.length + 1))
      n.val (rowEntry (64 * (a / 64))) :=
  (if_neg (by rw [hqualified]; decide)).trans (if_neg (Nat.not_le.2 hroom))

theorem remapCopy_localStore {f a : Nat} (hqualified : (s.scrub (storeKey (.localStore f))).qualify.contains (a / 8) = true)
    (hroom : (s.scrub (storeKey (.localStore f))).remaps.length < 16) :
    let k := storeKey (.localStore f)
    let x := s.scrub k
    remapCopy s (.localStore f) a =
      lsCount (s.setScrub k { x with qualify := x.qualify.filter (· != a / 8), remaps := x.remaps ++ [a / 8] }) f 0 5 :=
  (if_neg (by rw [hqualified]; decide)).trans (if_neg (Nat.not_le.2 hroom))

/-- Settles O40: the conditions of each command choose one branch of it. -/
theorem integrityCommands : Obligations.IntegrityCommands := by
  unfold Obligations.IntegrityCommands
  refine ⟨?scrub, ?writeBack, ?stackSpare, ?localSpare, ?lap, ?probe⟩
  case scrub => exact fun s st found w line hruns hline => congrArg ok (scrubRead_reads hruns hline)
  case writeBack =>
    intro s st a k x s1 hlisted
    refine congrArg ok (writeBack_leaves ?_)
    cases st <;> exact hlisted
  case stackSpare => exact fun s n a hqualified hroom => congrArg ok (remapCopy_dram hqualified hroom)
  case localSpare => exact fun s f a hqualified hroom => congrArg ok (remapCopy_localStore hqualified hroom)
  case lap => exact fun s st hopen hnew hlate => congrArg ok (scrubLapLimit_tells hopen hnew hlate)
  case probe => exact fun s h i x hs => congrArg ok (runCmd_started hs)

end Sys2Proof.Machine
end

section
/-! PROOFS. The guest at the firewall: its requests, masks, responses and events (R326, R336-R341, R484). -/

namespace Sys2Proof.Machine

variable {s : State}

section Guest

/-- The firewall's answer to a request that fails check `c`: an acknowledgement for a write, an error for a read (R341). -/
theorem guestArrive_rejects {w : GuestWait} {masked : Bool} (hup : guestUp s = true) (hfails : guestCheck s w.line w.write masked ≠ 0) :
    guestArrive s w masked = toGuest (fwReject s (guestCheck s w.line w.write masked)) (if w.write then .guestAck w.line.tag else .guestErr w.line.tag 2) :=
  (if_neg (by simp [hup])).trans (if_pos hfails)

theorem guestArrive_admits {w : GuestWait} {masked : Bool} (hup : guestUp s = true) (hpasses : guestCheck s w.line w.write masked = 0)
    (hrate : rateOk s w.line = true) (hroom : guestRoom s w.line = true) : guestArrive s w masked = guestAdmit s w :=
  (if_neg (by simp [hup])).trans ((if_neg (not_not.2 hpasses)).trans (if_pos (by simp [hrate, hroom])))

/-- The state at which a guest's write looks for its checks: the masks kept for its seat are taken (R326, R341). -/
def masksTaken (s : State) (g : GuestLine) : State := (takeMask (takeMask s (guestMask g.sseat true)).2 (guestMask g.sseat false)).2

theorem guestUp_masksTaken (g : GuestLine) : guestUp (masksTaken s g) = guestUp s := rfl

variable {g : GuestLine} {ok : Bool}

theorem guestWrite_discarded (hup : guestUp s = true) (hbad : (takeMask s (guestMask g.sseat true)).1 ≠ none) :
    guestWrite s g ok = toGuest (masksTaken s g) (.guestAck g.tag) :=
  (if_neg (by simp [hup])).trans (if_pos (Option.isSome_iff_ne_none.2 hbad))

theorem guestWrite_arrives (hup : guestUp s = true) (hgood : (takeMask s (guestMask g.sseat true)).1 = none) :
    let m := (takeMask (takeMask s (guestMask g.sseat true)).2 (guestMask g.sseat false)).1
    guestWrite s g ok = guestArrive (masksTaken s g) { line := g, write := true, mask := m, found := .clean, tileOk := ok } m.isSome :=
  (if_neg (by simp [hup])).trans (if_neg (by simp [hgood]))

end Guest

/-! ## Masks, responses and events -/

section Headers

variable {m : ShortHdr} {bits : Nat}

theorem maskArrive_inner (hseat : m.sseat < 6) (hgen : m.gen = (s.sec m.sector).gen) : maskArrive s (.inner m) bits = keepMask s m.sseat bits :=
  if_neg (by simp [hseat, hgen])

theorem maskArrive_guest (hup : guestUp s = true) : maskArrive s (.guest m) bits =
    if guestHdr m then keepMask s (guestMask 6 false) bits else keepMask (fwReject s 1) (guestMask m.sseat true) bits :=
  if_neg (by simp [hup])

theorem exec_guestResponse {ok : Bool} {cause : Byte} {c : Instr} (hc : c ∈ [Instr.rret (.guest m) ok, .rderr (.guest m) cause, .wack (.guest m)]) :
    exec c s = .next (guestResponse s m) := by
  simp only [List.mem_cons, List.not_mem_nil, or_false] at hc
  obtain rfl | rfl | rfl := hc <;> rfl

/-- An event of the guest that passes its checks posts 1 at its object's unit. -/
theorem evtArrive_posts {line : Nat} (hup : guestUp s = true) (hhead : guestHdr m = true) (htype : nbit (s.num 0x4811 0) 5 = true)
    (hobject : s.num 0x4C30 line ≠ 0) (hroute : routeUp s 5 (refUnit (s.num 0x4C30 line)) = true)
    (href : refStatus s (s.vobj (refKey (s.num 0x4C30 line))).sector (s.num 0x4C30 line) = 0) :
    let r := s.num 0x4C30 line
    let u := refUnit r
    let key := 0xC80 + line
    let c := tget s.host.guestEvts (refKey r) 0
    let n := if c / 128 = s.tickNow then c % 128 else 0
    let t := unitTook { s with now := unitStamp s u key } u key
    let p := vtPostOn t (t.vobj (refKey r)).sector r 1
    n < 64 → p.1 = 0 → evtArrive s m line =
      { p.2 with now := s.now, host := { p.2.host with guestEvts := tput p.2.host.guestEvts (refKey r) (128 * s.tickNow + n + 1) } } := by
  intro r u key c n t p hfew hposted
  have hgo : ¬ (decide (r = 0) || decide (64 ≤ n)) = true := by simp [r, hobject, hfew]
  unfold evtArrive
  refine (if_neg (by simp [hup])).trans ((if_neg (by simp [hhead])).trans ((if_neg (by simp [htype])).trans ((if_neg hgo).trans
    ((if_neg (by simp [hroute])).trans ((if_neg (not_not.2 href)).trans ?_)))))
  exact congrArg (fun a : State => { a with now := s.now }) (if_neg (not_not.2 hposted))

end Headers

/-- Settles O35: the conditions of each command choose one branch of it. That an event posts at the stamp of its unit (log entry 29), and that a
forged mask is kept to discard its write and every response of the guest is rejected (log entry 85), are the model's choices. -/
theorem guestTraffic : Obligations.GuestTraffic := by
  unfold Obligations.GuestTraffic
  refine ⟨?read, ?write, ?mask, ?response, ?event⟩
  case read =>
    exact fun s g found hup => ⟨fun hfails => congrArg ok (guestArrive_rejects hup hfails),
      fun hpasses hrate hroom => congrArg ok (guestArrive_admits hup hpasses hrate hroom)⟩
  case write =>
    intro s g tileOk bad m c hup
    have hup' : guestUp m.2 = true := (guestUp_masksTaken g).trans hup
    refine ⟨fun hbad => congrArg ok (guestWrite_discarded hup hbad), fun hgood hfails => ?_, fun hgood hpasses hrate hroom => ?_⟩
    · exact congrArg ok ((guestWrite_arrives hup hgood).trans (guestArrive_rejects hup' hfails))
    · exact congrArg ok ((guestWrite_arrives hup hgood).trans (guestArrive_admits hup' hpasses hrate hroom))
  case mask =>
    exact fun s m bits => ⟨fun hseat hgen => congrArg ok (maskArrive_inner hseat hgen),
      fun hup hhead => congrArg ok ((maskArrive_guest hup).trans (if_pos hhead)),
      fun hup hhead => congrArg ok ((maskArrive_guest hup).trans (if_neg (Bool.eq_false_iff.1 hhead)))⟩
  case response => exact fun s m tileOk cause hup c hc => (exec_guestResponse hc).trans (congrArg ok (if_pos hup))
  case event =>
    intro s m line r u key c n t p hup hseat hsector hgen htype hobject hfew hroute href hposted
    have hhead : guestHdr m = true := by simp [guestHdr, hseat, hsector, hgen]
    exact congrArg ok (evtArrive_posts hup hhead htype hobject hroute href hfew hposted)

end Sys2Proof.Machine
end

section
/-! PROOFS. Fusion: bindings and calibration records, the Plane engine, the solver's command and the expiry of a sensor's report (R362-R381). -/

namespace Sys2Proof.Machine

open Sys2Proof.Safety

variable {s : State}

/-! ## Records taken by direct writes (R362-R366) -/

section Records

variable {hub b : Fin 2} {v : List Byte}

theorem fusWrite_binds {b : Nat} (hlen : v.length = 128) (hshape : bindShape (ofBytes v) = true)
    (hactive : (s.sec (bindSector (ofBytes v))).st = .active) :
    let areas := (bindAreas (ofBytes v)).map fun a => latchPages s (bindSector (ofBytes v)) a.1 a.2 true
    let s1 := s.setOcts 0x2400 b v
    (∀ a ∈ areas, a.isSome = true) → fusWrite s b v = (0, { s1 with sense := { s1.sense with
      fusPages := areas.zipIdx.foldl (fun t p => tput t (8 * b + p.2) (pageOffsets (p.1.getD []))) s1.sense.fusPages } }) := by
  intro areas s1 hareas
  have hlatched : areas.any (·.isNone) = false := List.any_eq_false.2 fun a ha => by simp [Option.isSome_iff_ne_none.1 (hareas a ha)]
  exact if_neg (by rw [hlatched]; simp [hlen, hshape, hactive])

theorem writeEntry_binding (r : EntryRow) (hlen : v.length = 128) : writeEntry s hub none r 0x2400 b.val v = fusWrite s b.val v := if_pos hlen

theorem fusBindWrite_answers (hst : entryStatus s hub.val none true 0x2400 b.val = 0) (hlen : v.length = 128) :
    exec (.fusBindWrite hub b v) s = .next (told (fusWrite s b.val v).2 0x2400 b.val (fusWrite s b.val v).1) := by
  obtain ⟨r, hrow⟩ := findRow_binding
  rw [← writeEntry_binding (hub := hub) r hlen]
  exact congrArg ok (directWrite_writes hrow hst)

theorem calWrite_calibrates {b i : Nat} (hlen : v.length = 64) (hi : i < 48) (hok : calOk (ofBytes v) = true) :
    let p := (List.range 10).map fun k => BitVec.ofNat 32 (nbits (ofBytes v) (32 * k) 32)
    calWrite s b i v = (0, (s.setOcts (0x2408 + b) i v).setSensor b i
      { lidar := nbit (ofBytes v) 320, p := p, ref := p, rot := rotOf p, cinv := false, out := 0 }) :=
  if_neg (by simp [hlen, hi, hok])

theorem writeEntry_calibration (r : EntryRow) {i : Nat} (hlen : v.length = 64) :
    writeEntry s hub none r (0x2408 + b.val) i v = calWrite s b.val i v :=
  match b with
  | 0 => if_pos hlen
  | 1 => if_pos hlen

theorem calRecWrite_answers {i : Nat} (hst : entryStatus s hub.val none true (0x2408 + b.val) i = 0) (hlen : v.length = 64) :
    exec (.calRecWrite hub b i v) s = .next (told (calWrite s b.val i v).2 (0x2408 + b.val) i (calWrite s b.val i v).1) := by
  obtain ⟨r, hrow⟩ := findRow_calibration b
  rw [← writeEntry_calibration (hub := hub) r hlen]
  exact congrArg ok (directWrite_writes hrow hst)

end Records

/-! ## Commands on clean input (R367-R371, R380) -/

section Commands

variable {h i : Nat} {x : Slot}

theorem peRun_completes {code : Nat} {voxel : Bool} {p : PeBuf} (hs : started s h code i x) (htake : peTake s x voxel = some p)
    (hclean : ∀ a ∈ peReads voxel x.body, pagedBad s x.pages a.1 a.2 = false) :
    peRun s h code voxel = done (peDone s x voxel p) i 0 (if (s.peBuf x.hub).start.isSome then 0 else 1) := by
  have hreads : ((peReads voxel x.body).any fun a => pagedBad s x.pages a.1 a.2) = false := List.any_eq_false.2 fun a ha => by simp [hclean a ha]
  unfold peRun
  rw [runCmd_started hs, htake]
  exact if_neg (by simp only [hreads]; decide)

theorem exec_plane {c : Instr × Nat × Bool} (hc : c ∈ [(Instr.peLift h, 0xA0, false), (.peVoxel h, 0xA1, true)]) :
    exec c.1 s = .next (peRun s h c.2.1 c.2.2) := by
  simp only [List.mem_cons, List.not_mem_nil, or_false] at hc
  obtain rfl | rfl := hc <;> rfl

theorem asSolve_completes (hs : started s h 0xA2 i x) (hclean : ∀ r ≤ fld x.body 0 9, pagedBad s x.pages (solveRow x r) (solveWidth x) = false) :
    asSolve s h = done (solveDone s x) i 0 (BitVec.ofNat 32 (solveOf s x).cost) := by
  have hrows : ((List.range (fld x.body 0 9 + 1)).any fun r => pagedBad s x.pages (solveRow x r) (solveWidth x)) = false :=
    List.any_eq_false.2 fun r hr => by simp [hclean r (Nat.le_of_lt_succ (List.mem_range.1 hr))]
  unfold asSolve
  rw [runCmd_started hs]
  exact if_neg (by simp only [hrows]; decide)

end Commands

theorem outExpiry_expires {b i : Nat} (hop : s.operating = true) (hboundary : s.atBoundary = true) (hnew : s.sched.closed * s.tickNs < s.now)
    (hi : i < 48) (hon : bindOn (s.binding b) = true) (hlast : (s.sensor b i).out = 1) :
    outExpiry s b i = s.setSensor b i { s.sensor b i with out := 0 } :=
  if_pos (by simp [hop, hboundary, hnew, hi, hon, hlast])

/-- Settles O46: an accepted write reaches its record's own check, and a started row its effect (`runCmd_started`). That a calibration record clears
the sensor's remaining out-time is the model's choice (log entry 94). -/
theorem fusionCommands : Obligations.FusionCommands := by
  unfold Obligations.FusionCommands
  refine ⟨?bind, ?calibrate, ?plane, ?solve, ?expiry⟩
  case bind =>
    intro s hub b v r areas hst hlen hshape hactive hareas s1
    rw [fusBindWrite_answers hst hlen, fusWrite_binds hlen hshape hactive hareas]
    rfl
  case calibrate =>
    intro s hub b i v r p hst hlen hi hok t
    rw [calRecWrite_answers hst hlen, calWrite_calibrates hlen hi hok]
    rfl
  case plane => exact fun s h i x p c hc hs htake hclean => (exec_plane hc).trans (congrArg ok (peRun_completes hs htake hclean))
  case solve => exact fun s h i x hs hclean => congrArg ok (asSolve_completes hs hclean)
  case expiry => exact fun s b i hop hboundary hnew hi hon hlast => congrArg ok (outExpiry_expires hop hboundary hnew hi hon hlast)

end Sys2Proof.Machine
end

section
/-! PROOFS. The Meridians: fault records, comparators and writes of two keys (R417-R428, R435, R448). -/

namespace Sys2Proof.Machine

variable {s : State}

/-! ## Records and comparators -/

theorem takeFault_taken {hub : Nat} {r : BitVec 512} (htaken : hasTaken s hub r = true) : takeFault s hub r = s :=
  if_pos (by simp [htaken])

theorem comparatorFault_restarts {hub : Fin 2} (hup : meridianUp s hub.val = true) :
    let a := restart s (.half hub)
    comparatorFault s hub.val = { a with dev := { a.dev with merFault := lset a.dev.merFault hub.val (some s.now) } } := by
  have hhalf : (⟨hub.val % 2, Nat.mod_lt _ (by decide)⟩ : Fin 2) = hub := Fin.ext (Nat.mod_eq_of_lt hub.isLt)
  unfold comparatorFault
  rw [if_neg (by simp [hup]), hhalf]

/-! ## Writes of two keys (R448) -/

section TwoKeys

variable {hub id : Nat} {w : TwoK}

theorem countersign_unsigned (hfind : s.host.twoK.find? (fun w => w.id == id) = some w) (hopen : w.pending = none)
    (hnew : (if hub = 0 then w.signW else w.signE) = none) (hup : meridianUp s hub = true) (htime : s.now ≤ w.stamp + 10000000)
    (hsigns : signs s hub = false) : countersign s hub id = failTwoK s w 0x0742 := by
  simp [countersign, hfind, hopen, hnew, hup, Nat.not_lt.2 htime, hsigns]

theorem countersign_signs (hfind : s.host.twoK.find? (fun w => w.id == id) = some w) (hopen : w.pending = none)
    (hnew : (if hub = 0 then w.signW else w.signE) = none) (hup : meridianUp s hub = true) (htime : s.now ≤ w.stamp + 10000000)
    (hsigns : signs s hub = true) :
    let w1 := if hub = 0 then { w with signW := some true } else { w with signE := some true }
    let s1 := { s with host := { s.host with twoK := s.host.twoK.map fun y => if y.id = id then w1 else y } }
    countersign s hub id = if w1.signW = some true && w1.signE = some true then makePending s1 w1 else s1 := by
  intro w1 s1
  have hlive : ¬ (w.pending.isSome || (if hub = 0 then w.signW else w.signE).isSome || !(meridianUp s hub)) = true := by simp [hopen, hnew, hup]
  unfold countersign
  rw [hfind]
  exact (if_neg hlive).trans ((if_neg (Nat.not_lt.2 htime)).trans (if_neg (by simp [hsigns])))

theorem countersignLate_fails (hfind : s.host.twoK.find? (fun w => w.id == id) = some w) (hopen : w.pending = none)
    (htime : w.stamp + 10000000 ≤ s.now) : countersignLate s id = failTwoK s w 9 := by
  simp [countersignLate, hfind, hopen, Nat.not_lt.2 htime]

theorem askTwoK_forwards {i v : Nat} (hst : entryStatus s hub none true i 0 = 0) (hvalue : twoKStatus s hub i v = 0) :
    askTwoK s hub i v = forwardTwoK s hub i 0 v none 0 := if_pos (by simp [hst, hvalue])

end TwoKeys

/-- A row of two keys asks for its write in the state that the boundary's own transitions leave (R446). -/
theorem exec_twoKeys {hub : Fin 2} {v : Byte} {c : Instr × Nat × Nat}
    (hc : c ∈ [(Instr.pxModeWrite hub v, 0x4000, v.toNat), (.devRequestOperational hub, 0x1101, 1), (.devRequestConfig hub, 0x1101, 2),
      (.bsSvnCommit hub v, 0x4806, v.toNat), (.bsKeyRevoke hub v, 0x4807, v.toNat)]) :
    exec c.1 s = .next (askTwoK (settled s) hub.val c.2.1 c.2.2) := by
  simp only [List.mem_cons, List.not_mem_nil, or_false] at hc
  obtain rfl | rfl | rfl | rfl | rfl := hc <;> rfl

/-- Settles O54: the conditions of each command choose one branch of it. -/
theorem meridianCommands : Obligations.MeridianCommands := by
  unfold Obligations.MeridianCommands
  refine ⟨?record, ?again, ?comparator, ?tick, ?sign, ?late, ?ask⟩
  case record =>
    exact fun s hub r _ _ => ⟨fun hroute => congrArg ok (if_pos hroute), fun hother hlink => congrArg ok (if_pos (by simp [hother, hlink]))⟩
  case again => exact fun s hub r htaken => congrArg ok ((congrArg (ite _ · s) (takeFault_taken htaken)).trans (ite_self s))
  case comparator => exact fun s hub hup => congrArg ok (comparatorFault_restarts hup)
  case tick => exact fun s hpower hlink => congrArg ok (if_neg (by simp [hpower, hlink]))
  case sign =>
    exact fun s hub id w hfind hopen hnew hup htime => ⟨fun hsigns => congrArg ok (countersign_unsigned hfind hopen hnew hup htime hsigns),
      fun hsigns => congrArg ok (countersign_signs hfind hopen hnew hup htime hsigns)⟩
  case late => exact fun s id w hfind hopen htime => congrArg ok (countersignLate_fails hfind hopen htime)
  case ask => exact fun s hub v c hc hst hvalue => (exec_twoKeys hc).trans (congrArg ok (askTwoK_forwards hst hvalue))

end Sys2Proof.Machine
end

section
/-! PROOFS. The gateway: time and gate lists, transmit queues, CAN controllers and bridges, received frames (R475-R483). -/

namespace Sys2Proof.Machine

variable {s : State}

/-! ## Gate lists (R475, R476) -/

section Gates

variable {hub : Fin 2} {n : Nat} {v : List Byte}

/-- A list that passes its check is empty, or as long as its header says. -/
theorem qbvOk_length (hok : qbvOk v = true) : v = [] ∨ 16 ≤ v.length ∧ v.length = 16 + 8 * leAt v 12 2 ∧ leAt v 12 2 ≤ 126 := by
  simp only [qbvOk, Bool.or_eq_true, Bool.and_eq_true, List.isEmpty_iff, decide_eq_true_eq, beq_iff_eq] at hok
  rcases hok with hempty | ⟨⟨⟨⟨⟨⟨hhead, _⟩, hcount⟩, hlen⟩, _⟩, _⟩, _⟩
  · exact .inl hempty
  · exact .inr ⟨hhead, hlen, hcount⟩

theorem qbvOk_fits (hok : qbvOk v = true) : v.length ≤ 1024 := by
  obtain rfl | ⟨_, hlen, hcount⟩ := qbvOk_length hok
  · exact Nat.zero_le _
  · omega

theorem qbvWrite_takes (hn : n < 12) (hok : qbvOk v = true) :
    let running := ((tfind s.host.gates n).map Prod.fst).getD []
    let next := if v.isEmpty then (([] : List Byte), none) else (running, some (v, qbvStart v (gptp s (n / 6) (s.now + 1000000))))
    let s1 := s.setOcts 0x4C11 n v
    qbvWrite s n v = (0, { s1 with host := { s1.host with gates := tput s1.host.gates n next } }) := by
  have hshape : ¬ (!(v.isEmpty || (decide (16 ≤ v.length) && v.length == 16 + 8 * leAt v 12 2))) = true := by
    obtain rfl | ⟨hhead, hlen, _⟩ := qbvOk_length hok
    · simp
    · simp [hhead, ← hlen]
  exact (if_neg hshape).trans (if_neg (by simp [hn, hok]))

theorem writeEntry_gates (r : EntryRow) (hfits : v.length ≤ 1024) : writeEntry s hub none r 0x4C11 n v = qbvWrite s n v := if_neg (Nat.not_lt.2 hfits)

/-- The hub that has port `n` of the gateway. -/
theorem portHub_val (n : Nat) : (if n < 6 then 0 else 1 : Fin 2).val = if n < 6 then 0 else 1 := by split <;> rfl

theorem gwQbvWrite_refused (hst : entryStatus s (if n < 6 then 0 else 1) none true 0x4C11 n ≠ 0) :
    exec (.gwQbvWrite n v) s = .next (told s 0x4C11 n (entryStatus s (if n < 6 then 0 else 1) none true 0x4C11 n)) := by
  obtain ⟨r, hrow⟩ := findRow_gates
  rw [← portHub_val] at hst ⊢
  exact congrArg ok (directWrite_refused hrow hst)

theorem gwQbvWrite_answers (hst : entryStatus s (if n < 6 then 0 else 1) none true 0x4C11 n = 0) (hfits : v.length ≤ 1024) :
    exec (.gwQbvWrite n v) s = .next (told (qbvWrite s n v).2 0x4C11 n (qbvWrite s n v).1) := by
  obtain ⟨r, hrow⟩ := findRow_gates
  rw [← portHub_val] at hst
  rw [← writeEntry_gates (hub := if n < 6 then 0 else 1) r hfits]
  exact congrArg ok (directWrite_writes hrow hst)

theorem gateSwitch_switches {start : Nat} {run l : List Byte} (hlists : tfind s.host.gates n = some (run, some (l, start)))
    (hstart : (start : Int) ≤ gptp s (n / 6) s.now) : gateSwitch s n = { s with host := { s.host with gates := tput s.host.gates n (l, none) } } := by
  simp [gateSwitch, hlists, hstart]

end Gates

/-! ## Transmit queues (R477, R478) -/

section Queues

variable {hub q i : Nat}

theorem txScan_sends (hup : hubUp s hub = true) (hon : queueOn s hub q = true) (hidle : tfind s.host.txBusy (8 * hub + q) = none)
    (howned : ownedFrom s hub q (tget s.host.txAt (8 * hub + q) 0) = some i) : txScan s hub q = txBegin s hub q i := by
  simp [txScan, hup, hon, hidle, howned]

theorem txComplete_completes {st : Nat} {bad : Bool} :
    let s0 := drainGates s
    let a := queueSlot s0 hub q i
    hubUp s0 hub = true → tfind s0.host.txBusy (8 * hub + q) = some (i, bad) → (∀ x ∈ s0.host.leaving, x.hub = hub → x.queue ≠ some q) →
    let s1 := sramWrite s0 hub (a + 16) (toBytes 8 s0.now ++ toBytes 8 (lowBits 64 (gptp s0 hub s0.now)) ++ toBytes 2 st)
    let s2 := if bad then sramWrite s1 hub (a + 1) (toBytes 1 (slotField s0 hub a 1 1 ||| 4)) else s1
    let s3 := sramWrite s2 hub a [0]
    txComplete s hub q st = { s3 with host := { s3.host with txBusy := tdel s3.host.txBusy (8 * hub + q) } } := by
  intro s0 a hup hbusy hleft s1 s2 s3
  have hgone : (s0.host.leaving.any fun x => x.hub == hub && x.queue == some q) = false :=
    List.any_eq_false.2 fun x hx => by simpa using hleft x hx
  unfold txComplete
  dsimp only
  rw [hbusy]
  exact if_neg (by rw [hgone, hup]; decide)

end Queues

/-! ## CAN and bridges (R479-R483) -/

section Can

variable {c i : Nat}

theorem canSend_sends (hon : canOn s c = true)
    (hfirst : (sortBy (fun i => slotField s (c / 6) (canSlot s c i) 4 4) ((List.range 32).filter (canReady s c))).head? = some i) :
    let s1 := sramWrite (sramWrite s (c / 6) (canSlot s c i + 14) (toBytes 2 0 ++ toBytes 8 s.now)) (c / 6) (canSlot s c i) [0]
    canSend s c = { s1 with host := { s1.host with out := s1.host.out ++ [.can c (canRead s c i)] } } := by
  unfold canSend
  dsimp only
  rw [hfirst]
  exact if_neg (by simp [hon])

theorem bridgeExpiry_sends {b : Nat} {p : Pdu} (hopen : tfind s.host.pdus b = some p) (hlate : p.opened + 1000 * leAt (bridgeCfg s b) 18 2 ≤ s.now) :
    bridgeExpiry s b = sendPdu s b := by
  simp [bridgeExpiry, hopen, Nat.not_lt.2 hlate]

theorem canReceive_stores {f : CanFrame} (hon : canOn s c = true) (hformat : canFormat f = true) :
    canReceive s c f = (List.range 32).foldl (fun a b => bridgeFrame a b c f) (canStore s c f) :=
  if_neg (by simp [hon, hformat])

end Can

/-! ## Received frames (R479, R483) -/

section Ethernet

variable {hub : Nat} {frame : List Byte}

variable (hup : hubUp s hub = true) (hlen : frame.length ≤ 9216)
include hup hlen

theorem ethReceive_dropped (hnone : (rxQueue s hub frame).1 = none) : ethReceive s hub frame = (rxQueue s hub frame).2 := by
  rcases hr : rxQueue s hub frame with ⟨_, t⟩
  obtain rfl := hr ▸ hnone
  simp [ethReceive, hup, Nat.not_lt.2 hlen, hr]

theorem ethReceive_stored {q : Nat} (hqueue : (rxQueue s hub frame).1 = some q) (hplain : bridged (rxQueue s hub frame).2 hub frame = none) :
    ethReceive s hub frame = ethStore (rxQueue s hub frame).2 hub q frame := by
  rcases hr : rxQueue s hub frame with ⟨_, t⟩
  obtain rfl := hr ▸ hqueue
  rw [hr] at hplain
  simp [ethReceive, hup, Nat.not_lt.2 hlen, hr, hplain]

theorem ethReceive_bridged {q b : Nat} {payload : List Byte} (hqueue : (rxQueue s hub frame).1 = some q)
    (hbridge : bridged (rxQueue s hub frame).2 hub frame = some (b, payload)) :
    ethReceive s hub frame = (acfMessages 256 payload).foldl (fun a m => bridgeIn a b m) (rxQueue s hub frame).2 := by
  rcases hr : rxQueue s hub frame with ⟨_, t⟩
  obtain rfl := hr ▸ hqueue
  rw [hr] at hbridge
  simp [ethReceive, hup, Nat.not_lt.2 hlen, hr, hbridge]

end Ethernet

theorem ethFrame_length (dest src : BitVec 48) (rest : List Byte) : (ethFrame dest src rest).length = 12 + rest.length := by
  simp [ethFrame, beBytes]
  omega

/-- Settles O48: the conditions of each command choose one branch of it. The error flag of a slot whose frame was not sent clean is the model's
choice (log entries 96 and 176). -/
theorem gatewayCommands : Obligations.GatewayCommands := by
  unfold Obligations.GatewayCommands
  refine ⟨?time, ?gates, ?switch, ?scan, ?sent, ?can, ?expiry, ?receive, ?frame⟩
  case time => exact fun s hub t0 ratio hup => congrArg ok (if_neg (by simp [hup]))
  case gates =>
    intro s n v st
    refine ⟨gwQbvWrite_refused, fun hst hn hok => ?_⟩
    rw [gwQbvWrite_answers hst (qbvOk_fits hok), qbvWrite_takes hn hok]
    rfl
  case switch => exact fun s n start run l hlists hstart => congrArg ok (gateSwitch_switches hlists hstart)
  case scan => exact fun s hub q i hup hon hidle howned => congrArg ok (txScan_sends hup hon hidle howned)
  case sent => exact fun s hub q i st bad hup hbusy hleft => congrArg ok (txComplete_completes hup hbusy hleft)
  case can => exact fun s c i hon hfirst => congrArg ok (canSend_sends hon hfirst)
  case expiry => exact fun s b p hopen hlate => congrArg ok (bridgeExpiry_sends hopen hlate)
  case receive => exact fun s c f hon hformat => congrArg ok (canReceive_stores hon hformat)
  case frame =>
    intro s hub dest src rest hup hrest frame r
    have hlen : frame.length ≤ 9216 := by
      rw [ethFrame_length]
      omega
    exact ⟨fun hnone => congrArg ok (ethReceive_dropped hup hlen hnone),
      fun q hqueue hplain => congrArg ok (ethReceive_stored hup hlen hqueue hplain),
      fun q b payload hqueue hbridge => congrArg ok (ethReceive_bridged hup hlen hqueue hbridge)⟩

end Sys2Proof.Machine
end

section
/-! PROOFS. Updates, attestation, key slots and recovery (R498-R508). -/

namespace Sys2Proof.Machine

open Sys2Proof.Safety

variable {s : State}

/-! ## Updates (R499, R500) -/

section Updates

variable {h i : Nat} {x : Slot}

theorem updVerify_judges (hs : started s h 0xE0 i x) (hclean : pagedBad s x.pages (fld x.body 320 64) (fld x.body 288 32) = false) :
    let img := updImage s x
    let st := updStatus s x.hub img
    let s1 := countPaged s x.pages (fld x.body 320 64) (fld x.body 288 32) 11 false
    updVerify s h = if st = 0 then done (s1.setOcts 0x4803 0 (fwIdentity img)) i 0 (BitVec.ofNat 32 (fwSvn img)) else done (s1.setOcts 0x4803 0 []) i st 0 :=
  (runCmd_started hs).trans (if_neg (by rw [hclean]; decide))

/-- An update that no hub is yet writing for, of the staged image, goes to the first hub that it names. -/
theorem updWrite_begins {readback : List (List Byte)} (hs : started s h 0xE1 i x) (hnew : updAt s (handleOf i x) = none)
    (hidle : updBusy s (fld x.body 0 2) (handleOf i x) = false) (hclean : pagedBad s x.pages (fld x.body 320 64) (fld x.body 288 32) = false)
    (hstaged : s.octs 0x4803 0 ≠ []) (hsame : fwIdentity (updImage s x) = s.octs 0x4803 0)
    (hlen : (updImage s x).length = fwClen (updImage s x) + 3309) :
    updWrite s h readback = updHubs (countPaged s x.pages (fld x.body 320 64) (fld x.body 288 32) 11 false) i x (updImage s x) readback
      (updNext (fld x.body 0 2) 0) := by
  unfold updWrite
  rw [runCmd_started hs, hnew]
  exact (if_neg (by rw [hidle]; decide)).trans ((if_neg (by rw [hclean]; decide)).trans
    ((if_neg (by simp [hstaged, hsame])).trans (if_neg (by simp [hlen]))))

end Updates

/-! ## Key slots (R505) -/

section Keys

variable {via : Option Nat} {n : Nat} {v : List Byte}

/-- A write of a key slot that the device state, the slot's number and the datagram's own slot allow. -/
structure KeyAllowed (s : State) (via : Option Nat) (n : Nat) : Prop where
  state : s.dev.st ∈ [DevState.config, .operational]
  slot : n < 15
  plane : ∀ k, via = some k → nbit (s.keySlot k).mask 2 = true

variable (hallowed : KeyAllowed s via n)
include hallowed

theorem KeyAllowed.keyWrite_eq : keyWrite s via n v =
    if v.isEmpty then (0, { s with plant := { s.plant with keys := tdel s.plant.keys n } })
    else if v.length ≠ 48 then (0x0005, s)
    else if leAt v 39 1 / 8 ≠ 0 || leAt v 40 8 ≠ 0 then (0x0921, s)
    else if (s.keySlot n).installed && leAt v 36 3 = (s.keySlot n).gen then (0x0921, s)
    else (0, s.setKeySlot n { installed := true, gen := leAt v 36 3, mask := leAt v 39 1, key := v.take 32, salt := (v.drop 32).take 4,
                              tx := 1, high := 0, seen := [] }) := by
  obtain ⟨hstate, hslot, hplane⟩ := hallowed
  unfold keyWrite
  refine (if_neg ?_).trans (if_neg ?_)
  · rcases List.mem_pair.1 hstate with h | h <;> simp [h]
  · cases via with
    | none => simp [hslot]
    | some k => simp [hslot, hplane k rfl]

theorem keyWrite_empties : (keyWrite s via n []).2 = { s with plant := { s.plant with keys := tdel s.plant.keys n } } := by
  rw [hallowed.keyWrite_eq]
  rfl

theorem keyWrite_installs (hlen : v.length = 48) (hmask : leAt v 39 1 < 8) (hzero : leAt v 40 8 = 0)
    (hnew : (s.keySlot n).installed = true → leAt v 36 3 ≠ (s.keySlot n).gen) :
    (keyWrite s via n v).2 = s.setKeySlot n
      { installed := true, gen := leAt v 36 3, mask := leAt v 39 1, key := v.take 32, salt := (v.drop 32).take 4, tx := 1, high := 0, seen := [] } := by
  have hsome : v ≠ [] := by
    rintro rfl
    exact nomatch hlen
  have hfields : ¬ (decide (leAt v 39 1 / 8 ≠ 0) || decide (leAt v 40 8 ≠ 0)) = true := by simp [Nat.div_eq_of_lt hmask, hzero]
  rw [hallowed.keyWrite_eq, if_neg (by simpa using hsome), if_neg (not_not.2 hlen), if_neg hfields, if_neg (by simpa using hnew)]

end Keys

/-! ## Recovery (R498) -/

section Recovery

variable {hub : Nat} (hrec : recovering s hub = true)
include hrec

theorem recData_takes {v : List Byte} (hsome : v.drop 8 ≠ []) (hlen : (v.drop 8).length ≤ 1016) (hfits : leAt v 0 8 + (v.drop 8).length ≤ 0x600000) :
    (recData s hub v).2 = (sramWrite s hub (0x01A00000 + leAt v 0 8) (v.drop 8)).modHub hub fun x =>
      { x with recovery := (v.drop 8).zipIdx.foldl (fun t p => tput t (leAt v 0 8 + p.2) p.1) x.recovery } := by
  have hdata : ¬ ((v.drop 8).isEmpty || decide (1016 < (v.drop 8).length)) = true := by
    rw [Bool.or_eq_true, List.isEmpty_iff, decide_eq_true_eq]
    exact not_or.2 ⟨hsome, Nat.not_lt.2 hlen⟩
  exact congrArg Prod.snd ((if_neg (by simp [hrec])).trans ((if_neg hdata).trans (if_neg (Nat.not_lt.2 hfits))))

theorem recVerify_judges : recVerify s hub =
    if fwCheck s hub (recImage s hub) = 0 then takeImage s hub (recImage s hub) else bootStatus s hub 0x0919 0xE :=
  if_neg (by simp [hrec])

theorem recFlash_judges {readback : List Byte} :
    let s1 := s.modHub hub fun x => { x with flash := some readback }
    recFlash s hub readback = if fwCheck s hub (recImage s hub) ≠ 0 then bootStatus s hub 0x0919 0xE
      else if fwCheck s1 hub readback = 0 then takeImage s1 hub readback else bootStatus s1 hub 0x0917 0xE :=
  if_neg (by simp [hrec])

end Recovery

/-- Settles O49: a started row runs its effect (`runCmd_started`), and the conditions of every other command let it through its checks. The
signature of a report (log entry 134) and the copies that a flash reads back (log entry 98) are the model's choices. -/
theorem securityCommands : Obligations.SecurityCommands := by
  unfold Obligations.SecurityCommands
  refine ⟨?verify, ?write, ?report, ?key, ?recovery⟩
  case verify => exact fun s h i x hs hclean => congrArg ok (updVerify_judges hs hclean)
  case write =>
    exact fun s h i x readback hs hnew hidle hclean hstaged hsame hlen => congrArg ok (updWrite_begins hs hnew hidle hclean hstaged hsame hlen)
  case report => exact fun s h i x hs => congrArg ok (runCmd_started hs)
  case key =>
    intro s hub via n v hstate hslot hplane
    have hallowed : KeyAllowed s via n := ⟨hstate, hslot, hplane⟩
    refine ⟨?_, fun hlen hmask hzero hnew => congrArg ok (keyWrite_installs hallowed hlen hmask hzero hnew)⟩
    rintro rfl
    exact congrArg ok (keyWrite_empties hallowed)
  case recovery =>
    exact fun s hub hrec => ⟨fun v hsome hlen hfits => congrArg ok (recData_takes hrec hsome hlen hfits), congrArg ok (recVerify_judges hrec),
      fun readback => congrArg ok (recFlash_judges hrec), congrArg ok (if_pos hrec)⟩

end Sys2Proof.Machine
end

section
/-! PROOFS. Power, rails, temperatures and trips (R513-R530). -/

namespace Sys2Proof.Machine

variable {s : State}

theorem periodDue_not_early {k ns : Nat} (hdue : periodDue s k ns = true) : ¬ (!(periodDue s k ns)) = true := by simp [hdue]

/-! ## Rails (R513-R515) -/

section Rails

theorem avsStep_steps {r : Nat} {up : Bool} (hdue : periodDue s (16 + r) 10000 = true) (hwants : wantsStep s r up = true) :
    avsStep s r up = periodTaken { s with plant := { s.plant with
      setpoint := lset s.plant.setpoint r (if up then lget s.plant.setpoint r 0 + 5 else lget s.plant.setpoint r 0 - 5) } } (16 + r) :=
  if_neg (by simp [hdue, hwants])

theorem railReadback_reads {r : Nat} {y : RailReading} (hdue : periodDue s (24 + r) 100000 = true) :
    let s1 := s.setNum 0x4400 r (y.mv % 65536 * 65536 + y.ma % 65536)
    let bad := if railGood (lget s.plant.setpoint r 0) (some y) then tdel (tdel s.plant.railBad r) (64 + r)
      else if (tfind s.plant.railBad r).isSome then s.plant.railBad else tput s.plant.railBad r s.now
    railReadback s r (some y) = periodTaken { s1 with plant := { s1.plant with railBad := bad } } (24 + r) :=
  if_neg (periodDue_not_early hdue)

theorem railOut_tells {r : Fin 8} {t : Nat} (hpower : s.dev.st ≠ .off) (hbad : tfind s.plant.railBad r.val = some t) (hlong : t + 1000000 ≤ s.now)
    (hnew : tfind s.plant.railBad (64 + r.val) = none) : railOut s (.avs r) =
      dieFault { s with plant := { s.plant with railBad := tput s.plant.railBad (64 + r.val) s.now } } 0x1A 0x06 (railSeat r.val) := by
  simp [railOut, hpower, hbad, Nat.not_lt.2 hlong, hnew]

end Rails

/-! ## Samples (R519, R523) -/

theorem powerSample_samples {split : List Nat} (hdue : periodDue s 0 100000 = true) :
    let s1 := [0, 1, 2, 3].foldl tellLimited ([0, 1, 2, 3, 4, 5].foldl limitDie (periodTaken ((List.range 7).foldl (takePower split) s) 0))
    powerSample s split = evalCoolant ((List.range 7).foldl (fun a d =>
      let r := ((diePower a d).recent).take 100
      a.setNum 0x4403 d (rneDiv (lsum id r) r.length)) s1) :=
  if_neg (periodDue_not_early hdue)

theorem tempConversion_converts {rs : List TempReading} (hdue : periodDue s 1 100000 = true) :
    let s1 := [0, 1, 2, 3].foldl slowStack ([0, 1, 2, 3, 4, 5].foldl slowHot (periodTaken (rs.foldl takeReading s) 1))
    tempConversion s rs =
      evalCoolant (noteCoolant (releaseTrips (((List.range 4).flatMap fun d => (List.range 72).map (128 * d + ·)).foldl updateCap s1))) :=
  if_neg (periodDue_not_early hdue)

/-! ## Sensors (R524, R525) -/

section Sensors

variable {k t : Nat}

theorem pairSuspect_marks (hdiffer : (s.spot k).differ = some t) (hnew : (s.spot k).suspect = false) (hlong : t + 100000000 ≤ s.now) :
    pairSuspect s k = nimWarn (s.setSpot k { s.spot k with suspect := true }) (spotSeat k) 0x0202 (spotBody k [(s.spot k).a, (s.spot k).b]) := by
  simp [pairSuspect, hdiffer, hnew, Nat.not_lt.2 hlong]

theorem pairClear_clears (hagree : (s.spot k).agree = some t) (hmarked : (s.spot k).suspect = true) (hlong : t + 10000000000 ≤ s.now) :
    pairClear s k = s.setSpot k { s.spot k with suspect := false } := by
  simp [pairClear, hagree, hmarked, Nat.not_lt.2 hlong]

theorem conversionTimeout_invalidates {second : Bool} (hpower : s.dev.st ≠ .off) (hk : k < 532) (htwo : second = true → twoSensors k = true)
    (hlong : (if second then (s.spot k).bAt else (s.spot k).aAt) + 1000000 ≤ s.now) :
    let x := s.spot k
    conversionTimeout s k second =
      checkHeat (checkPair (checkValid (s.setSpot k (if second then { x with bBad := true } else { x with aBad := true })) k x) k) k :=
  if_neg (by simpa [hpower, hk, hlong] using htwo)

end Sensors

/-! ## Trips (R528) -/

theorem trip_trips {k : Nat} (hpower : s.dev.st ≠ .off) (hk : k < 526) (hnew : tfind s.plant.trips (spotSeat k) = none) :
    trip s k = raiseFault { s with plant := { s.plant with trips := tput s.plant.trips (spotSeat k) s.now } } s.now
      (if spotSeat k < 4 then 0x01 else 0x02) 0x1A (spotSeat k) (spotSite k) 0x3F none :=
  if_neg (by simp [hpower, hk, hnew])

/-- A sensor of the die still reads 125 °C. -/
theorem thermtripCheck_asserts {seat t : Nat} {p : Nat × Spot} (htrip : tfind s.plant.trips seat = some t) (hlong : t + 10000000 ≤ s.now)
    (hp : p ∈ s.plant.spots) (hjunction : p.1 < 526) (hseat : spotSeat p.1 = seat) (hhot : 125 * 16 ≤ p.2.a ∨ 125 * 16 ≤ p.2.b) :
    thermtripCheck s seat = { s with dev := { s.dev with thermtrip := true } } := by
  have hany : (s.plant.spots.any fun p => decide (p.1 < 526) && spotSeat p.1 == seat && (decide (125 * 16 ≤ p.2.a) || decide (125 * 16 ≤ p.2.b))) = true :=
    List.any_eq_true.2 ⟨p, hp, by simpa [hjunction, hseat] using hhot⟩
  unfold thermtripCheck
  rw [htrip]
  exact if_neg (by simp only [hany]; simp [hlong])

/-- Settles O52: the conditions of each command choose one branch of it. How a die shares its half's rail (log entry 172) and how an average is
rounded (log entry 78) are the model's choices. -/
theorem powerAndThermalCommands : Obligations.PowerAndThermalCommands := by
  unfold Obligations.PowerAndThermalCommands
  refine ⟨?step, ?readback, ?rail, ?droop, ?power, ?temperature, ?suspect, ?clear, ?stale, ?trip, ?persists⟩
  case step => exact fun s r up hdue hwants => congrArg ok (avsStep_steps hdue hwants)
  case readback => exact fun s r y hdue => congrArg ok (railReadback_reads hdue)
  case rail => exact fun s r t hpower hbad hlong hnew => congrArg ok (railOut_tells hpower hbad hlong hnew)
  case droop => exact fun s f => ⟨rfl, rfl⟩
  case power => exact fun s split hdue => congrArg ok (powerSample_samples hdue)
  case temperature => exact fun s rs hdue => congrArg ok (tempConversion_converts hdue)
  case suspect => exact fun s k t hdiffer hnew hlong => congrArg ok (pairSuspect_marks hdiffer hnew hlong)
  case clear => exact fun s k t hagree hmarked hlong => congrArg ok (pairClear_clears hagree hmarked hlong)
  case stale => exact fun s k second hpower hk htwo hlong => congrArg ok (conversionTimeout_invalidates hpower hk htwo hlong)
  case trip => exact fun s k hpower hk hnew => congrArg ok (trip_trips hpower hk hnew)
  case persists =>
    exact fun s seat t p htrip hlong hp hjunction hseat hhot => congrArg ok (thermtripCheck_asserts htrip hlong hp hjunction hseat hhot)

end Sys2Proof.Machine
end

section
/-! PROOFS. The coolant loop (R534-R542). -/

namespace Sys2Proof.Machine

variable {s : State}

theorem tachPulse_times (hpower : s.dev.st ≠ .off) :
    let c := s.plant.coolant
    let iv := match c.lastPulse with
      | none => 0
      | some t => Nat.max 500000 (s.now - t)
    tachPulse s = evalCoolant { s with plant := { s.plant with coolant := { c with lastPulse := some s.now, interval := iv } } } :=
  if_neg hpower

theorem riseEval_evaluates {r : Int} (hdue : periodDue s 3 1000000 = true) (hrise : riseRate (periodTaken s 3) = some r) :
    riseEval s = if canStop (periodTaken s 3) && ((periodTaken s 3).num 0x4425 0 : Int) < r then coolantStop (periodTaken s 3) 2 else periodTaken s 3 := by
  unfold riseEval
  rw [if_neg (by simp [hdue])]
  dsimp only
  rw [hrise]

theorem zeroFlow_stops (hcan : canStop s = true) (hlong : s.plant.coolant.lastPulse.getD 0 + 200000000 ≤ s.now) :
    zeroFlow s = coolantStop (evalCoolant s) 1 :=
  if_neg (by simp [hcan, hlong])

theorem stageChange_changes (hpower : s.dev.st ≠ .off) (hloop : s.plant.coolant.survival = none) :
    let n := stageOf (stagesNow s)
    let s1 := { s with plant := { s.plant with coolant := { s.plant.coolant with inForce := stagesNow s } } }.setNum 0x4422 0 n
    let s2 := nimWarn s1 7 0x0203 (toBytes 1 (s.num 0x4422 0) ++ toBytes 1 n ++ [0, 1].flatMap (fun i => toBytes 4 (s1.num 0x4420 i)) ++
      [0, 1].flatMap fun i => toBytes 4 (s1.num 0x4421 i))
    n ≠ s.num 0x4422 0 → stageChange s = if n = 3 then degrade s2 coolantThree else undegrade s2 coolantThree :=
  fun hnew => if_neg (by simp [hpower, hloop, hnew])

theorem tachDisagree_tells {t : Nat} (hdiffer : s.plant.coolant.disagree = some t) (hpower : s.dev.st ≠ .off) (hlong : t + 10000000000 ≤ s.now)
    (hnew : tfind s.plant.last 4 = none ∨ tget s.plant.last 4 0 < t) :
    tachDisagree s = nimWarn (periodTaken s 4) 7 0x0207 ([0, 1].flatMap fun i => toBytes 4 (s.num 0x4421 i)) := by
  unfold tachDisagree
  rw [hdiffer]
  refine if_neg ?_
  rcases hnew with hnone | hlast
  · simp [hpower, hlong, hnone]
  · simp [hpower, hlong, Nat.not_le.2 hlast]

theorem survivalExit_restarts {t u : Nat} (hsurvival : s.plant.coolant.survival = some u) (hfine : s.plant.coolant.okSince = some t)
    (htrip : s.dev.thermtrip = false) (hpin : s.dev.rstin = false) (hlong : t + 5000000000 ≤ s.now) :
    let k := s.plant.coolant
    let c : Coolant := { Coolant.fresh with lastPulse := k.lastPulse, interval := k.interval, history := k.history, cond := List.replicate 3 (false, s.now) }
    survivalExit s = restartDevice (undegrade ({ s with plant := { s.plant with gated := false, coolant := c } }.setNum 0x4422 0 0) coolantThree) := by
  intro k c
  unfold survivalExit
  rw [hsurvival, hfine]
  exact if_neg (by simp [htrip, hpin, hlong])

theorem survivalTimeout_trips {t : Nat} (hsurvival : s.plant.coolant.survival = some t) (htrip : s.dev.thermtrip = false)
    (hend : t + s.num 0x4426 0 * 1000000000 ≤ s.now ∨ junctionsBelow s 115 = false) :
    let a := resetAll (dieFault s 0x1A 0x07 7)
    survivalTimeout s = { a with dev := { a.dev with thermtrip := true }, plant := { a.plant with held := (List.range 7).map fun k => (k, true) } } := by
  intro a
  unfold survivalTimeout
  rw [hsurvival]
  refine if_neg ?_
  rcases hend with hlate | hhot
  · simp [htrip, Nat.not_lt.2 hlate]
  · simp [htrip, hhot]

/-- Settles O53: the conditions of each command choose one branch of it; a pulse counts for at least 500,000 ns (R573). -/
theorem coolantCommands : Obligations.CoolantCommands := by
  unfold Obligations.CoolantCommands
  refine ⟨?pulse, ?rise, ?zero, ?stage, ?disagree, ?leave, ?late⟩
  case pulse => exact fun s hpower => congrArg ok (tachPulse_times hpower)
  case rise => exact fun s r hdue hrise => congrArg ok (riseEval_evaluates hdue hrise)
  case zero => exact fun s hcan hlong => congrArg ok (zeroFlow_stops hcan hlong)
  case stage => exact fun s hpower hloop hnew => congrArg ok (stageChange_changes hpower hloop hnew)
  case disagree => exact fun s t hdiffer hpower hlong hnew => congrArg ok (tachDisagree_tells hdiffer hpower hlong hnew)
  case leave => exact fun s t u hsurvival hfine htrip hpin hlong => congrArg ok (survivalExit_restarts hsurvival hfine htrip hpin hlong)
  case late => exact fun s t hsurvival htrip hend => congrArg ok (survivalTimeout_trips hsurvival htrip hend)

end Sys2Proof.Machine
end

section
/-! PROOFS. The local store of a Facet (R49), the elements of a tensor in it (R52, R77), and what an operation writes beside them (R46, R82). -/

namespace Sys2Proof.Machine

/-! ## Bytes of local store (R49) -/

section Bytes

variable {f g : Facet}

theorem lsByte_lsPut (f : Facet) (a b : Nat) (v : Byte) : lsByte (lsPut f a v) b = if a = b then v else lsByte f b := by
  unfold lsByte lsPut
  cases f.lsFree with
  | none => exact tget_tset _ _ _ _ _
  | some k => exact tget_tput _ _ _ _ _

/-- After a run of bytes is written, a byte of the run reads as written and every other byte as before. -/
theorem lsByte_lsPuts (f : Facet) (a b : Nat) (l : List Byte) :
    lsByte (lsPuts f a l) b = if a ≤ b ∧ b < a + l.length then lget l (b - a) 0 else lsByte f b := by
  induction l generalizing f a with
  | nil => rw [if_neg (by simp)]; rfl
  | cons x r ih =>
    rw [lsPuts, ih, lsByte_lsPut, List.length_cons]
    rcases Nat.lt_trichotomy a b with h | rfl | h
    · obtain ⟨n, rfl⟩ : ∃ n, b = a + 1 + n := ⟨b - (a + 1), by omega⟩
      rw [show a + 1 + n - (a + 1) = n by omega, show a + 1 + n - a = n + 1 by omega, if_neg (Nat.ne_of_lt h)]
      simp only [lget, List.getElem?_cons_succ]
      exact if_congr (by omega) rfl rfl
    · rw [if_neg (by omega), if_pos rfl, if_pos (by omega), Nat.sub_self]; rfl
    · rw [if_neg (by omega), if_neg (by omega), if_neg (by omega)]

theorem lsRead_eq_map (f : Facet) (a n : Nat) : lsRead f a n = (List.range n).map fun i => lsByte f (a + i) := by
  induction n generalizing a with
  | zero => rfl
  | succ n ih =>
    rw [lsRead, ih, List.range_succ_eq_map, List.map_cons, List.map_map]
    refine congrArg (lsByte f a :: ·) (List.map_congr_left fun i _ => ?_)
    rw [Function.comp_apply, show a + 1 + i = a + (i + 1) by omega]

/-- Two stores whose bytes agree read alike. -/
theorem lsRead_congr (h : ∀ b, lsByte f b = lsByte g b) (a n : Nat) : lsRead f a n = lsRead g a n := by
  simp only [lsRead_eq_map, h]

/-- A run of bytes reads back as it was written. -/
theorem lsRead_lsPuts (f : Facet) (a : Nat) (l : List Byte) : lsRead (lsPuts f a l) a l.length = l := by
  rw [lsRead_eq_map]
  refine List.ext_getElem (by simp) fun i hi _ => ?_
  have hlt : i < l.length := by simpa using hi
  simp [lsByte_lsPuts, lget, hlt]

@[simp] theorem lsByte_lsSetPoison (f : Facet) (l : Nat) (p : Bool) (b : Nat) : lsByte (lsSetPoison f l p) b = lsByte f b := rfl

/-- Lines of which some lose their poison: no byte changes. -/
theorem lsByte_foldl_clear {α : Type} (l : List α) (c : Facet → α → Bool) (k : α → Nat) (f : Facet) (b : Nat) :
    lsByte (l.foldl (fun g x => if c g x then lsSetPoison g (k x) false else g) f) b = lsByte f b :=
  List.foldlRecOn (motive := fun g => lsByte g b = lsByte f b) l _ rfl fun g h x _ => by
    split
    · exact h
    · exact h

theorem lsByte_lsWrite (f : Facet) (a b : Nat) (l : List Byte) :
    lsByte (lsWrite f a l) b = if a ≤ b ∧ b < a + l.length then lget l (b - a) 0 else lsByte f b := by
  unfold lsWrite
  split
  next h => rw [List.isEmpty_iff.1 h, if_neg (by simp)]
  next => exact (lsByte_foldl_clear _ _ _ _ _).trans (lsByte_lsPuts f a b l)

theorem lsRead_lsWrite (f : Facet) (a : Nat) (l : List Byte) : lsRead (lsWrite f a l) a l.length = l :=
  (lsRead_congr (fun b => (lsByte_lsWrite f a b l).trans (lsByte_lsPuts f a b l).symm) a _).trans (lsRead_lsPuts f a l)

end Bytes

/-! ## What a Facet is beside its local store (R46) -/

/-- What a Facet is beside its local store, its poison and its scheduled write-backs. -/
def Facet.besideLs (f : Facet) : Facet := { f with ls := [], lsPoison := [], wb := [] }

section Beside

variable (f : Facet)

theorem lsPuts_besideLs (a : Nat) (l : List Byte) : (lsPuts f a l).besideLs = f.besideLs := by
  induction l generalizing f a with
  | nil => rfl
  | cons b r ih => exact ih (lsPut f a b) (a + 1)

theorem foldl_clear_besideLs {α : Type} (l : List α) (c : Facet → α → Bool) (k : α → Nat) :
    (l.foldl (fun g x => if c g x then lsSetPoison g (k x) false else g) f).besideLs = f.besideLs :=
  List.foldlRecOn (motive := fun g : Facet => g.besideLs = f.besideLs) l _ rfl fun g h x _ => by
    split
    · exact h
    · exact h

theorem lsWrite_besideLs (a : Nat) (l : List Byte) : (lsWrite f a l).besideLs = f.besideLs := by
  unfold lsWrite
  split
  · rfl
  · exact (foldl_clear_besideLs _ _ _ _).trans (lsPuts_besideLs f a l)

theorem elemPut_besideLs (t : Tensor) (i : List Nat) (v : Nat) : (elemPut f t i v).besideLs = f.besideLs := by
  unfold elemPut
  split
  · rfl
  · exact lsPuts_besideLs f _ _

theorem elemsPut_besideLs (t : Tensor) (ws : List (List Nat × Nat)) : (elemsPut f t ws).besideLs = f.besideLs :=
  (foldl_clear_besideLs _ _ _ _).trans
    (List.foldlRecOn (motive := fun g : Facet => g.besideLs = f.besideLs) ws _ rfl fun g h w _ => (elemPut_besideLs g t w.1 w.2).trans h)

end Beside

/-! ## Elements (R52, R77) -/

section Elements

variable (f : Facet) (t : Tensor) (i : List Nat) (v : Nat) {a : Nat}

/-- An element is a nibble, or a whole number of bytes. -/
theorem bits_nibble_or_bytes (t : Tensor) : t.bits = 4 ∨ (t.bits ≠ 4 ∧ t.bits = 8 * (t.bits / 8)) := by
  unfold Tensor.bits fmtOf
  split <;> simp

theorem mem_elemBytes : a ∈ elemBytes t i ↔ t.addr i ≤ a ∧ a < t.addr i + Nat.max 1 (t.bits / 8) := by
  simp only [elemBytes, List.mem_map, List.mem_range]
  exact ⟨fun ⟨k, hk, ha⟩ => by omega, fun h => ⟨a - t.addr i, by omega, by omega⟩⟩

theorem lsByte_elemPut_of_notMem (h : a ∉ elemBytes t i) : lsByte (elemPut f t i v) a = lsByte f a := by
  rw [mem_elemBytes] at h
  unfold elemPut
  split
  · rw [lsByte_lsPut, if_neg (fun e => h (by rw [e]; exact ⟨Nat.le_refl _, Nat.lt_add_of_pos_right (Nat.le_max_left 1 _)⟩))]
  · have hmax : t.bits / 8 ≤ Nat.max 1 (t.bits / 8) := Nat.le_max_right _ _
    rw [lsByte_lsPuts, toBytes_length, if_neg (by omega)]

theorem elemCode_elemPut : elemCode (elemPut f t i v) t i = v % 2 ^ t.bits := by
  rcases bits_nibble_or_bytes t with h4 | ⟨h4, h8⟩
  · have hb : (lsByte f (t.addr i)).toNat < 256 := (lsByte f (t.addr i)).isLt
    simp only [elemCode, elemPut, h4, if_true, lsByte_lsPut, BitVec.toNat_ofNat]
    split <;> omega
  · have hr := lsRead_lsPuts f (t.addr i) (toBytes (t.bits / 8) v)
    rw [toBytes_length] at hr
    simp only [elemCode, elemPut, if_neg h4]
    rw [hr, ofBytes_toBytes, show (256 : Nat) = 2 ^ 8 from rfl, ← Nat.pow_mul, ← h8]

theorem lsByte_elemsPut_of_notMem {ws : List (List Nat × Nat)} (h : ∀ w ∈ ws, a ∉ elemBytes t w.1) : lsByte (elemsPut f t ws) a = lsByte f a :=
  (lsByte_foldl_clear _ _ _ _ _).trans
    (List.foldlRecOn (motive := fun g => lsByte g a = lsByte f a) ws _ rfl fun g hg w hw => (lsByte_elemPut_of_notMem g t w.1 w.2 (h w hw)).trans hg)

end Elements

/-- Settles O11: a byte outside every element passes each element's write by (`lsByte_elemPut_of_notMem`), and the counts of `fxstat` are beside it. -/
theorem engineWritesOnlyItsElements : Obligations.EngineWritesOnlyItsElements := by
  unfold Obligations.EngineWritesOnlyItsElements
  intro x t g
  have hbeside := elemsPut_besideLs x t (t.indices.map fun i => (i, (g i).code))
  refine ⟨fun a ha => lsByte_elemsPut_of_notMem x t fun w hw => ?_, ?x, ?d, ?acc, ?pc⟩
  · obtain ⟨i, hi, rfl⟩ := List.mem_map.1 hw
    exact ha i hi
  case x => exact (congrArg Facet.x hbeside :)
  case d => exact (congrArg Facet.d hbeside :)
  case acc => exact (congrArg Facet.acc hbeside :)
  case pc => exact (congrArg Facet.pc hbeside :)

/-- Settles O12: a nibble keeps its neighbour and the other formats are whole bytes (`elemCode_elemPut`). -/
theorem elementReadsBack : Obligations.ElementReadsBack := by
  unfold Obligations.ElementReadsBack
  exact fun x t i v _ => ⟨elemCode_elemPut x t i v, fun a ha => lsByte_elemPut_of_notMem x t i v ha⟩

end Sys2Proof.Machine
end

section
/-! PROOFS. Engine instructions that complete (R46, R57, R71): descriptors, the Lattice, the window unit and the vector unit (R58-R64, R85-R100). -/

namespace Sys2Proof.Machine

open Sys2Proof.Safety

variable {s : State} {f : Nat}

/-- An engine instruction that issues, is legal and comes to no cause retires with its Facet. -/
theorem runEngine_good {legal : Bool} {regs : List Nat} {foot : Facet → List (Nat × Nat)} {g : Facet → Eng} {x : Facet}
    (hi : issues s f regs (foot (s.facet f))) (hg : g (s.facet f) = .good x) (hl : legal = true) :
    ok (runEngine s f legal regs foot g) = .next (retired s f x) := by
  obtain ⟨hr, hs⟩ := hi
  subst hl
  simp only [runEngine, hr, hs, hg]
  rfl

/-! ## Descriptors, the Lattice and the window unit (R58-R62) -/

section Lattice

variable {x : Facet} {now rd rs1 rs2 a : Nat} {t : Tensor} {r : BitVec 256} {tap g : Word} {c : Ctl}

theorem dldEng_loads (ha : (getX x rs1).toNat = a) (hr : BitVec.ofNat 256 (ofBytes (lsRead x a 32)) = r) (haligned : lsAligned a 32 = true)
    (hclean : lsBadIn x a 32 = false) (hd : descOk r = true) : dldEng rd rs1 x = .good (setDesc x rd r) := by
  simp [dldEng, ha, hr, haligned, hclean, hd]

theorem dstEng_stores (ha : (getX x rs1).toNat = a) (hr : lget x.d rs2 none = some r) (haligned : lsAligned a 32 = true)
    (hp : inProtected x a 32 = false) : dstEng rs1 rs2 x = .good (lsWrite x a (toBytes 32 r.toNat)) := by
  simp [dstEng, ha, hr, haligned, hp]

theorem dbaseEng_moves {b : Nat} (hr : lget x.d rd none = some r) (hb : (b : Int) = (fld r 0 22 : Nat) + (getX x rs1).toInt) (hlt : b < 2 ^ 22)
    (hd : descOk (BitVec.ofNat 256 (r.toNat - fld r 0 22 + b)) = true) :
    dbaseEng rd rs1 x = .good (setDesc x rd (BitVec.ofNat 256 (r.toNat - fld r 0 22 + b))) := by
  have h0 : ¬ (b : Int) < 0 := by omega
  simpa [dbaseEng, hr, ← hb, h0, hd] using hlt

theorem wldEng_loads {p w : Nat} {ch : List Nat} (ht : descAt x rs1 = some t) (hf : wldFits t = true)
    (hm : wldMap x t = some (ch, p, w)) (hb : wldBad x t ch w = false) :
    wldEng rs1 x = .good { x with idleTile := x.tile, tile := loadedTile x t ch w } := by
  simp [wldEng, ht, hf, hm, hb]

/-- No row is cleared by a fold over none, so that a count of zero is no case apart. -/
theorem aczEng_clears {row n : Nat} (hrow : (getX x rs1).toNat = row) (hn : (getX x rs2).toNat = n) (h : n = 0 ∨ row + n ≤ 2048) :
    aczEng rs1 rs2 x = .good ((List.range (64 * n)).foldl (fun g i => heldPut (accPut g (64 * row + i) 0) (64 * row + i) 0) x) := by
  unfold aczEng
  by_cases h0 : n = 0
  · simp only [hn, h0, if_true]; rfl
  · have hle : ¬ 2048 < row + n := by omega
    simp only [hrow, hn, h0, hle, if_false]

theorem mmEng_multiplies (htap : getX x rs1 = tap) (hc : ctlOf (getX x rs2) = c) (ht : descAt x rd = some t) (hz : fld tap 24 8 = 0)
    (hf : mmFits x t x.tile = true) (hrow : c.row + c.m ≤ 2048) (hb : mmBad x t x.tile tap c = false) :
    mmEng now rd rs1 rs2 x = .good (worked now t.fmt (c.m * x.tile.k * x.tile.n) (mmPass x t x.tile tap c)) := by
  simp [mmEng, htap, hc, ht, hz, hf, Nat.not_lt.2 hrow, hb]

theorem dgEng_passes {w : Tensor} (hc : ctlOf (getX x rs2) = c) (hg : getX x (rs2 + 1) = g) (ht : descAt x rd = some t) (hw : descAt x rs1 = some w)
    (hf : dgFits t w c = true) (hrow : c.row + c.m ≤ 2048) (hb : dgBad x t w g c = false) :
    dgEng now rd rs1 rs2 x = .good (worked now t.fmt (c.m * t.ext 0 * (dgTaps w).length) (dgPass x t w g c)) := by
  simp [dgEng, hc, hg, ht, hw, hf, Nat.not_lt.2 hrow, hb]

theorem cvtEng_converts (hc : ctlOf (getX x rs1) = c) (ha : (getX x rs2).toNat = a) (hr : BitVec.ofNat 256 (ofBytes (lsRead x a 32)) = r)
    (ht : descAt x rd = some t) (hacc : c.acc = false) (haligned : lsAligned a 32 = true) (hp : stageParams r t.fmt = true)
    (hf : stageFits t c = true) (hrow : c.row + c.m ≤ 2048) (hprot : inProtected x t.foot.1 t.foot.2 = false) (hb : stageBad x t c a r = false) :
    cvtEng rd rs1 rs2 x = .good (putAll x t (stageWr x t c r)) := by
  simp [cvtEng, hc, ha, hr, ht, hacc, haligned, hp, hf, Nat.not_lt.2 hrow, hprot, hb]

theorem poolEng_pools {o : Tensor} {w : Word} {avg : Bool} (hword : getX x rs2 = w) (ho : descAt x rd = some o) (ht : descAt x rs1 = some t)
    (hw : poolWord avg w o t = true) (hf : poolFits o t = true) (hp : inProtected x o.foot.1 o.foot.2 = false) (hb : poolBad x w o t = false) :
    poolEng avg rd rs1 rs2 x = .good (putAll x o (poolWr avg x w o t)) := by
  simp [poolEng, hword, ho, ht, hw, hf, hp, hb]

end Lattice

/-- Settles O8: an engine instruction that issues and comes to no cause retires (`runEngine_good`), and the conditions exclude every cause. -/
theorem latticeInstructions : Obligations.LatticeInstructions := by
  unfold Obligations.LatticeInstructions
  refine ⟨?dld, ?dst, ?dbase, ?wld, ?acz, ?mm, ?dg, ?cvt, ?pool⟩
  case dld => exact fun s f rd rs1 hreg hi ha hp hd => runEngine_good hi (dldEng_loads rfl rfl ha hp hd) hreg
  case dst => exact fun s f rs1 rs2 r hreg hi hr ha hp => runEngine_good hi (dstEng_stores rfl hr ha hp) hreg
  case dbase =>
    intro s f rd rs1 r r' b x hreg hi hr hb hlt hr' hd
    subst hr'
    exact runEngine_good hi (dbaseEng_moves hr hb hlt hd) hreg
  case wld => exact fun s f rs1 t ch p w hreg hi ht hf hm hb => runEngine_good hi (wldEng_loads ht hf hm hb) hreg
  case acz => exact fun s f rs1 rs2 hi h => runEngine_good hi (aczEng_clears rfl rfl h) rfl
  case mm => exact fun s f rd rs1 rs2 t hreg hi ht hz hf hrow hb => runEngine_good hi (mmEng_multiplies rfl rfl ht hz hf hrow hb) hreg
  case dg => exact fun s f rd rs1 rs2 t w hrd hrs1 heven hi ht hw hf hrow hb => 
    runEngine_good hi (dgEng_passes rfl rfl ht hw hf hrow hb) (by rw [hrd, hrs1, heven]; rfl)
  case cvt =>
    exact fun s f rd rs1 rs2 t hreg hi ht hacc ha hp hf hrow hprot hb => runEngine_good hi (cvtEng_converts rfl rfl rfl ht hacc ha hp hf hrow hprot hb) hreg
  case pool =>
    intro s f rd rs1 rs2 o t avg x w hrd hrs1 hi ho ht hw hf hp hb
    have hlegal : (dReg rd && dReg rs1) = true := by rw [hrd, hrs1]; rfl
    cases avg
    · exact runEngine_good hi (poolEng_pools rfl ho ht hw hf hp hb) hlegal
    · exact runEngine_good hi (poolEng_pools rfl ho ht hw hf hp hb) hlegal

/-! ## The vector unit (R63, R64, R97-R100) -/

section Vector

variable {x : Facet} {rd rs1 rs2 : Nat} {d a b t : Tensor} {op : VOp} {c : Ctl}

theorem vec2Eng_works (hd : descAt x rd = some d) (ha : descAt x rs1 = some a) (hb : descAt x rs2 = some b) (hf : vec2Fits d a b = true)
    (hp : inProtected x d.foot.1 d.foot.2 = false) (hca : tensorBad x a = false) (hcb : tensorBad x b = false) :
    vec2Eng op rd rs1 rs2 x = .good (elementWise x op d a (intWidth [d, a, b])
      (fun i => intElem x b (broadcast b i)) (fun i => fpOperand x b (broadcast b i))) := by
  simp [vec2Eng, hd, ha, hb, hf, hp, hca, hcb]

theorem vecSEng_works {v : Word} (hv : getX x rs2 = v) (hd : descAt x rd = some d) (ha : descAt x rs1 = some a) (hf : vec1Fits d a = true)
    (hp : inProtected x d.foot.1 d.foot.2 = false) (hca : tensorBad x a = false) :
    vecSEng op rd rs1 rs2 x = .good (elementWise x op d a (intWidth [d, a]) (fun _ => v.toInt) (fun _ => fp32 v)) := by
  simp [vecSEng, hv, hd, ha, hf, hp, hca]

theorem vec1Eng_works (hd : descAt x rd = some d) (ha : descAt x rs1 = some a) (hf : vec1Fits d a = true)
    (hfp : (op.needsFp && isInt d.fmt) = false) (hp : inProtected x d.foot.1 d.foot.2 = false) (hca : tensorBad x a = false) :
    vec1Eng op rd rs1 x = .good (elementWise x op d a (intWidth [d, a]) (fun _ => 0) (fun _ => Machine.Num.zero)) := by
  simp [vec1Eng, hd, ha, hf, hfp, hp, hca]

theorem cvtVecEng_converts (hd : descAt x rd = some d) (ha : descAt x rs1 = some a) (hf : cvtVecFits d a = true)
    (hp : inProtected x d.foot.1 d.foot.2 = false) (hscale : d.scaled = true → inProtected x (64 * d.sref) d.scaleBytes = false)
    (hca : tensorBad x a = false) :
    cvtVecEng rd rs1 x = .good (if d.scaled then cvtScaled x d a
      else elementWise x .copy d a (intWidth [d, a]) (fun _ => 0) (fun _ => Machine.Num.zero)) := by
  cases hs : d.scaled
  · simp [cvtVecEng, hd, ha, hf, hp, hca, hs]
  · simp [cvtVecEng, hd, ha, hf, hp, hca, hs, hscale hs]

theorem reduceEng_folds {sum : Bool} (hd : descAt x rd = some d) (ha : descAt x rs1 = some a) (hf : reduceFits d a = true)
    (hp : inProtected x d.foot.1 d.foot.2 = false) (hca : tensorBad x a = false) :
    reduceEng sum rd rs1 x = .good (putAll x d (reduceWr sum x d a)) := by
  simp [reduceEng, hd, ha, hf, hp, hca]

theorem aldEng_copies (hc : ctlOf (getX x rs1) = c) (ht : descAt x rd = some t) (hacc : c.acc = false) (hf : accShape t c = true)
    (hrow : c.row + c.m ≤ 2048) (hp : inProtected x t.foot.1 t.foot.2 = false) (hca : accBad x c = false) :
    aldEng rd rs1 x = .good (elemsPut x t (t.indices.map fun i => (i, (accWord x (accKey (accRow t c i) (lget i 0 0))).toNat))) := by
  simp [aldEng, hc, ht, hacc, hf, Nat.not_lt.2 hrow, hp, hca]

theorem aaccEng_adds (hc : ctlOf (getX x rs1) = c) (ht : descAt x rd = some t) (hf : accShape t c = true) (hrow : c.row + c.m ≤ 2048)
    (hct : tensorBad x t = false) (hca : accBad x c = false) : aaccEng rd rs1 x = .good (accAdd x t c) := by
  simp [aaccEng, hc, ht, hf, Nat.not_lt.2 hrow, hct, hca]

end Vector

section Rows

variable {rd rs1 rs2 : BitVec 5} {c : Instr × VOp}

/-- The rows of three descriptor registers. -/
theorem exec_vec2 (hc : c ∈ [(.vxAdd f rd rs1 rs2, .add), (.vxSub f rd rs1 rs2, .sub), (.vxMul f rd rs1 rs2, .mul), (.vxMax f rd rs1 rs2, .max),
    (.vxMin f rd rs1 rs2, .min)]) : exec c.1 s = ok (runVec2 c.2 f rd rs1 rs2 s) := by
  simp only [List.mem_cons, List.not_mem_nil, or_false] at hc
  rcases hc with rfl | rfl | rfl | rfl | rfl <;> rfl

/-- The rows of a scalar register. -/
theorem exec_vecS (hc : c ∈ [(.vxAdds f rd rs1 rs2, .add), (.vxMuls f rd rs1 rs2, .mul)]) :
    exec c.1 s = ok (runEngine s f (dReg rd && dReg rs1) [rs2.toNat] (fun x => feet x [rd.toNat, rs1.toNat])
      (vecSEng c.2 rd.toNat rs1.toNat rs2.toNat)) := by
  simp only [List.mem_cons, List.not_mem_nil, or_false] at hc
  rcases hc with rfl | rfl <;> rfl

/-- The rows of two descriptor registers. -/
theorem exec_vec1 (hc : c ∈ [(.vxRelu f rd rs1, .relu), (.vxExp2 f rd rs1, .exp2), (.vxRcp f rd rs1, .rcp), (.vxRsq f rd rs1, .rsq)]) :
    exec c.1 s = ok (runVec1 (vec1Eng c.2) f rd rs1 s) := by
  simp only [List.mem_cons, List.not_mem_nil, or_false] at hc
  rcases hc with rfl | rfl | rfl | rfl <;> rfl

/-- `vx.relu` alone of these rows works in INT32 as well (R98). -/
theorem needsFp_int_false {op : VOp} {d : Tensor} (h : op = .relu ∨ isInt d.fmt = false) : (op.needsFp && isInt d.fmt) = false := by
  rcases h with rfl | h
  · rfl
  · rw [h, Bool.and_false]

theorem exec_reduce (sum : Bool) :
    exec (if sum then .vxRsum f rd rs1 else .vxRmax f rd rs1) s = ok (runVec1 (reduceEng sum) f rd rs1 s) := by
  cases sum <;> rfl

end Rows

/-- Settles O10: an engine instruction that issues and comes to no cause retires (`runEngine_good`), and the conditions exclude every cause. -/
theorem vectorInstructions : Obligations.VectorInstructions := by
  unfold Obligations.VectorInstructions
  refine ⟨?vec2, ?vecS, ?vec1, ?cvt, ?reduce, ?ald, ?aacc⟩
  case vec2 =>
    intro s f rd rs1 rs2 d a b c hc x hrd hrs1 hrs2 hi hd ha hb hf hp hca hcb
    rw [exec_vec2 hc]
    exact runEngine_good hi (vec2Eng_works hd ha hb hf hp hca hcb) (by rw [hrd, hrs1, hrs2]; rfl)
  case vecS =>
    intro s f rd rs1 rs2 d a c hc x v hrd hrs1 hi hd ha hf hp hca
    rw [exec_vecS hc]
    exact runEngine_good hi (vecSEng_works rfl hd ha hf hp hca) (by rw [hrd, hrs1]; rfl)
  case vec1 =>
    intro s f rd rs1 d a c hc x hrd hrs1 hi hd ha hf hfp hp hca
    rw [exec_vec1 hc]
    exact runEngine_good hi (vec1Eng_works hd ha hf (needsFp_int_false hfp) hp hca) (by rw [hrd, hrs1]; rfl)
  case cvt =>
    intro s f rd rs1 d a x hrd hrs1 hi hd ha hf hp hscale hca
    exact runEngine_good hi (cvtVecEng_converts hd ha hf hp hscale hca) (by rw [hrd, hrs1]; rfl)
  case reduce =>
    intro s f rd rs1 d a sum x hrd hrs1 hi hd ha hf hp hca
    rw [exec_reduce]
    exact runEngine_good hi (reduceEng_folds hd ha hf hp hca) (by rw [hrd, hrs1]; rfl)
  case ald => exact fun s f rd rs1 t hreg hi ht hacc hf hrow hp hca => runEngine_good hi (aldEng_copies rfl ht hacc hf hrow hp hca) hreg
  case aacc => exact fun s f rd rs1 t hreg hi ht hf hrow hct hca => runEngine_good hi (aaccEng_adds rfl ht hf hrow hct hca) hreg

end Sys2Proof.Machine
end

section
/-! PROOFS. The mover (R48, R65-R67, R133-R135): an operation that starts, and the line requests that it issues (R281). -/

namespace Sys2Proof.Machine

open Sys2Proof.Safety

variable {s : State} {f : Nat}

/-! ## One request for each line (R48, R281) -/

/-- Requests issued one after another stand at the end of the list in their order, with consecutive tags. -/
theorem foldl_issueLine {α : Type} (g : α → LineReq) (l : List α) (s : State) :
    l.foldl (fun a p => issueLine a (g p)) s =
      { s with id := s.id + l.length, mem := { s.mem with reqs := s.mem.reqs ++ l.zipIdx.map fun p => { g p.1 with tag := s.id + p.2 } } } := by
  induction l generalizing s with
  | nil => simp
  | cons x l ih =>
    have htags : (fun p : α × Nat => { g p.1 with tag := s.id + 1 + p.2 }) = (fun p => { g p.1 with tag := s.id + p.2 }) ∘ Prod.map id (· + 1) := by
      funext p
      simp [Nat.add_assoc, Nat.add_comm 1]
    rw [List.foldl_cons, ih, List.zipIdx_cons', List.map_cons, List.map_map, ← htags]
    simp [issueLine, State.takeId, Nat.add_assoc, Nat.add_comm 1]

/-- Settles O14: the state before the first request differs in the Facet and the two counters, and the requests follow (`foldl_issueLine`). -/
theorem moverIssuesOneRequestPerLine : Obligations.MoverIssuesOneRequestPerLine := by
  unfold Obligations.MoverIssuesOneRequestPerLine
  intro s f ch put pairs ls
  exact foldl_issueLine (moverReq s f s.id ch put) ls _

/-! ## Operations that start (R65-R67, R133-R135) -/

section Starts

variable {ch : Nat} {rd rs1 : BitVec 5} {t : Tensor}

theorem issueMover_starts {put : Bool} {pairs : List (Nat × Nat)} (h : moverFault s f (moverLines s (s.facet f) put pairs) = none) :
    issueMover s f ch put pairs = moverStart s f ch put pairs := by
  simp [issueMover, h]

variable {x : Facet} {a : Nat} {r : BitVec 256}

theorem moveRun_starts {put : Bool} (hx : s.facet f = x) (ha : (getX x rs1.toNat).toNat = a) (hr : BitVec.ofNat 256 (ofBytes (lsRead x a 32)) = r)
    (hreg : dReg rd = true) (hi : issues s f [rs1.toNat] ((a, 32) :: feet x [rd.toNat])) (hroom : x.ops.length < 32)
    (ht : descAt x rd.toNat = some t) (hrefs : refsOk t = true) (hfits : t.scaleFits = true) (hfar : farOk t a r = true)
    (hfree : put = false → inProtected x t.foot.1 t.foot.2 = false ∧ (t.scaled = true → inProtected x (64 * t.sref) t.scaleBytes = false)) :
    moveRun s f ch put rd rs1 = issueMover s f ch put (farPairs t r) := by
  obtain ⟨hruns, hstalls⟩ := hi
  rw [hx] at hstalls
  have hkeeps : (!put && (inProtected x t.foot.1 t.foot.2 || (t.scaled && inProtected x (64 * t.sref) t.scaleBytes))) = false := by
    cases put with
    | true => rfl
    | false =>
      obtain ⟨hfoot, hscale⟩ := hfree rfl
      cases hs : t.scaled
      · simp [hfoot]
      · simp [hfoot, hscale hs]
  simp [moveRun, hx, ha, hr, hruns, hreg, hstalls, Nat.not_le.2 hroom, ht, hrefs, hfits, hfar, hkeeps]

theorem exec_move {ch : BitVec 4} (put : Bool) :
    exec (if put then .dmPut f ch rd rs1 else .dmGet f ch rd rs1) s = ok (moveRun s f ch.toNat put rd rs1) := by
  cases put <;> rfl

theorem kvRun_starts {p : Pool} {v : View} (hx : s.facet f = x) (ha : (getX x rs1.toNat).toNat = a)
    (hr : BitVec.ofNat 256 (ofBytes (lsRead x a 32)) = r) (hreg : dReg rd = true) (hi : issues s f [rs1.toNat] ((a, 32) :: feet x [rd.toNat]))
    (hroom : x.ops.length < 32) (ht : descAt x rd.toNat = some t) (hview : kvView s x = some (p, v)) (htensor : kvTensorOk p t = true)
    (hrec : kvRecOk p v t a r = true)
    (hfree : r.getLsbD 1 = false → inProtected x t.foot.1 t.foot.2 = false ∧ inProtected x (64 * t.sref) t.scaleBytes = false)
    (hpages : ∀ i < t.ext 1, (kvPage v r i).isSome = true) :
    kvRun s f ch rd rs1 = issueMover s f ch (r.getLsbD 1) (kvAll p v t r) := by
  obtain ⟨hruns, hstalls⟩ := hi
  rw [hx] at hstalls
  have hkeeps : (!(r.getLsbD 1) && (inProtected x t.foot.1 t.foot.2 || inProtected x (64 * t.sref) t.scaleBytes)) = false := by
    cases hput : r.getLsbD 1 with
    | true => rfl
    | false => simp [hfree hput]
  have hheld : ((List.range (t.ext 1)).any fun i => (kvPage v r i).isNone) = false :=
    List.any_eq_false.2 fun i hi => by simp [Option.isNone_iff_eq_none, Option.isSome_iff_ne_none.1 (hpages i (List.mem_range.1 hi))]
  unfold kvRun
  simp only [hx, ha, hr, hruns, hreg, hstalls, decide_eq_false (Nat.not_le.2 hroom), ht, hview, htensor, hrec, hkeeps, hheld]
  rfl

theorem waitRun_passes (hi : issues s f [rs1.toNat] []) (hz : fld (getX (s.facet f) rs1.toNat) 16 16 = 0)
    (hputs : ∀ o ∈ (s.facet f).ops, o.write = true → (getX (s.facet f) rs1.toNat).getLsbD o.ch = false) :
    waitRun s f rs1 = retired s f (s.facet f) := by
  obtain ⟨hruns, hstalls⟩ := hi
  have hnone : ((s.facet f).ops.any fun o => o.write && (getX (s.facet f) rs1.toNat).getLsbD o.ch) = false :=
    List.any_eq_false.2 fun o ho => by
      cases hw : o.write
      · simp
      · rw [hputs o ho hw]; decide
  unfold waitRun
  simp only [hruns, hstalls, hz, hnone]
  rfl

end Starts

/-- Settles O13: the conditions pass every check before the lines are looked up, and each line is mapped and reached (`issueMover_starts`). -/
theorem moverInstructions : Obligations.MoverInstructions := by
  unfold Obligations.MoverInstructions
  refine ⟨?move, ?kv, ?wait⟩
  case move =>
    intro s f ch rd rs1 t put x a r hreg hi hroom ht hrefs hfits hfar hfree hlines
    rw [exec_move, moveRun_starts rfl rfl rfl hreg hi hroom ht hrefs hfits hfar hfree, issueMover_starts hlines]
    rfl
  case kv =>
    intro s f ch rd rs1 t p v x a r put hreg hi hroom ht hview htensor hrec hfree hpages hlines
    exact congrArg ok ((kvRun_starts rfl rfl rfl hreg hi hroom ht hview htensor hrec hfree hpages).trans (issueMover_starts hlines))
  case wait => exact fun s f rs1 hi hz hputs => congrArg ok (waitRun_passes hi hz hputs)

end Sys2Proof.Machine
end

section
/-! PROOFS. Messages (R65, R68-R70): what the message instructions do, the arrival of a message, and its deposit in a ring. -/

namespace Sys2Proof.Machine

open Sys2Proof.Safety

variable {s : State} {f : Nat}

/-! ## The message instructions (R65, R69) -/

section Instructions

variable {rs1 rd : BitVec 5} {st : Step}

/-- What `ms.send` does to a site that is ready for it: a checker folds its message, a main copy whose earlier ones are through sends it. -/
theorem sendRun_ready {x : Facet} {a : Nat} (hx : s.facet f = x) (ha : (getX x rs1.toNat).toNat = a) (hst : x.step = some st)
    (hi : issues s f [rs1.toNat] [(a, 64)]) (haligned : lsAligned a 64 = true) (hok : sendOk s x a = true) :
    (st.checker = true → sendRun s f rs1 = s.setFacet f (sendFacet x a)) ∧
    (st.checker = false → sendHeld s f = false → routeUp s (dieOf f) (dieOf (s.siteOf (sendMsg s f a).dest)) = true →
      sendRun s f rs1 = sendStart s f a) := by
  obtain ⟨hruns, hstalls⟩ := hi
  rw [hx] at hstalls
  constructor
  · intro hc
    simp [sendRun, hx, ha, hst, hruns, hstalls, haligned, hok, hc]
  · intro hc hheld hup
    simp [sendRun, hx, ha, hst, hruns, hstalls, haligned, hok, hc, hheld, hup]

theorem recvRun_full {poll : Bool} (hi : issues s f [] []) (hsome : (s.facet f).got ≠ (s.facet f).put) :
    recvRun s f poll rd = retired s f (setX (s.facet f) rd.toNat (BitVec.ofNat 32 (ringHead (s.facet f)))) := by
  simp [recvRun, retired, hi.1, hi.2, hsome]

theorem recvRun_empty (hi : issues s f [] []) (hnone : (s.facet f).got = (s.facet f).put) :
    recvRun s f true rd = retired s f (setX (s.facet f) rd.toNat 0xFFFFFFFF) := by
  simp [recvRun, retired, hi.1, hi.2, hnone]

theorem ackRun_releases (hi : issues s f [] []) :
    ackRun s f = retired s f { s.facet f with got := (s.facet f).got + if (s.facet f).got = (s.facet f).put then 0 else 1 } := by
  by_cases h : (s.facet f).got = (s.facet f).put
  · simp only [ackRun, retired, hi.1, hi.2, if_pos h]; rfl
  · simp only [ackRun, retired, hi.1, hi.2, if_neg h]; rfl

end Instructions

/-! ## Messages on their way (R70, R265, R325) -/

section Arrival

variable {id : Nat} {m : Msg} (hm : s.sync.msgs.find? (fun m => m.id == id) = some m)
include hm

theorem msgArrive_arrives (hgen : m.gen = (s.sec m.sector).gen) (hreach : devReach s m.seat m.dest = true) :
    msgArrive s id = { s with sync := { s.sync with msgs := s.sync.msgs.map fun e => if e.id = id then { e with away := false } else e } } := by
  simp [msgArrive, hm, hgen, hreach]

theorem msgArrive_retired (hgen : m.gen ≠ (s.sec m.sector).gen) : msgArrive s id = dropMsg s id := by
  simp [msgArrive, hm, hgen]

theorem deposit_delivers (hgen : m.gen = (s.sec m.sector).gen) (hroom : depositOk s m = true) (hfirst : heldBack s m = false) :
    deposit s id = delivered ((receivers s m.dest).foldl (fun a h => depositIn a h m) (dropMsg s id)) m := by
  simp [deposit, hm, hgen, hroom, hfirst]

theorem deposit_retired (hgen : m.gen ≠ (s.sec m.sector).gen) : deposit s id = dropMsg s id := by
  simp [deposit, hm, hgen]

end Arrival

/-- Settles O15: the conditions of each command choose one branch of it. -/
theorem messageInstructions : Obligations.MessageInstructions := by
  unfold Obligations.MessageInstructions
  refine ⟨?send, ?recv, ?ack, ?arrive, ?deposit, ?squash⟩
  case send =>
    intro s f rs1 st x a hst hi ha hok
    obtain ⟨hchecker, hmain⟩ := sendRun_ready rfl rfl hst hi ha hok
    exact ⟨fun hc => congrArg ok (hchecker hc), fun hc hheld hup => congrArg ok (hmain hc hheld hup)⟩
  case recv =>
    intro s f rd x hi
    refine ⟨fun hsome c hc => ?_, fun hnone => congrArg ok (recvRun_empty hi hnone)⟩
    simp only [List.mem_cons, List.not_mem_nil, or_false] at hc
    obtain rfl | rfl := hc
    · exact congrArg ok (recvRun_full hi hsome)
    · exact congrArg ok (recvRun_full hi hsome)
  case ack => exact fun s f hi => congrArg ok (ackRun_releases hi)
  case arrive => exact fun s id m hm hgen hreach => congrArg ok (msgArrive_arrives hm hgen hreach)
  case deposit => exact fun s id m hm hgen hroom hfirst => congrArg ok (deposit_delivers hm hgen hroom hfirst)
  case squash =>
    intro s id m hm hgen c hc
    simp only [List.mem_cons, List.not_mem_nil, or_false] at hc
    obtain rfl | rfl := hc
    · exact congrArg ok (msgArrive_retired hm hgen)
    · exact congrArg ok (deposit_retired hm hgen)

/-! ## The ring entry (R65, R68, R70) -/

section Entry

variable {h : Nat} {m : Msg}

theorem msgBytes_length (hlen : 56 ≤ m.bytes.length) : (msgBytes m).length = 64 := by
  simp [msgBytes, hlen]

/-- The address of the next free entry of a receive ring. -/
def ringTail (x : Facet) : Nat := (ringRange x).1 + 64 * (x.put % 2 ^ (nbits x.ring 28 4 + 4))

/-- The Facet after a deposit: its next ring entry holds the message. -/
def withMessage (x : Facet) (m : Msg) : Facet :=
  { lsSetPoison (lsWrite x (ringTail x) (msgBytes m)) (ringTail x / 64) m.poison with put := x.put + 1 }

theorem facet_depositIn_same : (depositIn s h m).facet (s.siteOf h) = withMessage (s.facet (s.siteOf h)) m := facet_modFacet_same _ _ _

theorem facet_depositIn_ne (hf : f ≠ s.siteOf h) : (depositIn s h m).facet f = s.facet f := facet_modFacet_ne _ _ hf.symm

theorem lsByte_withMessage (x : Facet) (b : Nat) : lsByte (withMessage x m) b = lsByte (lsWrite x (ringTail x) (msgBytes m)) b := rfl

theorem lsRead_withMessage (x : Facet) (hlen : 56 ≤ m.bytes.length) : lsRead (withMessage x m) (ringTail x) 64 = msgBytes m := by
  have hread := lsRead_lsWrite x (ringTail x) (msgBytes m)
  rw [msgBytes_length hlen] at hread
  exact (lsRead_congr (lsByte_withMessage x) _ _).trans hread

theorem lsByte_withMessage_outside (x : Facet) (hlen : 56 ≤ m.bytes.length) {b : Nat} (hb : b < ringTail x ∨ ringTail x + 64 ≤ b) :
    lsByte (withMessage x m) b = lsByte x b := by
  rw [lsByte_withMessage, lsByte_lsWrite, msgBytes_length hlen, if_neg (by omega)]

end Entry

/-- Settles O16: the Facet is `withMessage`, of which the write of the entry is all but the count of deposits (`lsWrite_besideLs`). -/
theorem depositWritesOneRingEntry : Obligations.DepositWritesOneRingEntry := by
  unfold Obligations.DepositWritesOneRingEntry
  intro s h m hlen x y a
  have hy : y = withMessage x m := facet_depositIn_same
  have hbeside := lsWrite_besideLs x a (msgBytes m)
  rw [hy]
  refine ⟨lsRead_withMessage x hlen, rfl, ?got, ?regs, ?descs, ?pc, fun b hb => lsByte_withMessage_outside x hlen hb, fun f hf => facet_depositIn_ne hf⟩
  case got => exact (congrArg Facet.got hbeside :)
  case regs => exact (congrArg Facet.x hbeside :)
  case descs => exact (congrArg Facet.d hbeside :)
  case pc => exact (congrArg Facet.pc hbeside :)

end Sys2Proof.Machine
end

section
/-! PROOFS. Vertex instructions (R65, R180, R196): how a main copy's first attempt sends one, how its unit applies one (R326), and its response. -/

namespace Sys2Proof.Machine

open Sys2Proof.Safety

variable {s : State} {f : Nat}

/-! ## Sending (R180, R196, R326) -/

section Sending

variable {op rd ref value : Nat} {w : BitVec 128} {rd' rs1 rs2 : BitVec 5} {st : Step}

/-- A main copy's first attempt folds its instruction and sends it, once its earlier puts and messages are complete (R47). -/
theorem vtRun_sends {x : Facet} {a : Nat} (hx : s.facet f = x) (ha : (getX x rs1.toNat).toNat = a) (hst : x.step = some st)
    (hmain : st.checker = false) (hfirst : st.replay = false) (hlog : x.log.length < 256)
    (hi : issues s f [rs1.toNat, rs2.toNat] (if op = 4 then [(a, 16)] else []))
    (hquiet : op ≤ 3 → (∀ o ∈ x.ops, o.write = false) ∧ ∀ m ∈ s.sync.msgs, (m.origin == .send f) = false)
    (haligned : op = 4 → lsAligned a 16 = true) (href : (if op = 4 then 0 else a) = ref)
    (hvalue : (if op ≤ 2 then (getX x rs2.toNat).toNat else 0) = value)
    (hw : (if op = 4 then BitVec.ofNat 128 (ofBytes (lsRead x a 16)) else 0) = w) :
    vtRun s f op rd' rs1 rs2 = vtSend (s.setFacet f (foldF x (vtFold op ref value w (lsBad x a)))) f op rd'.toNat ref value w := by
  obtain ⟨hruns, hstalls⟩ := hi
  rw [hx] at hstalls
  have hdone : (decide (op ≤ 3) && (x.ops.any (·.write) || s.sync.msgs.any fun m => m.origin == .send f)) = false := by
    by_cases h3 : op ≤ 3
    · obtain ⟨hputs, hmsgs⟩ := hquiet h3
      rw [List.any_eq_false.2 fun o ho => by rw [hputs o ho]; decide, List.any_eq_false.2 fun m hm => by rw [hmsgs m hm]; decide]
      exact Bool.and_false _
    · rw [decide_eq_false h3, Bool.false_and]
  have hplace : (decide (op = 4) && !(lsAligned a 16)) = false := by
    by_cases h4 : op = 4
    · rw [haligned h4]; exact Bool.and_false _
    · rw [decide_eq_false h4, Bool.false_and]
  unfold vtRun
  simp only [hx, ha, hst, hruns, hstalls, hdone, hplace, hmain, hfirst, href, hvalue, hw, Nat.not_le.2 hlog, if_false]
  simp

theorem vtSend_near (hnear : vtNear f op ref w = true) : vtSend s f op rd ref value w = vtLocal s f op rd ref value w := by
  simp [vtSend, hnear]

theorem vtSend_away (hfar : vtNear f op ref w = false) (hup : roundTrip s (dieOf f) (vtSeat op ref w) = true) :
    vtSend s f op rd ref value w = vtAway s f op rd ref value w := by
  simp [vtSend, hfar, hup]

/-- The rows of the Vertex instructions, each with its operation; only a post and a set have a second operand. -/
theorem exec_vt {c : Instr × Nat} (hc : c ∈ [(.vtPostInsn f rd' rs1 rs2, 1), (.vtSetInsn f rd' rs1 rs2, 2), (.vtBar f rd' rs1, 3),
    (.vtWatchInsn f rd' rs1, 4), (.vtRead f rd' rs1, 5)]) : exec c.1 s = ok (vtRun s f c.2 rd' rs1 (if c.2 ≤ 2 then rs2 else 0)) := by
  simp only [List.mem_cons, List.not_mem_nil, or_false] at hc
  obtain rfl | rfl | rfl | rfl | rfl := hc <;> rfl

end Sending

/-! ## At the unit, and back (R179, R326) -/

section Remote

variable {tag : Nat} {v : Vop}

theorem vopArrive_applies (hv : s.sync.vops.find? (fun v => v.tag == tag && v.rsp == none) = some v) (hgen : v.gen = (s.sec v.sector).gen)
    (hturn : vopBehind s v = false) (htakes : unitTakes s v.unit v.home = true) (hwaits : ∃ p ∈ (s.facet v.site).waits, p.2 = tag) :
    let r := vtApply s v.op v.sector v.home v.site v.ref v.value v.watch
    let t := r.2.2.modFacet v.site fun f => logStatus f v.op v.lix r.1
    vopArrive s tag =
      { t with sync := { t.sync with vops := t.sync.vops.map fun u => if u.tag = tag then { u with rsp := some (r.1, r.2.1) } else u } } := by
  obtain ⟨p, hp, htag⟩ := hwaits
  have hany : ((s.facet v.site).waits.any fun p => p.2 == tag) = true := List.any_eq_true.2 ⟨p, hp, beq_iff_eq.2 htag⟩
  intro r t
  unfold vopArrive
  rw [hv]
  refine (if_neg (not_not_intro hgen)).trans ((if_neg (by rw [hturn, htakes]; decide)).trans ?_)
  simp only [hany, if_true]
  rfl

theorem vrspArrive_writes {st val rd : Nat} (hv : s.sync.vops.find? (fun v => v.tag == tag && v.rsp != none) = some v) (hrsp : v.rsp = some (st, val))
    (hwaits : (s.facet v.site).waits.find? (fun p => p.2 == tag) = some (rd, tag)) (hread : v.op = 5 → st = 0) :
    let t := { s with sync := { s.sync with vops := s.sync.vops.filter fun u => u.tag != tag } }
    let u := t.modFacet v.site fun x => { x with waits := x.waits.filter fun p => p.2 != tag }
    let y := u.modFacet v.site fun x => if v.op = 5 then advance (setX x v.rd (BitVec.ofNat 32 val)) else setX x rd (BitVec.ofNat 32 val)
    vrspArrive s tag = setResult y v.site v.ix (some (BitVec.ofNat 32 val)) := by
  have hany : ((s.facet v.site).waits.any fun p => p.2 == tag) = true :=
    List.any_eq_true.2 ⟨_, List.mem_of_find?_eq_some hwaits, beq_self_eq_true tag⟩
  have htaken : ¬ ((decide (v.op = 5) && decide (st ≠ 0)) = true) := by simpa using hread
  intro t u y
  unfold vrspArrive
  simp only [hv, hrsp, hany, hwaits]
  exact if_neg htaken

end Remote

/-- Settles O17: the conditions of each command choose one branch of it. That the pc of a remote `vt.read` moves on with its response only is the model's
choice (log entry 27). -/
theorem vertexInstructions : Obligations.VertexInstructions := by
  unfold Obligations.VertexInstructions
  refine ⟨?send, ?apply, ?respond⟩
  case send =>
    intro s f rd rs1 rs2 st c hc x a ref value w s1 hst hmain hfirst hlog hi hquiet haligned
    have hsends : vtRun s f c.2 rd rs1 (if c.2 ≤ 2 then rs2 else 0) = vtSend s1 f c.2 rd.toNat ref value w := by
      refine vtRun_sends rfl rfl hst hmain hfirst hlog ?_ hquiet haligned rfl ?_ rfl
      · rw [apply_ite BitVec.toNat]; exact hi
      · show (if c.2 ≤ 2 then _ else 0) = if c.2 ≤ 2 then (getX x rs2.toNat).toNat else 0
        split <;> rfl
    rw [exec_vt hc, hsends]
    exact ⟨fun hnear _ => congrArg ok (vtSend_near hnear), fun hfar hup => congrArg ok (vtSend_away hfar hup)⟩
  case apply =>
    intro s tag v hv hgen hturn htakes r hwaits
    exact congrArg ok (vopArrive_applies hv hgen hturn htakes hwaits)
  case respond =>
    intro s tag st val rd v hv hrsp hwaits hread
    exact congrArg ok (vrspArrive_writes hv hrsp hwaits hread)

end Sys2Proof.Machine
end

section
/-! PROOFS. The sequencer (R40, R41, R44, R55, R57): the instruction at the pc, and what base instructions compute (log entry 13). -/

namespace Sys2Proof.Machine

open Sys2Proof.Safety

variable {s : State} {f : Nat}

/-! ## The instruction at the pc (R40, R41, R44, R57) -/

section AtPc

variable {w len v : Nat}

theorem ecallRun_ends (hi : issues s f [17] []) (hz : getX (s.facet f) 17 = 0) :
    ecallRun s f = s.setFacet f { s.facet f with run := .ended } := by
  simp [ecallRun, hi.1, hi.2, hz]

variable (hruns : runs s f = true) (hfetch : fetch (s.facet f) = .bits w len) (hwide : (if len = 2 then expand16 w else some w) = some v)
include hruns hfetch hwide

theorem sequencerRun_base {g : Facet} (hbase : customOp v = none) (hcall : v ≠ 0x73) (hbreak : v ≠ 0x100073)
    (hstalls : stalls (s.facet f) (baseRegs v) (baseFeet (s.facet f) v) = false) (hgood : baseEng (s.facet f) f s.now v len = .good g) :
    sequencerRun s f = ok (s.setFacet f g) := by
  simp [sequencerRun, hruns, hfetch, hwide, hbase, hcall, hbreak, hstalls, hgood]

theorem sequencerRun_custom {g : Nat → State → Res} (hcustom : customOp v = some g) : sequencerRun s f = g f s := by
  simp [sequencerRun, hruns, hfetch, hwide, hcustom]

theorem sequencerRun_ecall (hcall : v = 0x73) : sequencerRun s f = ok (ecallRun s f) := by
  subst hcall
  simp [sequencerRun, hruns, hfetch, hwide, show customOp 0x73 = none from rfl]

end AtPc

/-! ## Extension registers (R55) -/

section Csr

variable {x : Facet}

/-- The instruction after one of four bytes is where an engine instruction leaves the pc. -/
theorem goOn_eq_advance (x : Facet) (r : Nat) (v : Word) : goOn x 4 r v = advance (setX x r v) := by
  have hpc : (setX x r v).pc = x.pc := by
    unfold setX
    split <;> rfl
  simp only [goOn, advance, hpc]
  rfl

theorem csrRun_reads {rd : BitVec 5} {csr : Nat} {v : Word} {g : Facet} (hi : issues s f [] []) (hread : csrRead (s.facet f) f s.now csr = some (v, g)) :
    csrRun s f csr rd = retired s f (setX g rd.toNat v) := by
  simp [csrRun, csrEng, retired, hi.1, hi.2, hread, goOn_eq_advance]

end Csr

/-- Settles O18: the word that is fetched chooses the branch, and a CSR read retires with its value (`csrRun_reads`). -/
theorem sequencerInstructions : Obligations.SequencerInstructions := by
  unfold Obligations.SequencerInstructions
  refine ⟨?base, ?custom, ?endAtPc, ?ecall, ?csr⟩
  case base =>
    intro s f w len v g x hruns hfetch hwide hbase hcall hbreak hstalls hgood
    exact sequencerRun_base hruns hfetch hwide hbase hcall hbreak hstalls hgood
  case custom =>
    intro s f w v g hruns hfetch hv hcustom
    subst hv
    exact sequencerRun_custom hruns hfetch rfl hcustom
  case endAtPc =>
    intro s f w len hi hfetch hwide hz c hc
    have hends : ok (ecallRun s f) = .next (s.setFacet f { s.facet f with run := .ended }) := congrArg ok (ecallRun_ends hi hz)
    simp only [List.mem_cons, List.not_mem_nil, or_false] at hc
    obtain rfl | rfl := hc
    · exact (sequencerRun_ecall hi.1 hfetch hwide rfl).trans hends
    · exact hends
  case ecall => exact fun s f hi hz => congrArg ok (ecallRun_ends hi hz)
  case csr => exact fun s f rd hi => ⟨congrArg ok (csrRun_reads hi rfl), congrArg ok (csrRun_reads hi rfl)⟩

/-! ## The fields of a word -/

section Fields

variable {f7 f3 rd rs1 rs2 imm op : Nat}

theorem nbits_lt (n lo len : Nat) : nbits n lo len < 2 ^ len := Nat.mod_lt _ (Nat.two_pow_pos len)

theorem wordR_fields (hf7 : f7 < 128) (hrs2 : rs2 < 32) (hrs1 : rs1 < 32) (hf3 : f3 < 8) (hrd : rd < 32) (hop : op < 128) :
    let w := wordR f7 rs2 rs1 f3 rd op
    w % 128 = op ∧ nbits w 7 5 = rd ∧ nbits w 12 3 = f3 ∧ nbits w 15 5 = rs1 ∧ nbits w 20 5 = rs2 ∧ nbits w 25 7 = f7 := by
  intro w
  have hw : w = f7 * 33554432 + rs2 * 1048576 + rs1 * 32768 + f3 * 4096 + rd * 128 + op := by
    simp only [w, wordR, pack, List.foldl, Nat.shiftLeft_eq]
    omega
  simp only [nbits_eq]
  omega

theorem wordI_fields (himm : imm < 4096) (hrs1 : rs1 < 32) (hf3 : f3 < 8) (hrd : rd < 32) (hop : op < 128) :
    let w := wordI imm rs1 f3 rd op
    w % 128 = op ∧ nbits w 7 5 = rd ∧ nbits w 12 3 = f3 ∧ nbits w 15 5 = rs1 ∧ nbits w 20 12 = imm := by
  intro w
  have hw : w = imm * 1048576 + rs1 * 32768 + f3 * 4096 + rd * 128 + op := by
    simp only [w, wordI, pack, List.foldl, Nat.shiftLeft_eq]
    omega
  simp only [nbits_eq]
  omega

/-- A branch word holds its offset in four pieces: bit 12, bits 10 to 5, bits 4 to 1 and bit 11. -/
theorem wordB_fields (hrs2 : rs2 < 32) (hrs1 : rs1 < 32) (hf3 : f3 < 8) :
    let w := wordB imm rs2 rs1 f3
    w % 128 = 0x63 ∧ nbits w 12 3 = f3 ∧ nbits w 15 5 = rs1 ∧ nbits w 20 5 = rs2 ∧
    nbits w 31 1 = nbits imm 12 1 ∧ nbits w 7 1 = nbits imm 11 1 ∧ nbits w 25 6 = nbits imm 5 6 ∧ nbits w 8 4 = nbits imm 1 4 := by
  have h12 := nbits_lt imm 12 1
  have h5 := nbits_lt imm 5 6
  have h1 := nbits_lt imm 1 4
  have h11 := nbits_lt imm 11 1
  unfold wordB
  generalize nbits imm 12 1 = b12, nbits imm 5 6 = b5, nbits imm 1 4 = b1, nbits imm 11 1 = b11 at *
  intro w
  have hw : w = b12 * 2147483648 + b5 * 33554432 + rs2 * 1048576 + rs1 * 32768 + f3 * 4096 + b1 * 256 + b11 * 128 + 0x63 := by
    simp only [w, pack, List.foldl, Nat.shiftLeft_eq]
    omega
  simp only [nbits_eq]
  omega

end Fields

/-! ## Results (log entry 13) -/

section Results

variable (x : Facet) (now : Nat) {f7 f3 rd rs1 rs2 imm : Nat}

/-- A register instruction of RV32I or M. -/
theorem baseEng_wordR (hf7 : f7 < 128) (hrs2 : rs2 < 32) (hrs1 : rs1 < 32) (hf3 : f3 < 8) (hrd : rd < 32) :
    baseEng x f now (wordR f7 rs2 rs1 f3 rd 0x33) 4 =
      if f7 = 1 then .good (goOn x 4 rd (mulOp f3 (getX x rs1) (getX x rs2)))
      else if f7 = 0 then .good (goOn x 4 rd (aluOp f3 false (getX x rs1) (getX x rs2)))
      else if f7 = 0x20 && (f3 = 0 || f3 = 5) then .good (goOn x 4 rd (aluOp f3 true (getX x rs1) (getX x rs2)))
      else .cause 0x01 0 := by
  obtain ⟨hop, hd, h3, h1, h2, h7⟩ := wordR_fields hf7 hrs2 hrs1 hf3 hrd (op := 0x33) (by decide)
  simp only [baseEng, hop, hd, h3, h1, h2, h7]

theorem baseEng_addi (himm : imm < 2048) (hrs1 : rs1 < 32) (hrd : rd < 32) :
    baseEng x f now (wordI imm rs1 0 rd 0x13) 4 = .good (goOn x 4 rd (getX x rs1 + BitVec.ofNat 32 imm)) := by
  obtain ⟨hop, hd, h3, h1, hi⟩ := wordI_fields (imm := imm) (f3 := 0) (op := 0x13) (by omega) hrs1 (by decide) hrd (by decide)
  have himmI : immI (wordI imm rs1 0 rd 0x13) = BitVec.ofNat 32 imm := by
    have hlow : imm % 2 ^ 12 = imm := Nat.mod_eq_of_lt (by omega)
    have hpos : imm < 2 ^ (12 - 1) := himm
    rw [immI, hi, sgn, hlow, if_pos hpos, BitVec.ofInt_natCast]
  simp only [baseEng, hop, hd, h3, h1, himmI]
  rfl

/-- Below 2048 an even offset is its bits 11 to 1, and positive. -/
theorem immB_wordB (hrs2 : rs2 < 32) (hrs1 : rs1 < 32) (hf3 : f3 < 8) (himm : imm < 2048) (heven : imm % 2 = 0) :
    immB (wordB imm rs2 rs1 f3) = BitVec.ofNat 32 imm := by
  obtain ⟨-, -, -, -, h31, h7, h25, h8⟩ := wordB_fields (imm := imm) hrs2 hrs1 hf3
  have hbits : pack [(12, 1, nbits imm 12 1), (11, 1, nbits imm 11 1), (5, 6, nbits imm 5 6), (1, 4, nbits imm 1 4)] = imm := by
    simp only [pack, List.foldl, Nat.shiftLeft_eq, nbits_eq]
    omega
  have hlow : imm % 2 ^ 13 = imm := Nat.mod_eq_of_lt (by omega)
  have hpos : imm < 2 ^ (13 - 1) := by omega
  rw [immB, h31, h7, h25, h8, hbits, sgn, hlow, if_pos hpos, BitVec.ofInt_natCast]

theorem baseEng_beq (hrs2 : rs2 < 32) (hrs1 : rs1 < 32) (himm : imm < 2048) (heven : imm % 2 = 0) :
    baseEng x f now (wordB imm rs2 rs1 0) 4 =
      .good { x with pc := x.pc + BitVec.ofNat 32 (if getX x rs1 = getX x rs2 then imm else 4) } := by
  obtain ⟨hop, h3, h1, h2, -⟩ := wordB_fields (imm := imm) hrs2 hrs1 (f3 := 0) (by decide)
  simp only [baseEng, hop, h3, h1, h2, immB_wordB hrs2 hrs1 (show 0 < 8 by decide) himm heven]
  by_cases hab : getX x rs1 = getX x rs2
  · simp [branchTaken, hab]
  · simp [branchTaken, hab]

theorem aluOp_sltu (a b : Word) : aluOp 3 false a b = if a < b then 1 else 0 := by
  simp [aluOp, BitVec.lt_def]

theorem mulOp_divu {a b : Word} (hb : b ≠ 0) : mulOp 5 a b = a / b := by
  refine BitVec.eq_of_toNat_eq ?_
  have hlt : a.toNat / b.toNat < 2 ^ 32 := Nat.lt_of_le_of_lt (Nat.div_le_self _ _) a.isLt
  rw [mulOp, if_neg hb, BitVec.toNat_ofNat, BitVec.toNat_udiv, Nat.mod_eq_of_lt hlt]

end Results

/-- Settles O19: each word's fields are those that it was written with, and choose the operation (`baseEng_wordR`). -/
theorem baseInstructionResults : Obligations.BaseInstructionResults := by
  unfold Obligations.BaseInstructionResults
  intro x f now rd rs1 rs2 hrd hrs1 hrs2 a b
  have hreg (f7 f3 : Nat) (hf7 : f7 < 128) (hf3 : f3 < 8) := baseEng_wordR (f := f) x now hf7 hrs2 hrs1 hf3 hrd
  refine ⟨hreg 0 0 (by decide) (by decide), hreg 0x20 0 (by decide) (by decide), ?sltu, hreg 0 7 (by decide) (by decide),
    hreg 1 0 (by decide) (by decide), ?divZero, ?divu, ?addi, ?beq⟩
  case sltu => rw [← aluOp_sltu]; exact hreg 0 3 (by decide) (by decide)
  case divZero => exact fun hb => (hreg 1 5 (by decide) (by decide)).trans (congrArg (fun v => Eng.good (goOn x 4 rd v)) (if_pos hb))
  case divu => exact fun hb => by rw [← mulOp_divu hb]; exact hreg 1 5 (by decide) (by decide)
  case addi => exact fun imm himm => baseEng_addi x now himm hrs1 hrd
  case beq => exact fun imm himm heven => baseEng_beq x now hrs2 hrs1 himm heven

end Sys2Proof.Machine
end

section
/-! PROOFS. Line requests at their controllers and their responses (R67, R148, R265, R306, R313, R325, R326). -/

namespace Sys2Proof.Machine

/-! ## At the controller (R265, R306, R313) -/

section Requests

variable {s : State} {tag : Nat} {r : LineReq} (hr : findReq s tag = some r)
include hr

theorem wrIssued_accepts (ok : Bool) (hcur : current s r = true) (hok : acceptable s r true = true) :
    let m := if r.die = stackOf r.off then (none, s) else takeMask s r.die
    let s1 := if ok then m.2 else tileFail m.2 (stackOf r.off) r.off
    wrIssued s tag ok =
      acceptReq (enqueue (dramLine s1 r.off r.data (m.1.orElse fun _ => partMask r.mask.toNat) (r.poison || !ok)) r.off true r.master (sourceOf r)) tag := by
  simp [wrIssued, hr, hcur, hok]

theorem rdIssued_accepts (found : EccResult) (hcur : current s r = true) (hok : acceptable s r false = true) :
    let s1 := dramFound s r.off found
    let s2 := { s1 with mem := { s1.mem with returned := s1.mem.returned ++ [(tag, dramRead s1 r.off 64, dramBad s1 r.off)] } }
    rdIssued s tag found = acceptReq (enqueue s2 r.off false r.master (sourceOf r)) tag := by
  simp [rdIssued, hr, hcur, hok]

theorem wrIssued_retired (ok : Bool) (hret : current s r = false) (hnew : r.accepted = false) (hwrite : r.write = true) :
    wrIssued s tag ok = dropReq s tag := by
  simp [wrIssued, hr, hret, hnew, hwrite]

theorem rdIssued_retired (found : EccResult) (hret : current s r = false) (hnew : r.accepted = false) (hread : r.write = false) :
    rdIssued s tag found = dropReq s tag := by
  simp [rdIssued, hr, hret, hnew, hread]

/-! ## Responses (R67, R148, R313, R326) -/

theorem rretIssued_places {t : Nat} {data : List Byte} {bad : Bool} (ok : Bool)
    (hdata : s.mem.returned.find? (fun p => p.1 == tag) = some (t, data, bad)) :
    let s1 := if ok then s else tileFail s r.die (64 * ((lmin (r.ls.map fun p => p.1 / 128)).getD 0))
    let s2 := { s1 with mem := { s1.mem with returned := s1.mem.returned.filter fun p => p.1 != tag } }
    rretIssued s tag ok = reqDone (s2.modFacet r.site fun f => placeLine f r.ls data (bad || !ok)) r := by
  simp [rretIssued, hr, hdata]

theorem wackIssued_completes (hwrite : r.write = true) (hacc : r.accepted = true) : wackIssued s tag = reqDone s r := by
  simp [wackIssued, hr, hwrite, hacc]

theorem rderrIssued_stops (hread : r.write = false) :
    let s1 := { s with mem := { s.mem with returned := s.mem.returned.filter fun p => p.1 != tag } }
    rderrIssued s tag = failSite (dropReq s1 tag) r.site (reqPc s1 r) (BitVec.ofNat 32 r.off) := by
  simp [rderrIssued, hr, hread]

end Requests

/-- Settles O33: the conditions of each command choose one branch of it. That the bytes of a write stand in its line as soon as its controller accepts it is
the model's choice (log entry 81). -/
theorem lineRequests : Obligations.LineRequests := by
  unfold Obligations.LineRequests
  refine ⟨?write, ?read, ?squash, ?place, ?ack, ?fail⟩
  case write => exact fun s tag r okay hr hcur hok => congrArg ok (wrIssued_accepts hr okay hcur hok)
  case read => exact fun s tag r found hr hcur hok => congrArg ok (rdIssued_accepts hr found hcur hok)
  case squash =>
    exact fun s tag r hr hret hnew => ⟨fun hwrite okay => congrArg ok (wrIssued_retired hr okay hret hnew hwrite),
      fun hread found => congrArg ok (rdIssued_retired hr found hret hnew hread)⟩
  case place => exact fun s tag t r data bad okay hr hdata => congrArg ok (rretIssued_places hr okay hdata)
  case ack => exact fun s tag r hr hwrite hacc => congrArg ok (wackIssued_completes hr hwrite hacc)
  case fail => exact fun s tag r cause hr hread => congrArg ok (rderrIssued_stops hr hread)

end Sys2Proof.Machine
end

section
/-! PROOFS. A step that stops or completes (R44, R71, R72, R184): what judging, reporting and the debugger keep of the programs on the sites. -/

namespace Sys2Proof.Machine

/-! ## The programs on the sites -/

/-- What a Facet holds of its program: where it stands, its registers, what it has outstanding, and how it ended. -/
structure Program where
  pc : Word
  x : List Word
  d : List (Option (BitVec 256))
  acc : Tab Word
  run : Run
  cause : Option Cause
  ended : Nat
  ops : List MoverOp
  waits : Tab Nat

/-- The program of a Facet. -/
def Facet.program (x : Facet) : Program :=
  { pc := x.pc, x := x.x, d := x.d, acc := x.acc, run := x.run, cause := x.cause, ended := x.ended, ops := x.ops, waits := x.waits }

/-- The programs of all sites, and the watches that stand. -/
def State.programs (s : State) : (Nat → Program) × List Watch := (fun f => (s.facet f).program, s.sync.watches)

section Programs

variable {s t : State} {p : Prop} [Decidable p] {u : (Nat → Program) × List Watch}

theorem ite_programs (hs : s.programs = u) (ht : t.programs = u) : (if p then s else t).programs = u := by
  split <;> assumption

theorem setFacet_programs {f : Nat} {y : Facet} (h : y.program = (s.facet f).program) : (s.setFacet f y).programs = s.programs := by
  refine Prod.ext (funext fun g => ?_) rfl
  show ((s.setFacet f y).facet g).program = (s.facet g).program
  rw [facet_setFacet]
  split
  next hg => rw [h, hg]
  next => rfl

theorem modFacet_programs {f : Nat} {g : Facet → Facet} (h : ∀ x, (g x).program = x.program) : (s.modFacet f g).programs = s.programs :=
  setFacet_programs (h _)

end Programs

/-! ## Records, vectors and completions -/

section Completions

variable (s : State)

theorem nim_programs (time seat site : Nat) (sec : Option Nat) (code sev : Nat) (inj : Bool) (payload : Nat) :
    (nim s time seat site sec code sev inj payload).programs = s.programs :=
  (congrArg State.programs (nim_bare s time seat site sec code sev inj payload) :)

theorem raiseFault_programs (stamp detail code seat site domain : Nat) (sec : Option Nat) :
    (raiseFault s stamp detail code seat site domain sec).programs = s.programs := rfl

theorem sramWrite_programs (hub o : Nat) (bytes : List Byte) : (sramWrite s hub o bytes).programs = s.programs :=
  ite_programs rfl (ite_programs rfl rfl)

theorem raiseVector_programs (sec vec cls body : Nat) : (raiseVector s sec vec cls body).programs = s.programs :=
  ite_programs (sramWrite_programs s _ _ _) (sramWrite_programs s _ _ _)

theorem devMsg_programs (seat dest cls len payload : Nat) (origin : Origin) (sec : Nat) :
    (devMsg s seat dest cls len payload origin sec).programs = s.programs :=
  ite_programs rfl rfl

theorem finishOne_programs (i status : Nat) (result : Word) (time : Nat) : (finishOne s i status result time).programs = s.programs :=
  ite_programs rfl (ite_programs rfl (ite_programs (devMsg_programs _ _ _ _ _ _ _ _) (ite_programs (raiseVector_programs _ _ _ _ _)
    (ite_programs rfl rfl))))

theorem unarmSlot_programs (i : Nat) : (unarmSlot s i).programs = s.programs := ite_programs rfl rfl

theorem finishTo_programs (n i status : Nat) (result : Word) (time : Nat) : (finishTo n s i status result time).programs = s.programs := by
  induction n generalizing s i status result with
  | zero => rfl
  | succ n ih =>
    exact ite_programs (finishOne_programs s i status result time)
      ((foldl_keeps (fun a j => (ih _ j _ _).trans (unarmSlot_programs a j)) _ _).trans (finishOne_programs s i status result time))

theorem finishH_programs (h status : Nat) (result : Word) (time : Nat) : (finishH s h status result time).programs = s.programs :=
  ite_programs (finishTo_programs s 4096 _ status result time) rfl

end Completions

/-! ## Barriers that a stopped step breaks (R193) -/

section Barriers

variable (s : State)

theorem markRound_programs (h r : Nat) (body : Option Nat) : (markRound s h r body).programs = s.programs := by
  unfold markRound
  extract_lets s1
  have h1 : s1.programs = s.programs := modFacet_programs fun _ => rfl
  exact h1

theorem barBreak_programs (k : Nat) : (barBreak s k).programs = s.programs := by
  unfold barBreak
  extract_lets b s1 s2
  have h1 : s1.programs = s.programs := foldl_keeps (fun a h => ite_programs (markRound_programs a h _ _)
    ((devMsg_programs _ _ _ _ _ _ _ _).trans (markRound_programs a h _ _))) _ _
  exact (foldl_keeps (fun a h => finishH_programs a h _ _ _) _ s2).trans h1

theorem barStop_programs (h : Nat) (l : List SigEntry) : (barStop s h l).programs = s.programs := by
  unfold barStop
  refine (foldl_keeps (g := State.programs) (fun a q => ?_) _ _).trans rfl
  exact ite_programs (ite_programs rfl (barBreak_programs a q.1)) rfl

end Barriers

/-! ## Outcomes (R128, R129, R241) -/

section Outcomes

variable (s : State)

theorem modTask_programs (e n h : Nat) (g : TaskOut → TaskOut) : (modTask s e n h g).programs = s.programs := rfl

theorem markDirty_programs (o : Nat) : (markDirty s o).programs = s.programs := ite_programs rfl rfl

theorem takeFree_programs (n : Nat) : (s.takeFree n).programs = s.programs := rfl

theorem touchArea_programs (area : List Nat) : (touchArea s area).programs = s.programs := by
  unfold touchArea
  refine ite_programs rfl ((takeFree_programs _ _).trans (foldl_keeps (g := State.programs) (fun a p => ?_) _ s))
  exact ite_programs (markDirty_programs a p.1) rfl

theorem releaseView_programs (id : Nat) : (releaseView s id).programs = s.programs := by
  unfold releaseView
  split
  · rfl
  · split
    · rfl
    · exact touchArea_programs _ _

theorem settleAt_programs (e n status : Nat) (result : Word) (t : Nat) : (settleAt s e n status result t).programs = s.programs := by
  unfold settleAt
  split
  · rfl
  · extract_lets s1 s2
    have h1 : s1.programs = s.programs := by
      unfold s1
      split
      · rfl
      · exact finishH_programs s _ _ _ _
    have h2 : s2.programs = s.programs := by
      unfold s2
      split
      · exact h1
      · exact (finishH_programs s1 _ _ _ _).trans h1
    exact h2

theorem trySettle_programs (e n : Nat) : (trySettle s e n).programs = s.programs := by
  unfold trySettle
  split
  · rfl
  · exact ite_programs (settleAt_programs ..) (ite_programs (ite_programs (settleAt_programs ..) (settleAt_programs ..)) rfl)

theorem failTask_programs (e n h : Nat) : (failTask s e n h).programs = s.programs := by
  unfold failTask
  split
  · rfl
  · exact (foldl_keeps (g := State.programs) releaseView_programs _ _).trans (settleAt_programs ..)

theorem windowFault_programs (e n stamp : Nat) : (windowFault s e n stamp).programs = s.programs := rfl

theorem stageCheck_programs (e n : Nat) : (stageCheck s e n).programs = s.programs := by
  unfold stageCheck
  split
  · rfl
  · exact ite_programs rfl (ite_programs rfl (ite_programs (windowFault_programs ..) (ite_programs (windowFault_programs ..) rfl)))

end Outcomes

/-! ## Judgement (R392, R394, R395, R400) -/

section Judgement

variable (s : State)

theorem logOutcome_programs (i stamp outcome : Nat) : (logOutcome s i stamp outcome).programs = s.programs := ite_programs rfl rfl

theorem countMismatch_programs (f : Nat) : (countMismatch s f).programs = s.programs := ite_programs rfl rfl

theorem checkLap_programs (d : Nat) : (checkLap s d).programs = s.programs := by
  unfold checkLap
  split
  · rfl
  · exact ite_programs rfl rfl

theorem orderSpare_programs (f : Nat) : (orderSpare s f).programs = s.programs := by
  have hmark : (markSuspect s f).programs = s.programs := ite_programs rfl (checkLap_programs _ _)
  exact ite_programs hmark hmark

theorem concludeFinding_programs (x : Finding) : (concludeFinding s x).programs = s.programs := by
  have hlog (n : Nat) : (logOutcome s x.logIx x.stamp n).programs = s.programs := logOutcome_programs s _ _ n
  unfold concludeFinding
  split
  · exact (countMismatch_programs _ _).trans ((countMismatch_programs _ _).trans (hlog 1))
  · exact (orderSpare_programs _ _).trans (hlog 2)
  · exact (orderSpare_programs _ _).trans (hlog 3)
  · exact (orderSpare_programs _ _).trans ((orderSpare_programs _ _).trans (hlog 4))
  · rfl

theorem orderFinding_programs (o : Occ) (h stamp msite csite logIx : Nat) : (orderFinding s o h stamp msite csite logIx).programs = s.programs := by
  unfold orderFinding
  extract_lets
  split
  · rfl
  · exact concludeFinding_programs _ _

theorem failReplay_programs (e n h stamp : Nat) : (failReplay s e n h stamp).programs = s.programs :=
  (failTask_programs _ e n h).trans (foldl_keeps (fun a _ => logOutcome_programs a _ _ _) _ s)

theorem mismatch_programs (unit : Nat) (m c : BitVec 512) (o : Occ) (replay first : Bool) : (mismatch s unit m c o replay first).programs = s.programs :=
  ite_programs rfl (ite_programs ((failReplay_programs ..).trans (logOutcome_programs ..)) (ite_programs (orderFinding_programs ..) rfl))

theorem bothJudged_programs (o : Occ) (h : Nat) (att : Bool) : (bothJudged s o h att).programs = s.programs := by
  unfold bothJudged
  split
  · rfl
  · split
    · exact ite_programs rfl (ite_programs (trySettle_programs ..) (trySettle_programs ..))
    · rfl

theorem judgePair_programs (unit : Nat) (m c : BitVec 512) : (judgePair s unit m c).programs = s.programs := by
  unfold judgePair
  extract_lets
  split
  · rfl
  · refine ite_programs (ite_programs (ite_programs (failReplay_programs ..) (bothJudged_programs ..)) (ite_programs rfl ?_))
      ((bothJudged_programs ..).trans (ite_programs rfl (mismatch_programs ..)))
    split <;> rfl

theorem takeRecord_programs (unit : Nat) (r : BitVec 512) : (takeRecord s unit r).programs = s.programs := by
  unfold takeRecord
  extract_lets
  refine ite_programs rfl ?_
  split
  · rfl
  · exact ite_programs (judgePair_programs ..) (judgePair_programs ..)

theorem foldF_program (x : Facet) (ws : List Nat) : (foldF x ws).program = x.program := by
  unfold foldF
  split
  · rfl
  · split <;> rfl

theorem checkpoint_programs (site : Nat) : (checkpoint s site).programs = s.programs := by
  unfold checkpoint
  extract_lets
  split
  · rfl
  · exact ite_programs rfl ((takeRecord_programs ..).trans (setFacet_programs (foldF_program _ _)))

end Judgement

/-! ## The debugger at a checkpoint (R409, R410) -/

section Debugger

variable (s : State)

theorem keepLog_programs (site : Nat) : (keepLog s site).programs = s.programs := by
  unfold keepLog
  split
  · rfl
  · exact ite_programs rfl rfl

theorem applyDebug_program (x : Facet) (l : List (Nat × List Byte)) : (applyDebug x l).program = x.program :=
  l.foldlRecOn (motive := fun g : Facet => g.program = x.program) _ rfl fun g h w _ => (congrArg Facet.program (lsWrite_besideLs g w.1 w.2) :).trans h

theorem taint_programs (site : Nat) (st : Step) : (taint s site st).programs = s.programs := by
  unfold taint
  extract_lets x give chk s0
  have hgive (g : Facet) : (give g).program = g.program := by
    unfold give
    split
    · rfl
    · exact applyDebug_program g _
  have h0 : s0.programs = s.programs := modFacet_programs fun g => by
    dsimp only
    split
    · exact hgive g
    · exact hgive g
  exact (nim_programs ..).trans h0

theorem debugPoint_programs (site : Nat) (st : Step) : (debugPoint s site st).programs = s.programs := by
  unfold debugPoint
  extract_lets main s1
  have h1 : s1.programs = s.programs := ite_programs rfl (taint_programs s site st)
  refine ite_programs rfl (ite_programs (modFacet_programs fun g => ?_) ?_)
  · exact applyDebug_program g _
  · exact (modFacet_programs fun g => by rfl).trans ((modFacet_programs fun g => by rfl).trans h1)

end Debugger

/-! ## A cause (R71, R72) -/

section Cause

variable {s : State} {f code : Nat} {pc operand : Word} {st : Step}

/-- The Facet of a step that a cause has stopped: nothing of it is outstanding, and an imprecise cause leaves its stores undefined. -/
def stoppedFacet (s : State) (f code : Nat) (pc operand : Word) : Facet :=
  let x := { s.facet f with run := .completed, cause := some { stamp := s.now, code := code, pc := pc, operand := operand },
                            ops := [], waits := [], carryTags := [], ended := s.now }
  if imprecise code then undefineStores x s.free else x

/-- What follows a cause leaves the program of the stopped site as the cause left it. -/
theorem program_raiseAt (hst : (s.facet f).step = some st) :
    ((raiseAt s f code pc operand).facet f).program = (stoppedFacet s f code pc operand).program := by
  unfold raiseAt
  extract_lets x c f1 f2 s1 y s2 s3
  have h3 : s3.programs.1 f = (stoppedFacet s f code pc operand).program := congrArg Facet.program (facet_setFacet_same _ f f2)
  split
  next hnone => rw [hst] at hnone; cases hnone
  next q hq =>
    extract_lets s4 s5 s6 s7 s8 s9
    have h6 : s6.programs = s3.programs := (checkpoint_programs s5 f).trans (ite_programs rfl (barStop_programs ..))
    have h9 : s9.programs = s6.programs := debugPoint_programs s8 f q
    have hlast : (if (q.trial && q.checker) = true then debugPoint s6 f q
        else if (q.replay && !q.paired) = true then failTask s9 q.entry q.tick q.home else s9).programs = s3.programs :=
      ite_programs ((debugPoint_programs ..).trans h6) (ite_programs ((failTask_programs ..).trans (h9.trans h6)) (h9.trans h6))
    exact (congrFun (congrArg Prod.fst hlast) f).trans h3

end Cause

/-- Settles O20: the site is left with its `stoppedFacet` (`program_raiseAt`). -/
theorem causeStopsItsStep : Obligations.CauseStopsItsStep := by
  unfold Obligations.CauseStopsItsStep
  intro s f code pc operand st hst y
  have hprogram := program_raiseAt (code := code) (pc := pc) (operand := operand) hst
  have hstopped : (stoppedFacet s f code pc operand).program =
      { (s.facet f).program with
          run := .completed, cause := some { stamp := s.now, code := code, pc := pc, operand := operand }, ended := s.now, ops := [], waits := [],
          acc := (stoppedFacet s f code pc operand).acc } := by
    unfold stoppedFacet
    split <;> rfl
  rw [hstopped] at hprogram
  exact ⟨congrArg Program.run hprogram, congrArg Program.cause hprogram, congrArg Program.ops hprogram, congrArg Program.waits hprogram,
    congrArg Program.pc hprogram, congrArg Program.x hprogram, congrArg Program.d hprogram⟩

/-! ## Completion (R44, R184) -/

section Completion

variable (s : State)

theorem startCarry_programs (site : Nat) (c : Carry) (second checker both : Bool) : (startCarry s site c second checker both).programs = s.programs := by
  unfold startCarry
  extract_lets f ls one s1 s2
  have hone (m : Bool) (a : State) : (one m a).programs = a.programs := foldl_keeps (g := State.programs) (fun a q => by rfl) _ _
  have h2 : s2.programs = s.programs := ite_programs ((hone true s1).trans (hone checker s)) (hone checker s)
  exact (modFacet_programs fun g => by rfl).trans h2

theorem watches_stepWatches (site : Nat) : ∀ w ∈ (stepWatches s site).sync.watches, w.site ≠ some site := by
  intro w hw hsite
  obtain ⟨hmem, hkept⟩ := List.mem_filter.1 hw
  have hid : w.id ∈ ((s.sync.watches.filter fun w => w.site == some site).map Watch.id) :=
    List.mem_map_of_mem (List.mem_filter.2 ⟨hmem, beq_iff_eq.2 hsite⟩)
  simp [hid] at hkept

/-- The program of a site whose step has completed. -/
def completedProgram (s : State) (f : Nat) : Program := { (s.facet f).program with run := .completed, ended := s.now }

variable {s} {f : Nat} {st : Step}

/-- After a completion the site holds its completed program, and of the watches those that `stepWatches` leaves. -/
theorem stepDone_completes (hst : (s.facet f).step = some st) :
    (stepDone s f).programs.1 f = completedProgram s f ∧ (stepDone s f).sync.watches = (stepWatches (keepLog s f) f).sync.watches := by
  unfold stepDone
  extract_lets x s1
  split
  next hnone => rw [hst] at hnone; cases hnone
  next q hq =>
    extract_lets tainted c s2 s3 s4 s5 s6
    clear_value c
    have h1 : (s1.facet f).program = (s.facet f).program := congrFun (congrArg Prod.fst (keepLog_programs s f)) f
    have h2 : (s2.facet f).program = (s.facet f).program ∧ s2.sync.watches = s1.sync.watches := by
      unfold s2
      split
      · exact ⟨h1, rfl⟩
      · rw [facet_setFacet_same]
        exact ⟨foldF_program _ _, rfl⟩
    obtain ⟨hprogram, hwatches⟩ := h2
    have h3 : s3.programs.1 f = completedProgram s f := by
      rw [completedProgram, ← hprogram]
      exact congrArg Facet.program (facet_modFacet_same s2 f _)
    have h4 : s4.programs = s3.programs := by
      unfold s4
      split
      · rfl
      · exact ite_programs rfl (startCarry_programs ..)
    have h5 : s5.programs = s3.programs := (debugPoint_programs ..).trans ((checkpoint_programs s4 f).trans h4)
    have hlast : (if (q.trial && q.checker) = true then s5 else trySettle (stageCheck s6 q.entry q.tick) q.entry q.tick).programs = s3.programs :=
      ite_programs h5 ((trySettle_programs ..).trans ((stageCheck_programs ..).trans h5))
    exact ⟨(congrFun (congrArg Prod.fst hlast) f).trans h3, (congrArg Prod.snd hlast).trans hwatches⟩

end Completion

/-- Settles O22: after the watches have gone, completion changes no program and no watch but for its instant (`stepDone_completes`). -/
theorem stepCompletionKeepsRegisters : Obligations.StepCompletionKeepsRegisters := by
  unfold Obligations.StepCompletionKeepsRegisters
  intro s f st hst y
  obtain ⟨hprogram, hwatches⟩ := stepDone_completes hst
  refine ⟨congrArg Program.run hprogram, congrArg Program.ended hprogram, congrArg Program.x hprogram, congrArg Program.d hprogram,
    congrArg Program.acc hprogram, fun w hw => ?_⟩
  rw [hwatches] at hw
  exact watches_stepWatches _ f w hw

end Sys2Proof.Machine
end
